-- ==== Sys2Proof/Word.lean ====
section
/-!
DEFINITION. The word types of the module and its plainest arithmetic: widths that the spec names (00 R3, R5; 03 R73).
-/
namespace Sys2Proof

/-- A 64-bit scalar, the width of a scalar register (04 R97). -/
abbrev Word := BitVec 64

/-- One byte. -/
abbrev Byte := BitVec 8

/-- One instruction slot of a line (02 R42). -/
abbrev Slot := BitVec 60

/-- A position: line index in [22:3], slot in [2:0] (02 R46). -/
abbrev Pos := BitVec 23

/-- A row of 192 lanes of 32 bits, lane `l` at bits 32l and up: a vector register, an accumulator row, a FIFO entry
of 768 B (01 R13, 05 R130, 06 R172). -/
abbrev Row := BitVec 6144

/-- A lane mask, bit `l` for lane `l` (05 R129). -/
abbrev LaneMask := BitVec 192

/-- The number of lanes of a strip (01 R13). -/
def lanes : Nat := 192

end Sys2Proof
end

