-- ==== Sys2Proof/Syntax.lean ====
section
/-!
DEFINITION. The module's steps as syntax: one constructor of `Instr` for each row of spec/opcode_table.json. An
instruction carries the operand fields of its form (02 R50, R53 to R60); an event carries what its input brings (a
packet of 10 R292, a window access, a sensor reading).
-/
namespace Sys2Proof

/-- The operand fields of a control-core slot (02 R50). -/
structure CoreForm where
  /-- guarded by predicate `p` -/
  g : Bool := false
  /-- negate the guard -/
  n : Bool := false
  p : BitVec 4 := 0
  d : BitVec 5 := 0
  a : BitVec 5 := 0
  b : BitVec 5 := 0
  /-- last use of A -/
  la : Bool := false
  /-- last use of B -/
  lb : Bool := false
  x : BitVec 5 := 0
  imm : BitVec 24 := 0
deriving DecidableEq, Repr, Inhabited

/-- The common header of a strip slot without its opcode (02 R53). -/
structure StripHead where
  idle : BitVec 6 := 0
  /-- pop one token from the left neighbour -/
  pl : Bool := false
  /-- pop one token from the right neighbour -/
  pr : Bool := false
  /-- push one token to the left neighbour -/
  hl : Bool := false
  /-- push one token to the right neighbour -/
  hr : Bool := false
  /-- negate the guard -/
  gn : Bool := false
  /-- guard register -/
  gi : BitVec 3 := 0
deriving DecidableEq, Repr, Inhabited

/-- The VR form of the vector strip (02 R57). -/
structure VRForm where
  d : BitVec 6 := 0
  a : BitVec 6 := 0
  b : BitVec 6 := 0
  c : BitVec 6 := 0
  la : Bool := false
  lb : Bool := false
  lc : Bool := false
  m : BitVec 3 := 0
  t : BitVec 4 := 0
  f : BitVec 4 := 0
deriving DecidableEq, Repr, Inhabited

/-- The VI form of the vector strip (02 R57). -/
structure VIForm where
  d : BitVec 6 := 0
  a : BitVec 6 := 0
  la : Bool := false
  m : BitVec 3 := 0
  t : BitVec 4 := 0
  imm : BitVec 18 := 0
deriving DecidableEq, Repr, Inhabited

/-- The MX form of the matrix strip (02 R58). -/
structure MXForm where
  row : BitVec 7 := 0
  cnt : BitVec 7 := 0
  ws : Bool := false
  ta : BitVec 4 := 0
  tb : BitVec 4 := 0
  src : BitVec 3 := 0
  dst : BitVec 3 := 0
  cvt : BitVec 3 := 0
  rm : BitVec 2 := 0
  f : BitVec 4 := 0
deriving DecidableEq, Repr, Inhabited

/-- The AX form of the access strip and the WX form of the writeback strip, which have one layout (02 R59). -/
structure AXForm where
  ds : BitVec 4 := 0
  port : BitVec 3 := 0
  cnt : BitVec 11 := 0
  aux : BitVec 4 := 0
  imm : BitVec 16 := 0
deriving DecidableEq, Repr, Inhabited

/-- The CM form of the common strip instructions: bits [37:24] and IMM24 (02 R60). -/
structure CMForm where
  rsv : BitVec 14 := 0
  imm : BitVec 24 := 0
deriving DecidableEq, Repr, Inhabited

/-- A packet: the header of 10 R292 and a payload of `len` 16-byte units, byte `i` at bits 8i and up; `bad` marks the
64-bit payload words that are poisoned (10 R325), and `via`, at its receiver, the link that it came by. -/
structure Packet where
  ddev : BitVec 10 := 0
  type : BitVec 6 := 0
  dtile : BitVec 10 := 0
  /-- H, handoff -/
  fH : Bool := false
  /-- L, last packet -/
  fL : Bool := false
  /-- A, acknowledgement request -/
  fA : Bool := false
  /-- P, probe -/
  fP : Bool := false
  /-- W, whistle -/
  fW : Bool := false
  /-- C, combined read -/
  fC : Bool := false
  label : BitVec 16 := 0
  seq : BitVec 16 := 0
  sdev : BitVec 10 := 0
  len : BitVec 5 := 0
  stile : BitVec 10 := 0
  lslot : BitVec 4 := 0
  off : BitVec 28 := 0
  payload : BitVec 2048 := 0
  bad : BitVec 32 := 0
  via : Nat := 0
deriving DecidableEq, Repr, Inhabited

/-- Where a pipelined result lands: a register or predicate of the control core (04 R100), or a mailbox of strip `e` that MCFG,
MXCNT or SFLG.get writes (06 R188, R189; 13 R384). -/
inductive CoreDest where
  | sreg (n : Nat)
  | preg (n : Nat)
  | mailbox (e k : Nat)
  /-- s`n` takes the new SEQ of the snapshot that the route unit of a die takes then (13 R378) -/
  | snapshot (n die : Nat)
  /-- s`n` takes word `sel` of expert `e` of a route unit as it stands then (13 R379) -/
  | counter (n die sel e : Nat)
deriving DecidableEq, Repr

/-- Where a result of the vector strip lands (05 R137): a register, a mask, a data FIFO of 09 R266 or a mailbox. -/
inductive VectorDest where
  | vreg (n : Nat)
  | mask (n : Nat)
  | fifo (f : Nat)
  | mailbox (k : Nat)
deriving DecidableEq, Repr

/-- What holds a circuit at its sender: a promoted flow-meter entry or a handle of a context (12 R362 CKIND). -/
inductive CircuitSource where
  | meter (k : Nat)
  | handle (c : Bool) (h : Nat)
deriving DecidableEq, Repr

/-- Why a page walk was started in the background: TPREF of a stream entry, or TPROBE into a mailbox (12 R354, R355). -/
inductive WalkPurpose where
  | prefetch (entry : Nat)
  | query (mailbox : Nat) (va : Nat) (kind : Nat)
deriving DecidableEq, Repr

/-- An access of up to 64 bytes at a byte address: a host access, a debug access or a window access. -/
structure ByteAccess where
  write : Bool
  addr : Nat
  size : Nat
  data : BitVec 512 := 0
deriving DecidableEq, Repr

/-- What a time message brings (13 R369): its kind-specific timestamps in 2^-16 ns, the correction of the transparent
clocks included, and whether a Follow_Up comes. -/
structure TimeMessage where
  domain : Nat
  seq : Nat
  twoStep : Bool := false
  /-- the sender's timestamp -/
  origin : Int
  /-- the receiver's timestamp -/
  received : Int
  /-- the correction field -/
  correction : Int := 0
deriving DecidableEq, Repr

/-- A configuration item (15 R418). -/
inductive ConfigItem where
  | deviceId (d : Nat)
  | planeMap (port plane : Nat)
  | laneTiming (item value : Nat)
  | sidebandAddress (a : Nat)
  | servoWord (w : Word)
  | warnLimit (quarterDegrees : Nat)
  | criticalLimit (quarterDegrees : Nat)
  | unknown (code : Nat)
deriving DecidableEq, Repr

/-- A signed image in board flash (15 R415): header fields, body, and the items that a configuration body holds. -/
structure SignedImage where
  magic : BitVec 32
  kind : Nat
  svn : Nat
  length : Nat
  digest : BitVec 384
  esig : BitVec 768
  lsig : BitVec 14176
  reservedZero : Bool
  body : List Byte
  items : List ConfigItem := []
deriving DecidableEq, Repr

/-- What the work of a start-up stage found (15 R413): tiles and units that failed self-test, stacks and sub-links that
failed to train, the Nuton width, the fabric ports that trained. -/
structure StageResult where
  benched : List Nat := []
  badUnit : Option (BitVec 16) := none
  badStack : Bool := false
  badSublink : Bool := false
  nuton : Nat := 32
  portsUp : List Nat := []
  /-- the lanes of a port that has trained with fewer than 4: port, lanes -/
  narrow : List (Nat × Nat) := []
deriving DecidableEq, Repr

/-- One step of the module: the rows of spec/opcode_table.json in their order. -/
inductive Instr where
  /-- ADD: Writes the 64-bit wrapped sum of two scalar registers. (R116) -/
  | add (o : CoreForm)
  /-- SUB: Writes the 64-bit wrapped difference of two scalar registers. (R116) -/
  | sub (o : CoreForm)
  /-- MUL: Writes the low 64 bits of the product of two scalar registers. (R116) -/
  | mul (o : CoreForm)
  /-- MULH: Writes the high 64 bits of the signed product. (R116) -/
  | mulh (o : CoreForm)
  /-- MULHN: Writes the high 64 bits of the natural product. (R116) -/
  | mulhn (o : CoreForm)
  /-- DIV: Signed division over 12 visible micro-steps, trapping on a zero divisor. (R116) -/
  | div (o : CoreForm)
  /-- DIVN: Natural division over 12 visible micro-steps. (R116) -/
  | divn (o : CoreForm)
  /-- REM: Signed remainder over 12 visible micro-steps. (R116) -/
  | rem (o : CoreForm)
  /-- REMN: Natural remainder over 12 visible micro-steps. (R116) -/
  | remn (o : CoreForm)
  /-- AND: Writes the bitwise AND of two scalar registers. (R116) -/
  | and (o : CoreForm)
  /-- OR: Writes the bitwise OR of two scalar registers. (R116) -/
  | or (o : CoreForm)
  /-- XOR: Writes the bitwise XOR of two scalar registers. (R116) -/
  | xor (o : CoreForm)
  /-- ANDN: Writes A AND NOT B. (R116) -/
  | andn (o : CoreForm)
  /-- SHL: Shifts left by the low six bits of B. (R116) -/
  | shl (o : CoreForm)
  /-- SHR: Logical shift right by the low six bits of B. (R116) -/
  | shr (o : CoreForm)
  /-- SRA: Arithmetic shift right by the low six bits of B. (R116) -/
  | sra (o : CoreForm)
  /-- ROT: Rotates A left by the low six bits of B. (R116) -/
  | rot (o : CoreForm)
  /-- MIN: Writes the signed minimum. (R116) -/
  | min (o : CoreForm)
  /-- MAX: Writes the signed maximum. (R116) -/
  | max (o : CoreForm)
  /-- MINN: Writes the natural minimum. (R116) -/
  | minn (o : CoreForm)
  /-- MAXN: Writes the natural maximum. (R116) -/
  | maxn (o : CoreForm)
  /-- CLZ: Counts leading zero bits of A. (R116) -/
  | clz (o : CoreForm)
  /-- POPC: Counts one bits of A. (R116) -/
  | popc (o : CoreForm)
  /-- ADDI: Adds a sign-extended 24-bit immediate. (R118) -/
  | addi (o : CoreForm)
  /-- ANDI: ANDs with a sign-extended immediate. (R118) -/
  | andi (o : CoreForm)
  /-- ORI: ORs with a zero-extended immediate. (R118) -/
  | ori (o : CoreForm)
  /-- XORI: XORs with a zero-extended immediate. (R118) -/
  | xori (o : CoreForm)
  /-- SHLI: Shifts left by an immediate amount. (R118) -/
  | shli (o : CoreForm)
  /-- SHRI: Logical shift right by an immediate amount. (R118) -/
  | shri (o : CoreForm)
  /-- SRAI: Arithmetic shift right by an immediate amount. (R118) -/
  | srai (o : CoreForm)
  /-- LUI: Writes a sign-extended immediate shifted left by 24. (R118) -/
  | lui (o : CoreForm)
  /-- LI: Two-slot load of a 64-bit immediate. (R119) -/
  | li (o : CoreForm) (ext : BitVec 40)
  /-- CMP: Writes a predicate from a register-register condition. (R121) -/
  | cmp (o : CoreForm)
  /-- CMPI: Writes a predicate from a register-immediate condition. (R121) -/
  | cmpi (o : CoreForm)
  /-- FCMP: Writes a predicate from an FP32 or FP64 comparison. (R121) -/
  | fcmp (o : CoreForm)
  /-- PAND: Predicate AND with optional inversions. (R121) -/
  | pand (o : CoreForm)
  /-- POR: Predicate OR with optional inversions. (R121) -/
  | por (o : CoreForm)
  /-- PXOR: Predicate XOR with optional inversions. (R121) -/
  | pxor (o : CoreForm)
  /-- PSET: Sets a predicate to a constant. (R121) -/
  | pset (o : CoreForm)
  /-- PPACK: Packs eight predicates into a register. (R121) -/
  | ppack (o : CoreForm)
  /-- PUNPK: Unpacks eight register bits into predicates. (R121) -/
  | punpk (o : CoreForm)
  /-- SEL: Selects A or B by a predicate. (R121) -/
  | sel (o : CoreForm)
  /-- FADD: Scalar floating-point add rounded once. (R122) -/
  | fadd (o : CoreForm)
  /-- FSUB: Scalar floating-point subtract rounded once. (R122) -/
  | fsub (o : CoreForm)
  /-- FMUL: Scalar floating-point multiply rounded once. (R122) -/
  | fmul (o : CoreForm)
  /-- FDIV: Multi-cycle scalar floating-point divide. (R122) -/
  | fdiv (o : CoreForm)
  /-- FSQRT: Multi-cycle scalar floating-point square root. (R122) -/
  | fsqrt (o : CoreForm)
  /-- FMA: Fused multiply-add rounded once. (R122) -/
  | fma (o : CoreForm)
  /-- FMS: Fused multiply-subtract rounded once. (R122) -/
  | fms (o : CoreForm)
  /-- FMIN: Floating-point minimum with NaN and signed-zero rules. (R122) -/
  | fmin (o : CoreForm)
  /-- FMAX: Floating-point maximum with NaN and signed-zero rules. (R122) -/
  | fmax (o : CoreForm)
  /-- FSGN: Replaces the sign bit by a sign-injection rule. (R122) -/
  | fsgn (o : CoreForm)
  /-- FCVT: Converts between the formats of the conversion code table. (R123) -/
  | fcvt (o : CoreForm)
  /-- FCLASS: Writes the class bit of a floating-point value. (R122) -/
  | fclass (o : CoreForm)
  /-- B: Branch with two delay slots, never annulling. (R124) -/
  | b (o : CoreForm)
  /-- BNA: Branch that annuls its delay slots when not taken. (R124) -/
  | bna (o : CoreForm)
  /-- BTA: Branch that annuls its delay slots when taken. (R124) -/
  | bta (o : CoreForm)
  /-- BCMP: Compare-and-branch with two delay slots. (R124) -/
  | bcmp (o : CoreForm)
  /-- BCMPNA: Compare-and-branch annulling delay slots when not taken. (R124) -/
  | bcmpna (o : CoreForm)
  /-- CALL: Call to a position, writing the link in s1. (R124) -/
  | call (o : CoreForm)
  /-- CALLR: Call to a register position, writing the link in s1. (R124) -/
  | callr (o : CoreForm)
  /-- JR: Jump to the position in a register. (R124) -/
  | jr (o : CoreForm)
  /-- LD: Loads a sized value from a local address. (R224) -/
  | ld (o : CoreForm)
  /-- ST: Stores a sized value to a local address, including bank registers. (R224) -/
  | st (o : CoreForm)
  /-- LDP: Loads a 16-byte register pair. (R224) -/
  | ldp (o : CoreForm)
  /-- STP: Stores a 16-byte register pair. (R224) -/
  | stp (o : CoreForm)
  /-- LDX: Loads from a cluster sibling's SHARED bank. (R224) -/
  | ldx (o : CoreForm)
  /-- SGO: Arms a strip at a position in timed or elastic mode. (R261) -/
  | sgo (o : CoreForm)
  /-- SSTART: Starts the named strips on a common start cycle. (R262) -/
  | sstart (o : CoreForm)
  /-- SSTOP: Stops the named running strips between instructions or micro-steps. (R263) -/
  | sstop (o : CoreForm)
  /-- GSET: Writes a strip guard register. (R264) -/
  | gset (o : CoreForm)
  /-- PHEND: Declares arrival at the boundary and holds issue until the next start pulse. (R366) -/
  | phend (o : CoreForm)
  /-- PHBUD: Sets the compute budget from the next compute phase. (R367) -/
  | phbud (o : CoreForm)
  /-- TLSIG: Adds one to an own timeline counter, optionally as a release. (R375) -/
  | tlsig (o : CoreForm)
  /-- TLWAIT: Holds issue until another agent's timeline counter reaches a value. (R376) -/
  | tlwait (o : CoreForm)
  /-- WAITT: Holds issue until device time reaches a value. (R371) -/
  | waitt (o : CoreForm)
  /-- TRAP: Completes and raises the software trap cause. (R395) -/
  | trap (o : CoreForm)
  /-- BRK: Completes and raises the breakpoint cause. (R395) -/
  | brk (o : CoreForm)
  /-- MFC: Reads a control state register. (R125) -/
  | mfc (o : CoreForm)
  /-- MTC: Writes a control state register with its access and reseed rules. (R125) -/
  | mtc (o : CoreForm)
  /-- FENCE_LOCAL: Waits for earlier loads, stores and MTCs to complete. (R126) -/
  | fenceLocal (o : CoreForm)
  /-- FENCE_STRIPS: Also waits until every started strip has executed SEND. (R126) -/
  | fenceStrips (o : CoreForm)
  /-- TRACE_CFG: Writes trace control word 0x00 from a register. (R410) -/
  | traceCfg (o : CoreForm)
  /-- TRACE_MARK: Records a mark entry in the trace buffer. (R410) -/
  | traceMark (o : CoreForm)
  /-- TRACE_TRIG: Acts as a trace trigger match at the current head. (R410) -/
  | traceTrig (o : CoreForm)
  /-- TEND: Ends the context's part of its task once strips and streams are done. (R335) -/
  | tend (o : CoreForm)
  /-- TSPAWN: Appends a task record to a task queue. (R334) -/
  | tspawn (o : CoreForm)
  /-- ERET: Returns from a trap handler by reloading the fetch queue. (R396) -/
  | eret (o : CoreForm)
  /-- LAUNCH_OPEN: Opens a job from a job entry and appends its first task. (R337) -/
  | launchOpen (o : CoreForm)
  /-- LAUNCH_GO: Launches a placed placement, loading its image. (R337) -/
  | launchGo (o : CoreForm)
  /-- LAUNCH_REPLAY: Abandons a frozen job's superstep and prepares its replay. (R341) -/
  | launchReplay (o : CoreForm)
  /-- LAUNCH_SEL: Selects, places and launches the first placeable ready task. (R337) -/
  | launchSel (o : CoreForm)
  /-- PLACE: Reserves a region for one queued task. (R336) -/
  | place (o : CoreForm)
  /-- CTXSAVE: Saves a quiet placement's contexts to HBM. (R339) -/
  | ctxsave (o : CoreForm)
  /-- CTXLOAD: Restores a saved gang onto a congruent region. (R340) -/
  | ctxload (o : CoreForm)
  /-- CTXSW: Arms a pre-emption at a target phase boundary. (R338) -/
  | ctxsw (o : CoreForm)
  /-- TLBINV: Rewrites at most one table entry and invalidates cached translations with markers. (R351) -/
  | tlbinv (o : CoreForm)
  /-- MONITOR: Takes a coherent copy of a line and arms the steward's monitor. (R257) -/
  | monitor (o : CoreForm)
  /-- MWAIT: Sleeps until the armed line is invalidated, times out or is lost. (R258) -/
  | mwait (o : CoreForm)
  /-- WHISTLE: Originates a freeze whistle for a job from a steward. (R407) -/
  | whistle (o : CoreForm)
  /-- RESUME: Releases a frozen job at a device time. (R405) -/
  | resume (o : CoreForm)
  /-- STEP_JOB: Releases a frozen job for a number of cycles. (R406) -/
  | stepJob (o : CoreForm)
  /-- STEP_TILE: Steps one entry or micro-step of one engine of a frozen tile. (R406) -/
  | stepTile (o : CoreForm)
  /-- STEP_INSN: Runs one engine's current instruction of a frozen tile to completion. (R406) -/
  | stepInsn (o : CoreForm)
  /-- BENCH: Benches a tile. (R359) -/
  | bench (o : CoreForm)
  /-- ERRINJ: Inverts or arms inversion of bits in an SECDED-protected word. (R222) -/
  | errinj (o : CoreForm)
  /-- COPEN: Takes a free circuit handle and launches a probe. (R318) -/
  | copen (o : CoreForm)
  /-- CHOLD: Extends a circuit handle's lease. (R318) -/
  | chold (o : CoreForm)
  /-- CCLOSE: Tears a circuit handle down. (R318) -/
  | cclose (o : CoreForm)
  /-- CSTAT: Reads a word of a circuit handle's state. (R318) -/
  | cstat (o : CoreForm)
  /-- RCSNAP: Snapshots and clears a die's routing counters. (R378) -/
  | rcsnap (o : CoreForm)
  /-- RCREAD: Reads a routing counter snapshot, live value or sequence. (R379) -/
  | rcread (o : CoreForm)
  /-- FMSET: Writes a flow-meter parameter at one or all ports. (R381) -/
  | fmset (o : CoreForm)
  /-- FMREAD: Reads a flow-meter entry or parameter. (R382) -/
  | fmread (o : CoreForm)
  /-- RDCYC: Reads the module cycle count. (R372) -/
  | rdcyc (o : CoreForm)
  /-- RDTIME: Reads device time, fixed-point time or servo status. (R372) -/
  | rdtime (o : CoreForm)
  /-- RDPHASE: Reads the phase counter, local phase cycle or deadline counter. (R372) -/
  | rdphase (o : CoreForm)
  /-- HISTCFG: Writes a health monitor configuration, clearing its bins. (R386) -/
  | histcfg (o : CoreForm)
  /-- HISTRD: Reads a health monitor word, optionally clearing it. (R387) -/
  | histrd (o : CoreForm)
  /-- SDESC: Loads an access descriptor and resets its cursor. (R273) -/
  | sdesc (h : StripHead) (o : AXForm)
  /-- SRUN: Feeds descriptor elements as FIFO entries. (R275) -/
  | srun (h : StripHead) (o : AXForm)
  /-- SSKIP: Advances or sets a descriptor cursor. (R274) -/
  | sskip (h : StripHead) (o : AXForm)
  /-- ALD: Feeds 768-byte scratchpad rows into a FIFO. (R275) -/
  | ald (h : StripHead) (o : AXForm)
  /-- ALDM: Feeds rows from a sibling's SHARED bank over the multicast path. (R275) -/
  | aldm (h : StripHead) (o : AXForm)
  /-- AGATH: Gathers indexed rows into FIFO entries. (R276) -/
  | agath (h : StripHead) (o : AXForm)
  /-- ACOPY: Copies and converts rows within the own scratchpad. (R225) -/
  | acopy (h : StripHead) (o : AXForm)
  /-- BGIN: Issues a background stream from memory into STAGE banks. (R279) -/
  | bgin (h : StripHead) (o : AXForm)
  /-- BGOUT: Issues a background stream from scratchpad to memory. (R279) -/
  | bgout (h : StripHead) (o : AXForm)
  /-- BGFILL: Issues a background fill of STAGE rows with a mailbox value. (R279) -/
  | bgfill (h : StripHead) (o : AXForm)
  /-- BGCODE: Issues a background load of code lines into the instruction store. (R279) -/
  | bgcode (h : StripHead) (o : AXForm)
  /-- TPREF: Warms the TLBs in the background without faulting. (R354) -/
  | tpref (h : StripHead) (o : AXForm)
  /-- TPROBE: Translates an element and writes the outcome to a mailbox. (R355) -/
  | tprobe (h : StripHead) (o : AXForm)
  /-- XPUT: Sends a descriptor stream as write packets. (R301) -/
  | xput (h : StripHead) (o : AXForm)
  /-- XGET: Reads remote bytes into the own scratchpad. (R301) -/
  | xget (h : StripHead) (o : AXForm)
  /-- XCIR: Sends a stream as beats on a circuit at a compiled departure. (R321) -/
  | xcir (h : StripHead) (o : AXForm)
  /-- XDISP: Dispatches rows to experts by routing counters and writes receipts. (R308) -/
  | xdisp (h : StripHead) (o : AXForm)
  /-- XCOMB: Reads back dispatched rows named by receipts. (R309) -/
  | xcomb (h : StripHead) (o : AXForm)
  /-- XGATH8: Gathers 8-byte values by combined reads. (R306) -/
  | xgath8 (h : StripHead) (o : AXForm)
  /-- XSCAT: Scatters rows to indexed remote units. (R301) -/
  | xscat (h : StripHead) (o : AXForm)
  /-- XRED: Sends words as switch-merged reduction records. (R310) -/
  | xred (h : StripHead) (o : AXForm)
  /-- XSEND: Sends access-strip mailboxes as one packet. (R301) -/
  | xsend (h : StripHead) (o : AXForm)
  /-- XLAND: Writes a landing slot from a record. (R301) -/
  | xland (h : StripHead) (o : AXForm)
  /-- AADD: Atomic integer add over operation records. (R250) -/
  | aadd (h : StripHead) (o : AXForm)
  /-- AFADD: Atomic FP32 add over operation records. (R250) -/
  | afadd (h : StripHead) (o : AXForm)
  /-- ABFADD: Atomic packed BF16 add over operation records. (R250) -/
  | abfadd (h : StripHead) (o : AXForm)
  /-- AMIN: Atomic minimum over operation records. (R250) -/
  | amin (h : StripHead) (o : AXForm)
  /-- AMAX: Atomic maximum over operation records. (R250) -/
  | amax (h : StripHead) (o : AXForm)
  /-- AAND: Atomic AND over operation records. (R250) -/
  | aand (h : StripHead) (o : AXForm)
  /-- AOR: Atomic OR over operation records. (R250) -/
  | aor (h : StripHead) (o : AXForm)
  /-- AXOR: Atomic XOR over operation records. (R250) -/
  | axor (h : StripHead) (o : AXForm)
  /-- AXCHG: Atomic exchange over operation records. (R250) -/
  | axchg (h : StripHead) (o : AXForm)
  /-- ACAS: Atomic compare-and-swap over operation records. (R250) -/
  | acas (h : StripHead) (o : AXForm)
  /-- WLD: Loads a dense weight panel into a latch slot. (R181) -/
  | wld (h : StripHead) (o : MXForm)
  /-- WLDS: Loads a 2:4 sparse weight panel into a latch slot. (R181) -/
  | wlds (h : StripHead) (o : MXForm)
  /-- WLDG: Loads a group-scaled weight panel into a latch slot. (R181) -/
  | wldg (h : StripHead) (o : MXForm)
  /-- MMA: Accumulates one K-step of products into accumulator rows. (R183) -/
  | mma (h : StripHead) (o : MXForm)
  /-- MMAS: Accumulates one sparse K-step into accumulator rows. (R183) -/
  | mmas (h : StripHead) (o : MXForm)
  /-- MMAZ: Starts accumulator rows with one K-step of products. (R183) -/
  | mmaz (h : StripHead) (o : MXForm)
  /-- ACLR: Clears accumulator rows and their counts. (R185) -/
  | aclr (h : StripHead) (o : MXForm)
  /-- ADRN: Drains accumulator rows to a FIFO with conversion. (R186) -/
  | adrn (h : StripHead) (o : MXForm)
  /-- ALDA: Loads or adds FIFO rows into accumulator rows. (R187) -/
  | alda (h : StripHead) (o : MXForm)
  /-- MSCAN: Runs a selective scan choosing chunked or recurrent form by CHMIN. (R192) -/
  | mscan (h : StripHead) (o : MXForm)
  /-- MSCANC: Runs a selective scan in chunked form only. (R192) -/
  | mscanc (h : StripHead) (o : MXForm)
  /-- MSCANR: Runs a selective scan in recurrent form only. (R192) -/
  | mscanr (h : StripHead) (o : MXForm)
  /-- HLD: Loads scan-state rows from a FIFO. (R199) -/
  | hld (h : StripHead) (o : MXForm)
  /-- HST: Pushes scan-state rows to a FIFO. (R199) -/
  | hst (h : StripHead) (o : MXForm)
  /-- HCLR: Clears scan-state rows. (R199) -/
  | hclr (h : StripHead) (o : MXForm)
  /-- MCFG_WRITE: Writes a matrix control register from a mailbox. (R188) -/
  | mcfgWrite (h : StripHead) (o : MXForm)
  /-- MCFG_READ: Writes a mailbox from a matrix control register. (R188) -/
  | mcfgRead (h : StripHead) (o : MXForm)
  /-- MXCNT: Reads a pending or committed NaN, Inf or saturation count to a mailbox. (R189) -/
  | mxcnt (h : StripHead) (o : MXForm)
  /-- VADD: Per-lane add. (R143) -/
  | vadd (h : StripHead) (o : VRForm)
  /-- VSUB: Per-lane subtract. (R143) -/
  | vsub (h : StripHead) (o : VRForm)
  /-- VMUL: Per-lane multiply. (R143) -/
  | vmul (h : StripHead) (o : VRForm)
  /-- VFMA: Per-lane fused multiply-add. (R143) -/
  | vfma (h : StripHead) (o : VRForm)
  /-- VFMS: Per-lane fused multiply-subtract. (R143) -/
  | vfms (h : StripHead) (o : VRForm)
  /-- VFNMA: Per-lane negated fused multiply-add. (R143) -/
  | vfnma (h : StripHead) (o : VRForm)
  /-- VDIV: Per-lane divide. (R143) -/
  | vdiv (h : StripHead) (o : VRForm)
  /-- VSQRT: Per-lane square root. (R143) -/
  | vsqrt (h : StripHead) (o : VRForm)
  /-- VRSQ: Per-lane reciprocal square root. (R143) -/
  | vrsq (h : StripHead) (o : VRForm)
  /-- VRCP: Per-lane reciprocal. (R143) -/
  | vrcp (h : StripHead) (o : VRForm)
  /-- VMIN: Per-lane minimum. (R143) -/
  | vmin (h : StripHead) (o : VRForm)
  /-- VMAX: Per-lane maximum. (R143) -/
  | vmax (h : StripHead) (o : VRForm)
  /-- VABS: Per-lane absolute value. (R143) -/
  | vabs (h : StripHead) (o : VRForm)
  /-- VNEG: Per-lane negation. (R143) -/
  | vneg (h : StripHead) (o : VRForm)
  /-- VAND: Per-lane bitwise AND. (R145) -/
  | vand (h : StripHead) (o : VRForm)
  /-- VOR: Per-lane bitwise OR. (R145) -/
  | vor (h : StripHead) (o : VRForm)
  /-- VXOR: Per-lane bitwise XOR. (R145) -/
  | vxor (h : StripHead) (o : VRForm)
  /-- VNOT: Per-lane bitwise NOT. (R145) -/
  | vnot (h : StripHead) (o : VRForm)
  /-- VSHL: Per-element shift left. (R145) -/
  | vshl (h : StripHead) (o : VRForm)
  /-- VSHR: Per-element logical shift right. (R145) -/
  | vshr (h : StripHead) (o : VRForm)
  /-- VSRA: Per-element arithmetic shift right. (R145) -/
  | vsra (h : StripHead) (o : VRForm)
  /-- VPOPC: Per-element population count. (R145) -/
  | vpopc (h : StripHead) (o : VRForm)
  /-- VCLZ: Per-element leading-zero count. (R145) -/
  | vclz (h : StripHead) (o : VRForm)
  /-- VMULH: Per-element high half of the product. (R145) -/
  | vmulh (h : StripHead) (o : VRForm)
  /-- VEXP: Per-lane exponential. (R146) -/
  | vexp (h : StripHead) (o : VRForm)
  /-- VEXP2: Per-lane base-2 exponential. (R146) -/
  | vexp2 (h : StripHead) (o : VRForm)
  /-- VLOG: Per-lane natural logarithm. (R146) -/
  | vlog (h : StripHead) (o : VRForm)
  /-- VLOG2: Per-lane base-2 logarithm. (R146) -/
  | vlog2 (h : StripHead) (o : VRForm)
  /-- VTANH: Per-lane hyperbolic tangent. (R146) -/
  | vtanh (h : StripHead) (o : VRForm)
  /-- VSIGM: Per-lane sigmoid. (R146) -/
  | vsigm (h : StripHead) (o : VRForm)
  /-- VSILU: Per-lane SiLU. (R146) -/
  | vsilu (h : StripHead) (o : VRForm)
  /-- VGELU: Per-lane GELU. (R146) -/
  | vgelu (h : StripHead) (o : VRForm)
  /-- VCMP: Writes a mask from a per-lane comparison. (R147) -/
  | vcmp (h : StripHead) (o : VRForm)
  /-- VSEL: Selects lanes by a mask. (R148) -/
  | vsel (h : StripHead) (o : VRForm)
  /-- VMAND: Mask AND. (R149) -/
  | vmand (h : StripHead) (o : VRForm)
  /-- VMOR: Mask OR. (R149) -/
  | vmor (h : StripHead) (o : VRForm)
  /-- VMXOR: Mask XOR. (R149) -/
  | vmxor (h : StripHead) (o : VRForm)
  /-- VMNOT: Mask NOT. (R149) -/
  | vmnot (h : StripHead) (o : VRForm)
  /-- VMPOP: Writes the population count of a mask into every active lane. (R149) -/
  | vmpop (h : StripHead) (o : VRForm)
  /-- VTHC: Counts lanes per group at or above a key threshold. (R151) -/
  | vthc (h : StripHead) (o : VRForm)
  /-- VTHS: Selects exactly k lanes per group by key threshold. (R152) -/
  | vths (h : StripHead) (o : VRForm)
  /-- VCVT: Converts each element between types of equal count. (R154) -/
  | vcvt (h : StripHead) (o : VRForm)
  /-- VPACK: Narrows two 32-bit sources into packed elements. (R155) -/
  | vpack (h : StripHead) (o : VRForm)
  /-- VUNPK: Widens one element or half exactly. (R156) -/
  | vunpk (h : StripHead) (o : VRForm)
  /-- VQNT: Quantises a scaled value into one destination element. (R157) -/
  | vqnt (h : StripHead) (o : VRForm)
  /-- VSCL: Scales by a power of two. (R158) -/
  | vscl (h : StripHead) (o : VRForm)
  /-- VRSUM: Sums across lanes by the fixed tree. (R159) -/
  | vrsum (h : StripHead) (o : VRForm)
  /-- VRMAX: Maximum across lanes by the fixed tree. (R159) -/
  | vrmax (h : StripHead) (o : VRForm)
  /-- VRMIN: Minimum across lanes by the fixed tree. (R159) -/
  | vrmin (h : StripHead) (o : VRForm)
  /-- VRARG: Writes the lane index of the maximum or minimum. (R159) -/
  | vrarg (h : StripHead) (o : VRForm)
  /-- VSCAN: Inclusive or exclusive running sum over lanes. (R160) -/
  | vscan (h : StripHead) (o : VRForm)
  /-- VPERM: Permutes lanes by an index vector. (R161) -/
  | vperm (h : StripHead) (o : VRForm)
  /-- VBCAST: Broadcasts each group's head lane. (R162) -/
  | vbcast (h : StripHead) (o : VRForm)
  /-- VROT: Rotates lanes by an immediate. (R163) -/
  | vrot (h : StripHead) (o : VIForm)
  /-- VIOTA: Writes an arithmetic sequence over lanes. (R166) -/
  | viota (h : StripHead) (o : VIForm)
  /-- VMOV: Copies lanes, popping or pushing FIFO entries through ports. (R164) -/
  | vmov (h : StripHead) (o : VRForm)
  /-- VLI: Writes a constant into every active lane. (R165) -/
  | vli (h : StripHead) (o : VIForm) (ext : Option (BitVec 32))
  /-- VGET: Writes one lane's value into a mailbox. (R167) -/
  | vget (h : StripHead) (o : VIForm)
  /-- VPUT: Writes a mailbox value into one or all active lanes. (R168) -/
  | vput (h : StripHead) (o : VIForm)
  /-- VBIND: Binds a stream port to a data FIFO. (R269) -/
  | vbind (h : StripHead) (o : VIForm)
  /-- WST: Writes FIFO rows to scratchpad with format conversion. (R227) -/
  | wst (h : StripHead) (o : AXForm)
  /-- WACC: Adds FIFO rows into scratchpad rows. (R227) -/
  | wacc (h : StripHead) (o : AXForm)
  /-- WSCAT: Scatters FIFO elements by an index entry. (R227) -/
  | wscat (h : StripHead) (o : AXForm)
  /-- WDSC: Loads a writeback descriptor and resets its cursor. (R227) -/
  | wdsc (h : StripHead) (o : AXForm)
  /-- SIDLE: Waits a number of cycles. (R286) -/
  | sidle (h : StripHead) (o : CMForm)
  /-- SEND: Ends a strip segment once earlier work has completed. (R287) -/
  | send (h : StripHead) (o : CMForm)
  /-- SMARK: Records a mark event in the trace buffer. (R288) -/
  | smark (h : StripHead) (o : CMForm)
  /-- SFLG_OR: ORs flags into the pending flag set. (R384) -/
  | sflgOr (h : StripHead) (o : CMForm)
  /-- SFLG_GET: Copies the pending flag set into a strip mailbox. (R384) -/
  | sflgGet (h : StripHead) (o : CMForm)
  /-- SFLG_CLR: Clears flags in the pending flag set. (R384) -/
  | sflgClr (h : StripHead) (o : CMForm)
  /-- MICRO_STEP: One micro-step of a multi-cycle instruction begins once its inputs and room are present. (R55) -/
  | microStep (u e : Nat)
  /-- PIPELINED_RESULT_WRITE: A pipelined control-core result lands in its register after its latency. (R100) -/
  | pipelinedResultWrite (u : Nat) (c : Bool) (r : CoreDest) (v : Word) (fl : BitVec 7) (sat : Nat)
  /-- VECTOR_RESULT_LANDS: A vector result is written and its port entry pushed after its latency. (R137) -/
  | vectorResultLands (u : Nat) (c : Bool) (r : VectorDest) (on : LaneMask) (v : Row) (bad : BitVec 96) (fl : BitVec 7) (sat : Nat)
  /-- ACCUMULATOR_ENTRY: An MMA-class result enters the accumulator 10 cy after its micro-step. (R175) -/
  | accumulatorEntry (u row : Nat) (v : Row)
  /-- WLOAD_ENTRY: The weight-load path pops one FIFO entry into the latch slot. (R176) -/
  | wloadEntry (u : Nat)
  /-- LATCH_VALID: A latch slot's tag becomes VALID two cycles after the last entry. (R176) -/
  | latchValid (u w : Nat)
  /-- LATCH_RESTORE_COMPLETE: Latch slots finish restoring after a context switch and REST clears. (R201) -/
  | latchRestoreComplete (u : Nat)
  /-- ROW_BUFFER_DRAIN: A bank's row buffer drains 64 B into the array in a free cycle. (R206) -/
  | rowBufferDrain (u bank : Nat)
  /-- ECC_WRITEBACK: A corrected word is written back in the bank's next free cycle. (R219) -/
  | eccWriteback (pa : Nat)
  /-- ASYNC_TRAP_DELIVERY: An async trap is delivered to the control core at its next completion or wait. (R393) -/
  | asyncTrapDelivery (u : Nat) (c : Bool)
  /-- BOUNDARY_CONDITIONS_MET: The boundary unit holds every context's conditions and a linked job sends its barrier flit. (R397) -/
  | boundaryConditionsMet (j : Nat)
  /-- MINIMUM_PAIR_EXPIRY: The 3,400-cy minimum superstep pair elapses, releasing a held boundary. (R27) -/
  | minimumPairExpiry (j : Nat)
  /-- TIMED_BOUNDARY_TIME: A timed boundary's scheduled device time is reached. (R34) -/
  | timedBoundaryTime (j : Nat)
  /-- BOUNDARY_SEQUENCE: Banks rotate, flags commit, the phase increments and the start pulse leaves. (R25) -/
  | boundarySequence (j : Nat)
  /-- START_PULSE_ARRIVAL: The start pulse reaches a tile, starting its local phase and releasing PHEND and waiting gangs. (R26) -/
  | startPulseArrival (j u : Nat)
  /-- STRAGGLER_FAULT: STRAGGLE cycles pass without the boundary completing and the job freezes. (R28) -/
  | stragglerFault (j : Nat)
  /-- DEADLINE_FAULT: The deadline counter exceeds the budget before arrival. (R33) -/
  | deadlineFault (u : Nat) (c : Bool)
  /-- HANG_FAULT: An engine's stall count reaches STALLTO and the hang fault is raised. (R289) -/
  | hangFault (u : Nat) (c : Bool) (e : Nat)
  /-- WAVE_REACHES_TILE: The freeze wave reaches a tile, which stops issuing. (R400) -/
  | waveReachesTile (j u : Nat)
  /-- CAUSE_SETTLE: 4 us after LTIME the winner is final, SETTLED is set and OFFSETs are computed. (R404) -/
  | causeSettle (j : Nat)
  /-- TILE_RELEASE: A frozen tile issues again on its release cycle R + OFFSET. (R405) -/
  | tileRelease (j u : Nat)
  /-- STEP_REFREEZE: A job-step's n cycles end and each tile freezes again. (R406) -/
  | stepRefreeze (j u : Nat)
  /-- STEP_TIMEOUT: A stepped engine that cannot proceed within 2^16 cy ends the step. (R406) -/
  | stepTimeout (u e : Nat)
  /-- WRITE: A data packet arrives and lands at its slot offset after checks. (R293) -/
  | write (p : Packet)
  /-- WRITEM: A byte-masked data packet arrives and lands its valid bytes. (R293) -/
  | writem (p : Packet)
  /-- READ: A read request arrives and is served through a landing slot. (R441) -/
  | read (p : Packet)
  /-- RREPLY: Read data arrives and lands at its stream position. (R293) -/
  | rreply (p : Packet)
  /-- CREAD: A combined read request arrives at a home die's service unit. (R306) -/
  | cread (p : Packet)
  /-- CREPLY: Combined read data arrives and its values land. (R306) -/
  | creply (p : Packet)
  /-- RCOUNT: A routing-counter fetch-and-increment arrives at a route unit. (R377) -/
  | rcount (p : Packet)
  /-- RSLOT: An RCOUNT reply arrives and the dispatched row is sent. (R308) -/
  | rslot (p : Packet)
  /-- ATOM: Atomic records arrive and are performed at the home. (R251) -/
  | atom (p : Packet)
  /-- ARES: Atomic results arrive and land in the result area. (R252) -/
  | ares (p : Packet)
  /-- RED: Reduction contributions or flushes arrive on the barrier plane. (R255) -/
  | red (p : Packet)
  /-- REDUCTION_DELIVERY: A merged reduction value is applied at HOME as one atomic. (R255) -/
  | reductionDelivery (w : Nat)
  /-- ACK: A cumulative acknowledgement arrives and frees retransmit entries. (R296) -/
  | ack (p : Packet)
  /-- NACK: A refusal arrives and schedules a resend after retry-after. (R298) -/
  | nack (p : Packet)
  /-- PROBE: A circuit probe arrives at a hop and reserves the next free alternative. (R316) -/
  | probe (p : Packet)
  /-- BACK: A probe backtrack arrives; the hop releases and tries its next alternative. (R316) -/
  | back (p : Packet)
  /-- READY: Probe success returns, confirming reservations and binding the circuit. (R316) -/
  | ready (p : Packet)
  /-- FAIL: Probe failure returns, releasing every reservation. (R316) -/
  | fail (p : Packet)
  /-- CMARK: The end-of-run mark is delivered once its beats have landed. (R317) -/
  | cmark (p : Packet)
  /-- CREPORT: The receiver's committed group count arrives and the sender resends from it. (R322) -/
  | creport (p : Packet)
  /-- FAULT: A remote fault report arrives and is raised at the sending element. (R298) -/
  | fault (p : Packet)
  /-- FREE: A circuit release passes, freeing each reservation. (R322) -/
  | free (p : Packet)
  /-- BARRIER: The barrier release returns and the module runs its boundary sequence. (R34) -/
  | barrier (p : Packet)
  /-- WHISTLE_FREEZE: A freeze whistle packet arrives and starts the module's freeze wave. (R399) -/
  | whistleFreeze (p : Packet)
  /-- WHISTLE_RESUME: A resume whistle packet arrives and schedules release. (R405) -/
  | whistleResume (p : Packet)
  /-- WHISTLE_JOB_STEP: A job-step whistle packet arrives and schedules a stepped release. (R406) -/
  | whistleJobStep (p : Packet)
  /-- CIRCUIT_BEAT: A circuit beat arrives and is written or held before commit. (R313) -/
  | circuitBeat (u : Nat) (cid : BitVec 26) (n : Nat) (v : BitVec 512) (bad : BitVec 8) (late : Bool)
  /-- CIRCUIT_TEARDOWN: A circuit stops at a beat boundary, sends FREE and a CMARK, and awaits CREPORT. (R322) -/
  | circuitTeardown (u : Nat) (src : CircuitSource) (cause : Nat)
  /-- LEASE_EXPIRY: A circuit lease reaches zero and the circuit is torn. (R320) -/
  | leaseExpiry (u : Nat) (c : Bool) (h : Nat)
  /-- METER_IDLE_EXPIRY: A CIRCUIT meter entry sees no packet for FMIDLE cycles and tears down. (R315) -/
  | meterIdleExpiry (u k : Nat)
  /-- HOLDOFF_EXPIRY: A HOLDOFF timer reaches zero and the entry returns to COUNTING. (R315) -/
  | holdoffExpiry (u k : Nat)
  /-- METER_DECAY: On each FMDECAY multiple, meter counts halve and empty entries free. (R314) -/
  | meterDecay (u : Nat)
  /-- METER_PROBE_TIMEOUT: A meter probe has no answer for 2^16 cy and the entry goes to HOLDOFF. (R315) -/
  | meterProbeTimeout (u k : Nat)
  /-- HANDLE_PROBE_TIMEOUT: A COPEN probe has no answer for 2^16 cy and the handle goes FAILED. (R319) -/
  | handleProbeTimeout (u : Nat) (c : Bool) (h : Nat)
  /-- RESERVATION_TIMEOUT: A TENTATIVE reservation passes 2^16 cy without READY and frees. (R363) -/
  | reservationTimeout (entry : Nat)
  /-- RETRANSMIT_TIMEOUT: A stream with no ACK progress for 2^16 cy resends its packets. (R296) -/
  | retransmitTimeout (u ddev dtile label : Nat)
  /-- ACK_TIMER: 256 cy after an unacknowledged delivery the receiver sends an ACK. (R296) -/
  | ackTimer (u sdev stile label : Nat)
  /-- NACK_RETRY: A NACKed packet's retry-after expires and it is resent. (R305) -/
  | nackRetry (u ddev dtile label seq : Nat)
  /-- HOST_ACCESS_TIMEOUT: A host access not completed within 10 ms raises a remote fault. (R420) -/
  | hostAccessTimeout (u : Nat) (c : Bool) (elem : Nat)
  /-- STREAM_GRANULE: The memory port issues one granule request for a background stream. (R278) -/
  | streamGranule (u : Nat)
  /-- STREAM_COMPLETE: A stream's last byte is durable, its counter increments and its entry frees. (R278) -/
  | streamComplete (u : Nat) (c : Bool) (k : Nat)
  /-- TIMELINE_INCREMENT: A naming instruction's last byte is durable and its counter gains one in issue order. (R245) -/
  | timelineIncrement (u : Nat) (c : Bool) (k : Nat)
  /-- PAGE_WALK_COMPLETE: A die walker finishes a walk and fills the TLB or faults. (R349) -/
  | pageWalkComplete (u : Nat) (c : Bool) (w : WalkPurpose)
  /-- TLBINV_MARKERS_COMPLETE: Every command ahead of a TLBINV's markers completes; the shadow frees and the counter signals. (R352) -/
  | tlbinvMarkersComplete (shadow : Nat)
  /-- LAUNCH_LOAD_COMPLETE: A launched gang's lines finish loading and it waits for a start pulse. (R337) -/
  | launchLoadComplete (p : Nat)
  /-- CTXSAVE_COMPLETE: A context save becomes durable, freeing contexts and signalling. (R339) -/
  | ctxsaveComplete (p : Nat)
  /-- CTXLOAD_COMPLETE: A restored gang is reloaded and comes back parked. (R340) -/
  | ctxloadComplete (p : Nat)
  /-- MONITOR_WAKE: The armed line is invalidated and MWAIT wakes with status 0. (R258) -/
  | monitorWake (u : Nat)
  /-- MWAIT_TIMEOUT: MWAIT's cycle limit passes and it wakes with status 1. (R258) -/
  | mwaitTimeout (u : Nat)
  /-- MONITOR_LOSS: The monitored copy is lost and MWAIT wakes with status 3. (R258) -/
  | monitorLoss (u : Nat)
  /-- SWEEPER_VISIT: The stamp sweeper visits a line and clears an old stamp. (R240) -/
  | sweeperVisit (line : Nat)
  /-- HOST_APERTURE_ACCESS: A host access through the device aperture reaches HBM, windows or control space. (R421) -/
  | hostApertureAccess (a : ByteAccess)
  /-- LINK_TRAINED: A link's training completes and digests are compared. (R323) -/
  | linkTrained (link : Nat) (ldig rdig : Word) (lat : Nat)
  /-- QUARANTINE_RETRAIN: 1 ms after quarantine the link retrains, or goes DOWN after three tries. (R323) -/
  | quarantineRetrain (link : Nat)
  /-- LINK_FAILURE: A link leaves UP, tearing circuits and freeing its reservations. (R363) -/
  | linkFailure (link : Nat)
  /-- RETRAIN_WRITE: Writing RETRAIN restarts a link's training. (R324) -/
  | retrainWrite (agent : Nat) (link : Nat)
  /-- NUTON_RETRAIN: The host link retrains, waking monitors and writing a notice. (R420) -/
  | nutonRetrain (width : Nat)
  /-- SYNC_INTERVAL: The grandmaster's sync interval expires and it sends Sync. (R368) -/
  | syncInterval
  /-- SYNC: A Sync message arrives and the servo updates its offset. (R369) -/
  | sync (m : TimeMessage)
  /-- FOLLOW_UP: A Follow_Up message arrives. (R369) -/
  | followUp (m : TimeMessage)
  /-- DELAY_REQ: A Delay_Req message arrives at the grandmaster. (R369) -/
  | delayReq (m : TimeMessage)
  /-- DELAY_RESP: A Delay_Resp message arrives. (R369) -/
  | delayResp (m : TimeMessage)
  /-- ANNOUNCE: An Announce message arrives and is ignored. (R369) -/
  | announce (m : TimeMessage)
  /-- AUX_POWER_ON: The auxiliary supply comes up and start-up begins at ROM. (R413) -/
  | auxPowerOn (images : List SignedImage) (helper : Bool)
  /-- STARTUP_STAGE_COMPLETE: A start-up stage completes and the next begins, or start-up fails. (R413) -/
  | startupStageComplete (r : StageResult)
  /-- MODULE_RESET: The module is reset and start-up restarts. (R413) -/
  | moduleReset
  /-- TEMPERATURE_WARNING: A sensor reaches the warning limit and a notice and PLDM event are sent. (R426) -/
  | temperatureWarning (die sensor reading : Nat)
  /-- CRITICAL_TEMPERATURE: A sensor stays at the critical limit for 1 ms and every job is whistled. (R426) -/
  | criticalTemperature (die sensor : Nat)
  /-- RAIL_REMOVAL: 10 ms after a critical whistle the main rails are removed and FAILED set. (R426) -/
  | railRemoval
  /-- GET_VERSION: SPDM version request. (R419) -/
  | getVersion (req : List Byte)
  /-- GET_CAPABILITIES: SPDM capabilities request. (R419) -/
  | getCapabilities (req : List Byte)
  /-- NEGOTIATE_ALGORITHMS: SPDM algorithm negotiation. (R419) -/
  | negotiateAlgorithms (req : List Byte)
  /-- GET_DIGESTS: SPDM certificate digest request. (R419) -/
  | getDigests (req : List Byte)
  /-- GET_CERTIFICATE: SPDM certificate chain request for slot 0. (R419) -/
  | getCertificate (req : List Byte)
  /-- CHALLENGE: SPDM challenge signed by the alias key. (R419) -/
  | challenge (req : List Byte)
  /-- GET_MEASUREMENTS: SPDM measurement request. (R419) -/
  | getMeasurements (req : List Byte)
  /-- KEY_EXCHANGE: SPDM session key exchange. (R419) -/
  | keyExchange (req : List Byte)
  /-- FINISH: SPDM session finish. (R419) -/
  | finish (req : List Byte)
  /-- END_SESSION: SPDM session end. (R419) -/
  | endSession (req : List Byte)
  /-- SPDM_UNSUPPORTED_REQUEST: An unsupported SPDM request receives ERROR UnsupportedRequest. (R419) -/
  | spdmUnsupportedRequest (req : List Byte)
  /-- PLDM_GET_SENSOR: A PLDM sensor reading request. (R423) -/
  | pldmGetSensor (sensor : Nat)
  /-- DEBUG_WINDOW_ACCESS: A debug message reads or writes windows or control space. (R422) -/
  | debugWindowAccess (a : ByteAccess)
  /-- DEBUG_WHISTLE: A debug message originates a whistle with cause 0x22. (R422) -/
  | debugWhistle (job : BitVec 32)
  /-- DEBUG_RELEASE: A debug message releases a frozen job as RESUME does. (R422) -/
  | debugRelease (job : BitVec 32) (t : Word)
  /-- DEBUG_STEP: A debug message steps a frozen job or tile as STEP does. (R422) -/
  | debugStep (kind : Nat) (a b : Word)
  /-- DEBUG_HALT_STEWARD: A debug message halts a steward. (R422) -/
  | debugHaltSteward (k : Nat)
  /-- DEBUG_RESTART_STEWARD: A debug message restarts a halted steward. (R422) -/
  | debugRestartSteward (k : Nat)
  /-- DEBUG_RESET: A debug message resets the module. (R422) -/
  | debugReset
  /-- BARRIER_PLANE_WRITE: A steward write of BPLANE, accepted only while the job is frozen. (R36) -/
  | barrierPlaneWrite (agent j : Nat) (v : Word)
  /-- RFQ_SERVED: Writing SERVED marks a receive fault served. (R303) -/
  | rfqServed (agent u : Nat) (c : Bool) (k : Nat)
  /-- RFQ_DEAD: Writing DEAD declares a receive fault unservable. (R303) -/
  | rfqDead (agent u : Nat) (c : Bool) (k : Nat)
  /-- STREAM_RETRY: Writing RETRY restarts a FAULTED stream from its element. (R282) -/
  | streamRetry (agent u : Nat) (c : Bool) (k : Nat)
  /-- STRIP_STATUS_WRITE: A debugger rewrite of a strip's POS, UST or EL while quiet. (R265) -/
  | stripStatusWrite (agent u : Nat) (c : Bool) (e : Nat) (v : Word)
  /-- TIMELINE_WINDOW_WRITE: A window write to a timeline counter, ignored if it would lower it. (R373) -/
  | timelineWindowWrite (agent u : Nat) (c : Bool) (k : Nat) (v : Word)
  /-- NOTICE_LINE_SET: Setting a die's notice-line address resets its notice COUNT. (R304) -/
  | noticeLineSet (agent die : Nat) (v : Word)
  /-- ERROR_LOG_CLEAR: Writing 1 to VALID clears an error log, and for array 6 the hang record. (R221) -/
  | errorLogClear (agent u a : Nat)
  /-- TRACE_CONTROL_WRITE: A window write of trace word 0x00 clears STOP, WRAP, DROP, HEAD and TIDX. (R409) -/
  | traceControlWrite (agent u : Nat) (v : Word)
  /-- MONITOR_CONFIG_WRITE: A write of a health monitor's configuration clears its bins. (R385) -/
  | monitorConfigWrite (agent : Nat) (die : Bool) (inst k : Nat) (v : Word)
  /-- ROUTE_UNIT_JOB_WRITE: Writing a route unit's JOB clears its counters, snapshots and SEQ. (R377) -/
  | routeUnitJobWrite (agent die : Nat) (v : Word)
  /-- WINDOW_WRITE: A write to a window or control register with no behaviour of its own, accepted or refused by permission. (R218) -/
  | windowWrite (agent : Nat) (a : ByteAccess)
  /-- CIRCUIT_DEPARTURE: An XCIR's first beat departs on local phase cycle WORD at the circuit's next slot, and later beats on each following reserved slot, checking a late issue or ungranted granule as deviation. (R321) -/
  | circuitDeparture (u run : Nat)
  /-- RESERVED_TYPE_PACKET: A packet with a reserved TYPE or DTILE, or a LEN above 16, arrives and is dropped, counted in DROP of its incoming link. (R292) -/
  | reservedTypePacket (link : Nat) (p : Packet)
  /-- HEALTH_MONITOR_SAMPLE: A die monitor with a periodic source takes its sample, the temperature every 8,192 cy or the supply droop over each 1,024 cy, updating bins, MIN, MAX and COUNT. (R385) -/
  | healthMonitorSample (die : Bool) (inst src sel value : Nat)
deriving DecidableEq, Repr

/-- A word of the machine's own state in which an uncorrectable error can be met outside the windows, or without an instruction's
reading it: of a job's boundary unit, of an engine of a context (position, queue, micro-state, held entries, counters), a page of a
contention cache, a steward's line monitor, a meter entry, a reservation, a placement entry, a shadow, an entry of a TLB or of a
die's walk cache, a word of the route or group table (its control-space offset), a route unit, a monitor of a die or tile, a cause
register, a key, the module status. -/
inductive Protected where
  | boundaryUnit (j : Nat)
  | context (u : Nat) (c : Bool) (e : Nat)
  | contention (page : Nat)
  | lineMonitor (u : Nat)
  | meter (u k : Nat)
  | reservation (entry : Nat)
  | placement (p : Nat)
  | shadow (k : Nat)
  | tlb (u k : Nat)
  | walkCache (d k : Nat)
  | table (off : Nat)
  | routeUnit (d : Nat)
  | monitor (die : Bool) (inst k : Nat)
  | cause (j : Nat)
  | securityKey
  | status
deriving DecidableEq, Repr

/-- An input that is no row of the opcode table: a store of the host to its own memory, a cache action of the host on a line, the
end of a gang's members on the other modules, bits inverted in a stored word or in a word of the machine's own state (log
entries 26, 36, 55). -/
inductive Outside where
  | hostStore (addr n : Nat) (v : BitVec 512)
  | hostCache (addr : Nat)
  | membersEnded (p : Nat)
  | arrayError (pa : Nat) (mask : Word) (check : Bool)
  | stateError (w : Protected)
deriving DecidableEq, Repr

/-- An event that is due now or later, with what it brings: the rows of spec/opcode_table.json from MICRO_STEP on. It is a
type of its own because the compiled form of `Instr` cannot hold a constructor of so high a number (log entry 1). -/
inductive Event where
  | microStep (u e : Nat)
  | pipelinedResultWrite (u : Nat) (c : Bool) (r : CoreDest) (v : Word) (fl : BitVec 7) (sat : Nat)
  | vectorResultLands (u : Nat) (c : Bool) (r : VectorDest) (on : LaneMask) (v : Row) (bad : BitVec 96) (fl : BitVec 7) (sat : Nat)
  | accumulatorEntry (u row : Nat) (v : Row)
  | wloadEntry (u : Nat)
  | latchValid (u w : Nat)
  | latchRestoreComplete (u : Nat)
  | rowBufferDrain (u bank : Nat)
  | eccWriteback (pa : Nat)
  | asyncTrapDelivery (u : Nat) (c : Bool)
  | boundaryConditionsMet (j : Nat)
  | minimumPairExpiry (j : Nat)
  | timedBoundaryTime (j : Nat)
  | boundarySequence (j : Nat)
  | startPulseArrival (j u : Nat)
  | stragglerFault (j : Nat)
  | deadlineFault (u : Nat) (c : Bool)
  | hangFault (u : Nat) (c : Bool) (e : Nat)
  | waveReachesTile (j u : Nat)
  | causeSettle (j : Nat)
  | tileRelease (j u : Nat)
  | stepRefreeze (j u : Nat)
  | stepTimeout (u e : Nat)
  | write (p : Packet)
  | writem (p : Packet)
  | read (p : Packet)
  | rreply (p : Packet)
  | cread (p : Packet)
  | creply (p : Packet)
  | rcount (p : Packet)
  | rslot (p : Packet)
  | atom (p : Packet)
  | ares (p : Packet)
  | red (p : Packet)
  | reductionDelivery (w : Nat)
  | ack (p : Packet)
  | nack (p : Packet)
  | probe (p : Packet)
  | back (p : Packet)
  | ready (p : Packet)
  | fail (p : Packet)
  | cmark (p : Packet)
  | creport (p : Packet)
  | fault (p : Packet)
  | free (p : Packet)
  | barrier (p : Packet)
  | whistleFreeze (p : Packet)
  | whistleResume (p : Packet)
  | whistleJobStep (p : Packet)
  | circuitBeat (u : Nat) (cid : BitVec 26) (n : Nat) (v : BitVec 512) (bad : BitVec 8) (late : Bool)
  | circuitTeardown (u : Nat) (src : CircuitSource) (cause : Nat)
  | leaseExpiry (u : Nat) (c : Bool) (h : Nat)
  | meterIdleExpiry (u k : Nat)
  | holdoffExpiry (u k : Nat)
  | meterDecay (u : Nat)
  | meterProbeTimeout (u k : Nat)
  | handleProbeTimeout (u : Nat) (c : Bool) (h : Nat)
  | reservationTimeout (entry : Nat)
  | retransmitTimeout (u ddev dtile label : Nat)
  | ackTimer (u sdev stile label : Nat)
  | nackRetry (u ddev dtile label seq : Nat)
  | hostAccessTimeout (u : Nat) (c : Bool) (elem : Nat)
  | streamGranule (u : Nat)
  | streamComplete (u : Nat) (c : Bool) (k : Nat)
  | timelineIncrement (u : Nat) (c : Bool) (k : Nat)
  | pageWalkComplete (u : Nat) (c : Bool) (w : WalkPurpose)
  | tlbinvMarkersComplete (shadow : Nat)
  | launchLoadComplete (p : Nat)
  | ctxsaveComplete (p : Nat)
  | ctxloadComplete (p : Nat)
  | monitorWake (u : Nat)
  | mwaitTimeout (u : Nat)
  | monitorLoss (u : Nat)
  | sweeperVisit (line : Nat)
  | hostApertureAccess (a : ByteAccess)
  | linkTrained (link : Nat) (ldig rdig : Word) (lat : Nat)
  | quarantineRetrain (link : Nat)
  | linkFailure (link : Nat)
  | retrainWrite (agent : Nat) (link : Nat)
  | nutonRetrain (width : Nat)
  | syncInterval
  | sync (m : TimeMessage)
  | followUp (m : TimeMessage)
  | delayReq (m : TimeMessage)
  | delayResp (m : TimeMessage)
  | announce (m : TimeMessage)
  | auxPowerOn (images : List SignedImage) (helper : Bool)
  | startupStageComplete (r : StageResult)
  | moduleReset
  | temperatureWarning (die sensor reading : Nat)
  | criticalTemperature (die sensor : Nat)
  | railRemoval
  | getVersion (req : List Byte)
  | getCapabilities (req : List Byte)
  | negotiateAlgorithms (req : List Byte)
  | getDigests (req : List Byte)
  | getCertificate (req : List Byte)
  | challenge (req : List Byte)
  | getMeasurements (req : List Byte)
  | keyExchange (req : List Byte)
  | finish (req : List Byte)
  | endSession (req : List Byte)
  | spdmUnsupportedRequest (req : List Byte)
  | pldmGetSensor (sensor : Nat)
  | debugWindowAccess (a : ByteAccess)
  | debugWhistle (job : BitVec 32)
  | debugRelease (job : BitVec 32) (t : Word)
  | debugStep (kind : Nat) (a b : Word)
  | debugHaltSteward (k : Nat)
  | debugRestartSteward (k : Nat)
  | debugReset
  | barrierPlaneWrite (agent j : Nat) (v : Word)
  | rfqServed (agent u : Nat) (c : Bool) (k : Nat)
  | rfqDead (agent u : Nat) (c : Bool) (k : Nat)
  | streamRetry (agent u : Nat) (c : Bool) (k : Nat)
  | stripStatusWrite (agent u : Nat) (c : Bool) (e : Nat) (v : Word)
  | timelineWindowWrite (agent u : Nat) (c : Bool) (k : Nat) (v : Word)
  | noticeLineSet (agent die : Nat) (v : Word)
  | errorLogClear (agent u a : Nat)
  | traceControlWrite (agent u : Nat) (v : Word)
  | monitorConfigWrite (agent : Nat) (die : Bool) (inst k : Nat) (v : Word)
  | routeUnitJobWrite (agent die : Nat) (v : Word)
  | windowWrite (agent : Nat) (a : ByteAccess)
  | circuitDeparture (u run : Nat)
  | reservedTypePacket (link : Nat) (p : Packet)
  | healthMonitorSample (die : Bool) (inst src sel value : Nat)
  | outside (o : Outside)
deriving DecidableEq, Repr

end Sys2Proof
end

