-- ==== Sys2Proof/Decode.lean ====
section
/-!
DEFINITION. The encodings of spec/02 and the operand rules of the entries: slots to instructions (`decodeSlot`, total,
refusing by the fates of R63 in the order of R64) and instructions to slots (`encode`). `fate` says which reserved field
or operand, if any, an instruction's own fields hold.
-/
namespace Sys2Proof

/-- The fates of an encoding that is no instruction (02 R63): illegal with its ctl.info0, privileged, a nonzero reserved
field (ctl.info0 = 6), a reserved or unpaired operand value (ctl.info0 = 7). -/
inductive Fate where
  | illegal (info0 : Nat)
  | privileged
  | field
  | operand
deriving DecidableEq, Repr

/-- What a slot reads as. -/
inductive Decoded where
  | instr (i : Instr)
  | bad (f : Fate)
deriving DecidableEq, Repr

/-- The cause code of a fate (02 R63). -/
def Fate.cause : Fate → Nat
  | .illegal _ => 0x01
  | .field => 0x02
  | .operand => 0x02
  | .privileged => 0x03

/-- ctl.info0 of a fate (02 R63). -/
def Fate.info0 : Fate → Nat
  | .illegal n => n
  | .field => 6
  | .operand => 7
  | .privileged => 0

/-! ### Slots to fields and back -/

/-- The opcode field [59:52] (02 R50, R53). -/
def Slot.op (w : Slot) : BitVec 8 := w.extractLsb' 52 8

/-- The control-core fields of a slot (02 R50). -/
def unpackCore (w : Slot) : CoreForm where
  g := w.getLsbD 51
  n := w.getLsbD 50
  p := w.extractLsb' 46 4
  d := w.extractLsb' 41 5
  a := w.extractLsb' 36 5
  b := w.extractLsb' 31 5
  la := w.getLsbD 30
  lb := w.getLsbD 29
  x := w.extractLsb' 24 5
  imm := w.extractLsb' 0 24

/-- The slot of a control-core instruction (02 R50). -/
def packCore (op : BitVec 8) (o : CoreForm) : Slot :=
  op ++ BitVec.ofBool o.g ++ BitVec.ofBool o.n ++ o.p ++ o.d ++ o.a ++ o.b ++ BitVec.ofBool o.la ++ BitVec.ofBool o.lb
    ++ o.x ++ o.imm

/-- The strip header of a slot (02 R53). -/
def unpackHead (w : Slot) : StripHead where
  idle := w.extractLsb' 46 6
  pl := w.getLsbD 45
  pr := w.getLsbD 44
  hl := w.getLsbD 43
  hr := w.getLsbD 42
  gn := w.getLsbD 41
  gi := w.extractLsb' 38 3

/-- Opcode and header above an operand field (02 R53). -/
def packHead (op : BitVec 8) (h : StripHead) (fields : BitVec 38) : Slot :=
  op ++ h.idle ++ BitVec.ofBool h.pl ++ BitVec.ofBool h.pr ++ BitVec.ofBool h.hl ++ BitVec.ofBool h.hr
    ++ BitVec.ofBool h.gn ++ h.gi ++ fields

/-- The VR fields of a slot (02 R57). -/
def unpackVR (w : Slot) : VRForm where
  d := w.extractLsb' 32 6
  a := w.extractLsb' 26 6
  b := w.extractLsb' 20 6
  c := w.extractLsb' 14 6
  la := w.getLsbD 13
  lb := w.getLsbD 12
  lc := w.getLsbD 11
  m := w.extractLsb' 8 3
  t := w.extractLsb' 4 4
  f := w.extractLsb' 0 4

/-- The slot of a VR instruction (02 R57). -/
def packVR (op : BitVec 8) (h : StripHead) (o : VRForm) : Slot :=
  packHead op h (o.d ++ o.a ++ o.b ++ o.c ++ BitVec.ofBool o.la ++ BitVec.ofBool o.lb ++ BitVec.ofBool o.lc ++ o.m
    ++ o.t ++ o.f)

/-- The VI fields of a slot (02 R57). -/
def unpackVI (w : Slot) : VIForm where
  d := w.extractLsb' 32 6
  a := w.extractLsb' 26 6
  la := w.getLsbD 25
  m := w.extractLsb' 22 3
  t := w.extractLsb' 18 4
  imm := w.extractLsb' 0 18

/-- The slot of a VI instruction (02 R57). -/
def packVI (op : BitVec 8) (h : StripHead) (o : VIForm) : Slot :=
  packHead op h (o.d ++ o.a ++ BitVec.ofBool o.la ++ o.m ++ o.t ++ o.imm)

/-- The MX fields of a slot (02 R58). -/
def unpackMX (w : Slot) : MXForm where
  row := w.extractLsb' 31 7
  cnt := w.extractLsb' 24 7
  ws := w.getLsbD 23
  ta := w.extractLsb' 19 4
  tb := w.extractLsb' 15 4
  src := w.extractLsb' 12 3
  dst := w.extractLsb' 9 3
  cvt := w.extractLsb' 6 3
  rm := w.extractLsb' 4 2
  f := w.extractLsb' 0 4

/-- The slot of an MX instruction (02 R58). -/
def packMX (op : BitVec 8) (h : StripHead) (o : MXForm) : Slot :=
  packHead op h (o.row ++ o.cnt ++ BitVec.ofBool o.ws ++ o.ta ++ o.tb ++ o.src ++ o.dst ++ o.cvt ++ o.rm ++ o.f)

/-- The AX and WX fields of a slot (02 R59). -/
def unpackAX (w : Slot) : AXForm where
  ds := w.extractLsb' 34 4
  port := w.extractLsb' 31 3
  cnt := w.extractLsb' 20 11
  aux := w.extractLsb' 16 4
  imm := w.extractLsb' 0 16

/-- The slot of an AX or WX instruction (02 R59). -/
def packAX (op : BitVec 8) (h : StripHead) (o : AXForm) : Slot :=
  packHead op h (o.ds ++ o.port ++ o.cnt ++ o.aux ++ o.imm)

/-- The CM fields of a slot (02 R60). -/
def unpackCM (w : Slot) : CMForm where
  rsv := w.extractLsb' 24 14
  imm := w.extractLsb' 0 24

/-- The slot of a CM instruction (02 R60). -/
def packCM (op : BitVec 8) (h : StripHead) (o : CMForm) : Slot :=
  packHead op h (o.rsv ++ o.imm)

/-- An extension slot: opcode 0xFF above 52 bits (02 R47, R48). -/
def packExtension (e : BitVec 52) : Slot := (0xFF : BitVec 8) ++ e

/-! ### Reserved fields and operands -/

/-- Which bits of a control-core slot an instruction uses (02 R51); the guard bits are used unless `guard` is false. -/
structure CoreUse where
  d : BitVec 5 := 0
  a : BitVec 5 := 0
  b : BitVec 5 := 0
  la : Bool := false
  lb : Bool := false
  x : BitVec 5 := 0
  imm : BitVec 24 := 0
  guard : Bool := true

/-- D, A, B and both last-use bits. -/
def useDAB : CoreUse := { d := 31, a := 31, b := 31, la := true, lb := true }
/-- D, A and LA. -/
def useDA : CoreUse := { d := 31, a := 31, la := true }
/-- A, B and both last-use bits. -/
def useAB : CoreUse := { a := 31, b := 31, la := true, lb := true }
/-- A and LA. -/
def useA : CoreUse := { a := 31, la := true }

/-- No bit outside the used ones is set (02 R51). -/
def CoreUse.ok (u : CoreUse) (o : CoreForm) : Bool :=
  (o.g || (!o.n && o.p == 0)) && (u.guard || !o.g) && o.d &&& ~~~u.d == 0 && o.a &&& ~~~u.a == 0
    && o.b &&& ~~~u.b == 0 && (u.la || !o.la) && (u.lb || !o.lb) && o.x &&& ~~~u.x == 0 && o.imm &&& ~~~u.imm == 0

/-- A reserved field comes before a reserved operand (02 R63; the order within one slot is DEDUCED, log entry 7). -/
def fateOf (fieldsOk operandBad : Bool) : Option Fate :=
  if !fieldsOk then some .field else if operandBad then some .operand else none

/-- The fate of a control-core instruction's own fields. -/
def coreFate (u : CoreUse) (operandBad : Bool) (o : CoreForm) : Option Fate := fateOf (u.ok o) operandBad

/-- GI = 0 with GN = 1 is reserved (02 R53). -/
def headOk (h : StripHead) : Bool := h.gi != 0 || !h.gn

/-- Which fields of a VR slot an instruction uses (05 R140). -/
structure VRUse where
  d : BitVec 6 := 0
  a : BitVec 6 := 0
  b : BitVec 6 := 0
  c : BitVec 6 := 0
  la : Bool := false
  lb : Bool := false
  lc : Bool := false
  m : Bool := false
  t : BitVec 4 := 0
  f : BitVec 4 := 0

/-- D, A, M and T. -/
def useVA : VRUse := { d := 63, a := 63, la := true, m := true, t := 15 }
/-- D, A, B, M and T. -/
def useVAB : VRUse := { useVA with b := 63, lb := true }
/-- D, A, B, C, M and T. -/
def useVABC : VRUse := { useVAB with c := 63, lc := true }

/-- No bit outside the used ones is set. -/
def VRUse.ok (u : VRUse) (o : VRForm) : Bool :=
  o.d &&& ~~~u.d == 0 && o.a &&& ~~~u.a == 0 && o.b &&& ~~~u.b == 0 && o.c &&& ~~~u.c == 0 && (u.la || !o.la)
    && (u.lb || !o.lb) && (u.lc || !o.lc) && (u.m || o.m == 0) && o.t &&& ~~~u.t == 0 && o.f &&& ~~~u.f == 0

/-- The fate of a VR instruction's own fields. -/
def vrFate (u : VRUse) (operandBad : Bool) (h : StripHead) (o : VRForm) : Option Fate :=
  fateOf (headOk h && u.ok o) operandBad

/-- Which fields of a VI slot an instruction uses. -/
structure VIUse where
  d : BitVec 6 := 0
  a : BitVec 6 := 0
  la : Bool := false
  m : Bool := false
  t : BitVec 4 := 0
  imm : BitVec 18 := 0

/-- No bit outside the used ones is set. -/
def VIUse.ok (u : VIUse) (o : VIForm) : Bool :=
  o.d &&& ~~~u.d == 0 && o.a &&& ~~~u.a == 0 && (u.la || !o.la) && (u.m || o.m == 0) && o.t &&& ~~~u.t == 0
    && o.imm &&& ~~~u.imm == 0

/-- The fate of a VI instruction's own fields. -/
def viFate (u : VIUse) (operandBad : Bool) (h : StripHead) (o : VIForm) : Option Fate :=
  fateOf (headOk h && u.ok o) operandBad

/-- Which fields of an MX slot an instruction uses. -/
structure MXUse where
  row : BitVec 7 := 0
  cnt : BitVec 7 := 0
  ws : Bool := false
  ta : BitVec 4 := 0
  tb : BitVec 4 := 0
  src : BitVec 3 := 0
  dst : BitVec 3 := 0
  cvt : BitVec 3 := 0
  rm : BitVec 2 := 0
  f : BitVec 4 := 0

/-- No bit outside the used ones is set. -/
def MXUse.ok (u : MXUse) (o : MXForm) : Bool :=
  o.row &&& ~~~u.row == 0 && o.cnt &&& ~~~u.cnt == 0 && (u.ws || !o.ws) && o.ta &&& ~~~u.ta == 0
    && o.tb &&& ~~~u.tb == 0 && o.src &&& ~~~u.src == 0 && o.dst &&& ~~~u.dst == 0 && o.cvt &&& ~~~u.cvt == 0
    && o.rm &&& ~~~u.rm == 0 && o.f &&& ~~~u.f == 0

/-- The fate of an MX instruction's own fields. -/
def mxFate (u : MXUse) (operandBad : Bool) (h : StripHead) (o : MXForm) : Option Fate :=
  fateOf (headOk h && u.ok o) operandBad

/-- Which fields of an AX or WX slot an instruction uses. -/
structure AXUse where
  ds : BitVec 4 := 0
  port : BitVec 3 := 7
  cnt : BitVec 11 := 0
  aux : BitVec 4 := 0
  imm : BitVec 16 := 0

/-- No bit outside the used ones is set. -/
def AXUse.ok (u : AXUse) (o : AXForm) : Bool :=
  o.ds &&& ~~~u.ds == 0 && o.port &&& ~~~u.port == 0 && o.cnt &&& ~~~u.cnt == 0 && o.aux &&& ~~~u.aux == 0
    && o.imm &&& ~~~u.imm == 0

/-- The fate of an AX or WX instruction's own fields. -/
def axFate (u : AXUse) (operandBad : Bool) (h : StripHead) (o : AXForm) : Option Fate :=
  fateOf (headOk h && u.ok o) operandBad

/-- The fate of a CM instruction's own fields: `used` are the bits of IMM24 it uses (02 R60). -/
def cmFate (used : BitVec 24) (operandBad : Bool) (h : StripHead) (o : CMForm) : Option Fate :=
  fateOf (headOk h && o.rsv == 0 && o.imm &&& ~~~used == 0) operandBad

/-- The bits of IMM24 that name the rounding of a scalar instruction: RM is reserved when DYN is set (04 R122). -/
def roundBits (o : CoreForm) : BitVec 24 := if o.imm.getLsbD 4 then 0x11 else 0x1F

/-- RM codes 5 to 7 are reserved operands (03 R81). -/
def roundBad (o : CoreForm) : Bool := decide (5 ≤ (o.imm.extractLsb' 1 3).toNat)

/-- The state register indices of 04 R103. -/
def stateIndexListed (i : Nat) : Bool :=
  decide (i ≤ 7) || (decide (0x10 ≤ i) && decide (i ≤ 0x1B)) || (decide (0x20 ≤ i) && decide (i ≤ 0x26))
    || i == 0x30 || i == 0x31

/-- Engine codes 0 and 5 to 7 of SGO and GSET are reserved operands (09 R261, R264). -/
def engineBad (o : CoreForm) : Bool := (o.x.extractLsb' 0 3) == 0 || decide (5 ≤ (o.x.extractLsb' 0 3).toNat)

/-- AUX[1:0] names a timeline counter only with SIG (08 R248, 09 R279, 10 R300). -/
def sigBad (o : AXForm) : Bool := !o.aux.getLsbD 3 && o.aux.extractLsb' 0 2 != 0

/-- An unpaired or reserved TA and TB (02 R58, 03 R88). -/
def pairBad (o : MXForm) : Bool :=
  decide (3 ≤ o.ta.toNat) || decide (5 ≤ o.tb.toNat) || (o.ta == 2 && decide (o.tb.toNat < 2))
    || (o.ta != 2 && o.tb == 2)

/-- SRC codes 2 to 7 are reserved (02 R58). -/
def srcBad (o : MXForm) : Bool := decide (2 ≤ o.src.toNat)

/-- DST codes 2 to 7 are reserved (02 R58). -/
def dstBad (o : MXForm) : Bool := decide (2 ≤ o.dst.toNat)

/-- ROW + CNT beyond the last row (02 R58, 06 R199). -/
def rowsBad (last : Nat) (o : MXForm) : Bool := decide (last < o.row.toNat + o.cnt.toNat)

/-- The TB and storage code of WLD (06 R181). -/
def storageBad (o : MXForm) : Bool :=
  decide (3 ≤ o.tb.toNat) ||
    match (o.f.extractLsb' 0 2).toNat with
    | 0 => false
    | 3 => o.tb != 1
    | _ => o.tb != 0

/-- The matrix control register indices of 06 R173. -/
def matrixIndexListed (i : Nat) : Bool :=
  decide (i ≤ 2) || (decide (4 ≤ i) && decide (i ≤ 6)) || i == 8 || i == 0x10 || i == 0x11

/-- FP32, BF16x2 or FP16x2 (05 R143). -/
def isFp (t : BitVec 4) : Bool := decide (2 ≤ t.toNat) && decide (t.toNat ≤ 4)

/-- INT32, natural 32, INT16x2, INT8x4 or natural 8x4 (05 R143). -/
def isInt (t : BitVec 4) : Bool := decide (t.toNat ≤ 1) || (decide (7 ≤ t.toNat) && decide (t.toNat ≤ 9))

/-- INT32, INT16x2 or INT8x4 (05 R143). -/
def isSigned (t : BitVec 4) : Bool := t == 0 || t == 7 || t == 8

/-- Type codes 10 to 15 are reserved operands (02 R57). -/
def typeBad (t : BitVec 4) : Bool := decide (10 ≤ t.toNat)

/-- A packed type (02 R57). -/
def isPacked (t : BitVec 4) : Bool := decide (3 ≤ t.toNat) && decide (t.toNat ≤ 9)

/-- A type of four elements (02 R57). -/
def isQuad (t : BitVec 4) : Bool := t == 5 || t == 6 || t == 8 || t == 9

/-- Elements in a lane of a type (02 R57, 03 R77). -/
def elements (t : BitVec 4) : Nat := if isQuad t then 4 else if isPacked t then 2 else 1

/-- Rounding codes 6 and 7 in F[2:0] are reserved operands (05 R141). -/
def fpRoundBad (o : VRForm) : Bool := decide (6 ≤ (o.f.extractLsb' 0 3).toNat)

/-- Rounding codes 6 and 7 in F[3:1] are reserved operands (05 R141). -/
def highRoundBad (o : VRForm) : Bool := decide (6 ≤ (o.f.extractLsb' 1 3).toNat)

/-- The VCMP conditions: codes 10 to 15 are reserved, .un and .or take FP32 only, .tst and .ntst integers only
(05 R147). -/
def compareBad (o : VRForm) : Bool :=
  decide (10 ≤ o.f.toNat) || ((o.f == 6 || o.f == 7) && o.t != 2) || ((o.f == 8 || o.f == 9) && o.t == 2)

/-- VTHC and VTHS take natural 32 and FP32 keys (05 R150). -/
def keyTypeBad (o : VRForm) : Bool := o.t != 1 && o.t != 2

/-- Group codes 13 to 15 are reserved operands (05 R150). -/
def groupBad (o : VRForm) : Bool := decide (13 ≤ o.f.toNat)

/-- The pairs of VCVT: different types of one element count (05 R154). -/
def convertPair (src dst : BitVec 4) : Bool :=
  !typeBad src && !typeBad dst && src != dst && elements src == elements dst

/-- The pairs and element selectors of VUNPK (05 R156). -/
def unpackBad (o : VRForm) : Bool :=
  let src := o.b.extractLsb' 0 4
  let fp8 := src == 5 || src == 6
  let int8 := src == 8 || src == 9
  !((fp8 && o.t == 2)
    || (fp8 && (o.t == 3 || o.t == 4) && !o.f.getLsbD 1)
    || (src == 8 && o.t == 0) || (src == 9 && o.t == 1)
    || (int8 && o.t == 7 && !o.f.getLsbD 1)
    || ((src == 3 || src == 4) && o.t == 2 && !o.f.getLsbD 1)
    || (src == 7 && o.t == 0 && !o.f.getLsbD 1))

/-- Operand codes 0x38 to 0x3B are input ports and 0x3C to 0x3F output ports (02 R57). -/
def isInputPort (r : BitVec 6) : Bool := decide (0x38 ≤ r.toNat) && decide (r.toNat ≤ 0x3B)
/-- See `isInputPort`. -/
def isOutputPort (r : BitVec 6) : Bool := decide (0x3C ≤ r.toNat)

/-- A port in the wrong direction, an input port named twice, or a last use of a port (02 R57, 05 R134). -/
def portsBad (dst : Option (BitVec 6)) (srcs : List (BitVec 6 × Bool)) : Bool :=
  (match dst with
    | some d => isInputPort d
    | none => false)
  || srcs.any (fun s => isOutputPort s.1 || (isInputPort s.1 && s.2))
  || !((srcs.map Prod.fst).filter isInputPort).Nodup

/-- Binding codes a port may take: input ports 0 to 2, output ports 0, 3 and 4 (05 R133). -/
def bindingBad (port code : Nat) : Bool :=
  if port < 4 then decide (3 ≤ code) else !(code == 0 || code == 3 || code == 4)

/-- The reserved field or operand that an instruction's own fields hold, if any (02 R51, R57 to R60, R62 and the
entries). -/
def fate : Instr → Option Fate
  | .add o => coreFate (useDAB) false o
  | .sub o => coreFate (useDAB) false o
  | .mul o => coreFate (useDAB) false o
  | .mulh o => coreFate (useDAB) false o
  | .mulhn o => coreFate (useDAB) false o
  | .div o => coreFate (useDAB) false o
  | .divn o => coreFate (useDAB) false o
  | .rem o => coreFate (useDAB) false o
  | .remn o => coreFate (useDAB) false o
  | .and o => coreFate (useDAB) false o
  | .or o => coreFate (useDAB) false o
  | .xor o => coreFate (useDAB) false o
  | .andn o => coreFate (useDAB) false o
  | .shl o => coreFate (useDAB) false o
  | .shr o => coreFate (useDAB) false o
  | .sra o => coreFate (useDAB) false o
  | .rot o => coreFate (useDAB) false o
  | .min o => coreFate (useDAB) false o
  | .max o => coreFate (useDAB) false o
  | .minn o => coreFate (useDAB) false o
  | .maxn o => coreFate (useDAB) false o
  | .clz o => coreFate (useDA) false o
  | .popc o => coreFate (useDA) false o
  | .addi o => coreFate ({ useDA with imm := 0xFFFFFF }) false o
  | .andi o => coreFate ({ useDA with imm := 0xFFFFFF }) false o
  | .ori o => coreFate ({ useDA with imm := 0xFFFFFF }) false o
  | .xori o => coreFate ({ useDA with imm := 0xFFFFFF }) false o
  | .shli o => coreFate ({ useDA with imm := 0x3F }) false o
  | .shri o => coreFate ({ useDA with imm := 0x3F }) false o
  | .srai o => coreFate ({ useDA with imm := 0x3F }) false o
  | .lui o => coreFate ({ d := 31, imm := 0xFFFFFF }) false o
  | .li o _ => coreFate ({ d := 31, imm := 0xFFFFFF }) false o
  | .cmp o => coreFate ({ useDAB with d := 15, x := 31 }) (decide (12 ≤ o.x.toNat)) o
  | .cmpi o => coreFate ({ useDA with d := 15, x := 31, imm := 0xFFFFFF }) (decide (12 ≤ o.x.toNat)) o
  | .fcmp o => coreFate ({ useDAB with d := 15, x := 31, imm := 1 }) (decide (8 ≤ o.x.toNat)) o
  | .pand o => coreFate ({ d := 15, a := 15, b := 15, x := 7 }) false o
  | .por o => coreFate ({ d := 15, a := 15, b := 15, x := 7 }) false o
  | .pxor o => coreFate ({ d := 15, a := 15, b := 15, x := 7 }) false o
  | .pset o => coreFate ({ d := 15, imm := 1 }) false o
  | .ppack o => coreFate ({ d := 31, x := 1 }) false o
  | .punpk o => coreFate ({ a := 31, la := true, x := 1 }) false o
  | .sel o => coreFate ({ useDAB with x := 15 }) false o
  | .fadd o => coreFate ({ useDAB with imm := roundBits o }) (roundBad o) o
  | .fsub o => coreFate ({ useDAB with imm := roundBits o }) (roundBad o) o
  | .fmul o => coreFate ({ useDAB with imm := roundBits o }) (roundBad o) o
  | .fdiv o => coreFate ({ useDAB with imm := roundBits o }) (roundBad o) o
  | .fsqrt o => coreFate ({ useDA with imm := roundBits o }) (roundBad o) o
  | .fma o => coreFate ({ useDAB with x := 31, imm := roundBits o ||| 0x20 }) (roundBad o) o
  | .fms o => coreFate ({ useDAB with x := 31, imm := roundBits o ||| 0x20 }) (roundBad o) o
  | .fmin o => coreFate ({ useDAB with imm := 1 }) false o
  | .fmax o => coreFate ({ useDAB with imm := 1 }) false o
  | .fsgn o => coreFate ({ useDAB with x := 31, imm := 1 }) (decide (3 ≤ o.x.toNat)) o
  | .fcvt o => coreFate ({ useDA with x := 31, imm := roundBits o &&& 0x1E }) (roundBad o || decide (20 ≤ o.x.toNat)) o
  | .fclass o => coreFate ({ useDA with imm := 1 }) false o
  | .b o => coreFate ({ imm := 0x7FFFFF }) false o
  | .bna o => coreFate ({ imm := 0x7FFFFF }) false o
  | .bta o => coreFate ({ imm := 0x7FFFFF }) false o
  | .bcmp o => coreFate ({ useAB with x := 31, imm := 0x7FFFFF }) (decide (12 ≤ o.x.toNat)) o
  | .bcmpna o => coreFate ({ useAB with x := 31, imm := 0x7FFFFF }) (decide (12 ≤ o.x.toNat)) o
  | .call o => coreFate ({ imm := 0x7FFFFF }) false o
  | .callr o => coreFate (useA) false o
  | .jr o => coreFate (useA) false o
  | .ld o => coreFate ({ useDA with x := 31, imm := 0xFFFFFF }) (decide (7 ≤ o.x.toNat)) o
  | .st o => coreFate ({ useAB with x := 31, imm := 0xFFFFFF }) (decide (4 ≤ o.x.toNat)) o
  | .ldp o => coreFate ({ useDA with imm := 0xFFFFFF }) (o.d.getLsbD 0) o
  | .stp o => coreFate ({ useAB with imm := 0xFFFFFF }) (o.b.getLsbD 0) o
  | .ldx o => coreFate ({ useDA with b := 15, x := 31, imm := 0xFFFFFF }) (decide (7 ≤ o.x.toNat)) o
  | .sgo o => coreFate (if o.x.getLsbD 4 then { useA with x := 31 } else { x := 31, imm := 0x7FFFFF }) (engineBad o) o
  | .sstart o => coreFate ({ x := 15 }) (o.x == 0) o
  | .sstop o => coreFate ({ x := 15 }) (o.x == 0) o
  | .gset o => coreFate (if o.x.getLsbD 4 then { d := 7, x := 31, imm := 1 } else { d := 7, a := 15, x := 31 }) (engineBad o || o.d == 0) o
  | .phend o => coreFate ({ }) false o
  | .phbud o => coreFate (if o.x.getLsbD 0 then { useA with x := 1 } else { imm := 0xFFFFFF }) (!o.x.getLsbD 0 && o.imm == 0) o
  | .tlsig o => coreFate ({ x := 31 }) false o
  | .tlwait o => coreFate ({ useAB with x := 15 }) false o
  | .waitt o => coreFate (useA) false o
  | .trap o => coreFate ({ imm := 0xFFFFFF }) false o
  | .brk o => coreFate ({ imm := 0xFFFFFF }) false o
  | .mfc o => coreFate ({ d := 31, imm := 0xFFF }) (!stateIndexListed (o.imm.extractLsb' 0 12).toNat) o
  | .mtc o => coreFate ({ b := 31, lb := true, imm := 0xFFF }) (!stateIndexListed (o.imm.extractLsb' 0 12).toNat) o
  | .fenceLocal o => coreFate ({ x := 1 }) false o
  | .fenceStrips o => coreFate ({ x := 1 }) false o
  | .traceCfg o => coreFate ({ useA with imm := 15 }) false o
  | .traceMark o => coreFate ({ useA with imm := 15 }) false o
  | .traceTrig o => coreFate ({ imm := 15 }) false o
  | .tend o => coreFate ({ }) false o
  | .tspawn o => coreFate (useDA) false o
  | .eret o => coreFate ({ guard := false }) false o
  | .launchOpen o => coreFate ({ useDA with x := 3 }) false o
  | .launchGo o => coreFate ({ useDA with x := 3 }) false o
  | .launchReplay o => coreFate ({ useDA with x := 3 }) false o
  | .launchSel o => coreFate ({ d := 31, x := 3 }) false o
  | .place o => coreFate (useDAB) false o
  | .ctxsave o => coreFate ({ useDA with x := 1 }) false o
  | .ctxload o => coreFate (useDA) false o
  | .ctxsw o => coreFate (useA) false o
  | .tlbinv o => coreFate ({ useAB with x := 3 }) false o
  | .monitor o => coreFate (useA) false o
  | .mwait o => coreFate (useA) false o
  | .whistle o => coreFate (useA) false o
  | .resume o => coreFate (useAB) false o
  | .stepJob o => coreFate ({ useAB with x := 3 }) false o
  | .stepTile o => coreFate ({ useA with x := 3 }) false o
  | .stepInsn o => coreFate ({ useA with x := 3 }) false o
  | .bench o => coreFate (useA) false o
  | .errinj o => coreFate ({ useAB with x := 3 }) false o
  | .copen o => coreFate (useDA) false o
  | .chold o => coreFate (useAB) false o
  | .cclose o => coreFate (useA) false o
  | .cstat o => coreFate ({ useDA with x := 31 }) (decide (4 ≤ o.x.toNat)) o
  | .rcsnap o => coreFate (useDA) false o
  | .rcread o => coreFate ({ useDA with x := 31 }) (decide (3 ≤ o.x.toNat)) o
  | .fmset o => coreFate ({ useAB with x := 31 }) (decide (7 ≤ o.x.toNat)) o
  | .fmread o => coreFate ({ useDA with x := 31 }) (decide (2 ≤ o.x.toNat) && !(decide (8 ≤ o.x.toNat) && decide (o.x.toNat ≤ 14))) o
  | .rdcyc o => coreFate ({ d := 31, x := 31 }) (decide (1 ≤ o.x.toNat)) o
  | .rdtime o => coreFate ({ d := 31, x := 31 }) (decide (3 ≤ o.x.toNat)) o
  | .rdphase o => coreFate ({ d := 31, x := 31 }) (decide (3 ≤ o.x.toNat)) o
  | .histcfg o => coreFate (useAB) false o
  | .histrd o => coreFate ({ useDA with x := 1 }) false o
  | .sdesc h o => axFate ({ ds := 15, imm := 0xFFFF }) (o.port != 7) h o
  | .srun h o => axFate ({ ds := 15, cnt := 0x7FF }) (decide (2 ≤ o.port.toNat)) h o
  | .sskip h o => axFate ({ ds := 15, cnt := 0x7FF, aux := 1, imm := 0xFFFF }) (o.port != 7) h o
  | .ald h o => axFate ({ cnt := 0x7FF, imm := 0xFFFF }) (decide (2 ≤ o.port.toNat)) h o
  | .aldm h o => axFate ({ ds := 15, cnt := 0x7FF, imm := 0xFFFF }) (decide (2 ≤ o.port.toNat)) h o
  | .agath h o => axFate ({ ds := 15, cnt := 0x7FF, imm := 0xF }) (decide (2 ≤ o.port.toNat)) h o
  | .acopy h o => axFate ({ ds := 15, cnt := 0x7FF, imm := 0xFFFF }) (o.port != 7) h o
  | .bgin h o => axFate ({ ds := 15, cnt := 0x7FF, aux := 0xB, imm := 0xFFFF }) (o.port != 7 || sigBad o) h o
  | .bgout h o => axFate ({ ds := 15, cnt := 0x7FF, aux := 0xB, imm := 0xFFFF }) (o.port != 7 || sigBad o) h o
  | .bgfill h o => axFate ({ ds := 7, cnt := 0x7FF, aux := 0xB, imm := 0xFFFF }) (o.port != 7 || sigBad o) h o
  | .bgcode h o => axFate ({ ds := 15, cnt := 0x7FF, aux := 0xB, imm := 0xFFFF }) (o.port != 7 || sigBad o) h o
  | .tpref h o => axFate ({ ds := 15, cnt := 0x7FF, aux := 0xB }) (o.port != 7 || sigBad o) h o
  | .tprobe h o => axFate ({ ds := 15, aux := 7, imm := 3 }) (o.port != 7) h o
  | .xput h o => axFate ({ ds := 15, cnt := 0x7FF, aux := 15, imm := 0xFFFF }) (o.port != 7 || sigBad o) h o
  | .xget h o => axFate ({ ds := 15, cnt := 0x7FF, aux := 15, imm := 0xFFFF }) (o.port != 7 || sigBad o) h o
  | .xcir h o => axFate ({ ds := 15, cnt := 0x7FF, aux := 15, imm := 0xFFFF }) (o.port != 7 || sigBad o) h o
  | .xdisp h o => axFate ({ ds := 15, cnt := 0x7FF, aux := 15, imm := 0xFFFF }) (o.port != 7 || sigBad o) h o
  | .xcomb h o => axFate ({ ds := 15, cnt := 0x7FF, aux := 15, imm := 0xFFFF }) (o.port != 7 || sigBad o) h o
  | .xgath8 h o => axFate ({ ds := 15, cnt := 0x7FF, aux := 15, imm := 0xFFFF }) (o.port != 7 || sigBad o) h o
  | .xscat h o => axFate ({ ds := 15, cnt := 0x7FF, aux := 15, imm := 0xFFFF }) (o.port != 7 || sigBad o) h o
  | .xred h o => axFate ({ ds := 15, cnt := 0x7FF, aux := 15, imm := 0xFFFF }) (o.port != 7 || sigBad o) h o
  | .xsend h o => axFate ({ cnt := 0x7FF, aux := 15, imm := 0xFFFF }) (o.port != 7 || sigBad o || decide (8 ≤ o.cnt.toNat)) h o
  | .xland h o => axFate ({ ds := 15, imm := 0xFFFF }) (o.port != 7) h o
  | .aadd h o => axFate ({ ds := 15, cnt := 0x7FF, aux := 15, imm := 0xFFFF }) (o.port != 7 || sigBad o || (decide (0x6000 ≤ o.imm.toNat) && o.imm != 0xFFFF)) h o
  | .afadd h o => axFate ({ ds := 15, cnt := 0x7FF, aux := 15, imm := 0xFFFF }) (o.port != 7 || sigBad o || (decide (0x6000 ≤ o.imm.toNat) && o.imm != 0xFFFF)) h o
  | .abfadd h o => axFate ({ ds := 15, cnt := 0x7FF, aux := 15, imm := 0xFFFF }) (o.port != 7 || sigBad o || (decide (0x6000 ≤ o.imm.toNat) && o.imm != 0xFFFF)) h o
  | .amin h o => axFate ({ ds := 15, cnt := 0x7FF, aux := 15, imm := 0xFFFF }) (o.port != 7 || sigBad o || (decide (0x6000 ≤ o.imm.toNat) && o.imm != 0xFFFF)) h o
  | .amax h o => axFate ({ ds := 15, cnt := 0x7FF, aux := 15, imm := 0xFFFF }) (o.port != 7 || sigBad o || (decide (0x6000 ≤ o.imm.toNat) && o.imm != 0xFFFF)) h o
  | .aand h o => axFate ({ ds := 15, cnt := 0x7FF, aux := 15, imm := 0xFFFF }) (o.port != 7 || sigBad o || (decide (0x6000 ≤ o.imm.toNat) && o.imm != 0xFFFF)) h o
  | .aor h o => axFate ({ ds := 15, cnt := 0x7FF, aux := 15, imm := 0xFFFF }) (o.port != 7 || sigBad o || (decide (0x6000 ≤ o.imm.toNat) && o.imm != 0xFFFF)) h o
  | .axor h o => axFate ({ ds := 15, cnt := 0x7FF, aux := 15, imm := 0xFFFF }) (o.port != 7 || sigBad o || (decide (0x6000 ≤ o.imm.toNat) && o.imm != 0xFFFF)) h o
  | .axchg h o => axFate ({ ds := 15, cnt := 0x7FF, aux := 15, imm := 0xFFFF }) (o.port != 7 || sigBad o || (decide (0x6000 ≤ o.imm.toNat) && o.imm != 0xFFFF)) h o
  | .acas h o => axFate ({ ds := 15, cnt := 0x7FF, aux := 15, imm := 0xFFFF }) (o.port != 7 || sigBad o || (decide (0x6000 ≤ o.imm.toNat) && o.imm != 0xFFFF)) h o
  | .wld h o => mxFate ({ ws := true, ta := 15, tb := 15, src := 7, f := 3 }) (pairBad o || srcBad o || storageBad o) h o
  | .wlds h o => mxFate ({ ws := true, ta := 15, tb := 15, src := 7 }) (pairBad o || srcBad o || decide (3 ≤ o.tb.toNat)) h o
  | .wldg h o => mxFate ({ ws := true, ta := 15, tb := 15, src := 7 }) (pairBad o || srcBad o || decide (o.tb.toNat < 3)) h o
  | .mma h o => mxFate ({ row := 127, cnt := 127, ws := true, ta := 15, tb := 15, src := 7, f := if o.ta == 2 && decide (3 ≤ o.tb.toNat) then 1 else 0 }) (pairBad o || srcBad o || rowsBad 127 o) h o
  | .mmas h o => mxFate ({ row := 127, cnt := 127, ws := true, ta := 15, tb := 15, src := 7, f := if o.ta == 2 && decide (3 ≤ o.tb.toNat) then 1 else 0 }) (pairBad o || srcBad o || rowsBad 127 o) h o
  | .mmaz h o => mxFate ({ row := 127, cnt := 127, ws := true, ta := 15, tb := 15, src := 7, f := if o.ta == 2 && decide (3 ≤ o.tb.toNat) then 1 else 0 }) (pairBad o || srcBad o || rowsBad 127 o) h o
  | .aclr h o => mxFate ({ row := 127, cnt := 127 }) (rowsBad 127 o) h o
  | .adrn h o => mxFate ({ row := 127, cnt := 127, dst := 7, cvt := 7, rm := if o.cvt == 0 then 0 else 3, f := 1 }) (dstBad o || rowsBad 127 o || decide (5 ≤ o.cvt.toNat)) h o
  | .alda h o => mxFate ({ row := 127, cnt := 127, src := 7, f := 1 }) (srcBad o || rowsBad 127 o) h o
  | .mscan h o => mxFate ({ cnt := 127, dst := 7 }) (dstBad o) h o
  | .mscanc h o => mxFate ({ cnt := 127, dst := 7 }) (dstBad o) h o
  | .mscanr h o => mxFate ({ cnt := 127, dst := 7 }) (dstBad o) h o
  | .hld h o => mxFate ({ row := 127, cnt := 127, src := 7 }) (srcBad o || rowsBad 63 o) h o
  | .hst h o => mxFate ({ row := 127, cnt := 127, dst := 7 }) (dstBad o || rowsBad 63 o) h o
  | .hclr h o => mxFate ({ row := 127, cnt := 127 }) (rowsBad 63 o) h o
  | .mcfgWrite h o => mxFate ({ row := 127, f := 15 }) (!matrixIndexListed o.row.toNat || o.row == 0x10 || o.row == 0x11) h o
  | .mcfgRead h o => mxFate ({ row := 127, f := 15 }) (!matrixIndexListed o.row.toNat) h o
  | .mxcnt h o => mxFate ({ row := 7, f := if o.f.getLsbD 2 then 15 else 7 }) (o.f.extractLsb' 0 2 == 3) h o
  | .vadd h o => vrFate ({ useVAB with f := if isFp o.t then 7 else 1 }) (portsBad (some o.d) [(o.a, o.la), (o.b, o.lb)] || !(isFp o.t || isInt o.t) || (isFp o.t && fpRoundBad o)) h o
  | .vsub h o => vrFate ({ useVAB with f := if isFp o.t then 7 else 1 }) (portsBad (some o.d) [(o.a, o.la), (o.b, o.lb)] || !(isFp o.t || isInt o.t) || (isFp o.t && fpRoundBad o)) h o
  | .vmul h o => vrFate ({ useVAB with f := if isFp o.t then 7 else 1 }) (portsBad (some o.d) [(o.a, o.la), (o.b, o.lb)] || !(isFp o.t || isInt o.t) || (isFp o.t && fpRoundBad o)) h o
  | .vfma h o => vrFate ({ useVABC with f := 7 }) (portsBad (some o.d) [(o.a, o.la), (o.b, o.lb), (o.c, o.lc)] || !isFp o.t || fpRoundBad o) h o
  | .vfms h o => vrFate ({ useVABC with f := 7 }) (portsBad (some o.d) [(o.a, o.la), (o.b, o.lb), (o.c, o.lc)] || !isFp o.t || fpRoundBad o) h o
  | .vfnma h o => vrFate ({ useVABC with f := 7 }) (portsBad (some o.d) [(o.a, o.la), (o.b, o.lb), (o.c, o.lc)] || !isFp o.t || fpRoundBad o) h o
  | .vdiv h o => vrFate ({ useVAB with f := 7 }) (portsBad (some o.d) [(o.a, o.la), (o.b, o.lb)] || !isFp o.t || fpRoundBad o) h o
  | .vsqrt h o => vrFate ({ useVA with f := 7 }) (portsBad (some o.d) [(o.a, o.la)] || !isFp o.t || fpRoundBad o) h o
  | .vrsq h o => vrFate ({ useVA with f := 7 }) (portsBad (some o.d) [(o.a, o.la)] || !isFp o.t || fpRoundBad o) h o
  | .vrcp h o => vrFate ({ useVA with f := 7 }) (portsBad (some o.d) [(o.a, o.la)] || !isFp o.t || fpRoundBad o) h o
  | .vmin h o => vrFate (useVAB) (portsBad (some o.d) [(o.a, o.la), (o.b, o.lb)] || !(isFp o.t || isInt o.t)) h o
  | .vmax h o => vrFate (useVAB) (portsBad (some o.d) [(o.a, o.la), (o.b, o.lb)] || !(isFp o.t || isInt o.t)) h o
  | .vabs h o => vrFate ({ useVA with f := if isFp o.t then 0 else 1 }) (portsBad (some o.d) [(o.a, o.la)] || !(isFp o.t || isSigned o.t)) h o
  | .vneg h o => vrFate ({ useVA with f := if isFp o.t then 0 else 1 }) (portsBad (some o.d) [(o.a, o.la)] || !(isFp o.t || isSigned o.t)) h o
  | .vand h o => vrFate (useVAB) (portsBad (some o.d) [(o.a, o.la), (o.b, o.lb)] || typeBad o.t) h o
  | .vor h o => vrFate (useVAB) (portsBad (some o.d) [(o.a, o.la), (o.b, o.lb)] || typeBad o.t) h o
  | .vxor h o => vrFate (useVAB) (portsBad (some o.d) [(o.a, o.la), (o.b, o.lb)] || typeBad o.t) h o
  | .vnot h o => vrFate (useVA) (portsBad (some o.d) [(o.a, o.la)] || typeBad o.t) h o
  | .vshl h o => vrFate (useVAB) (portsBad (some o.d) [(o.a, o.la), (o.b, o.lb)] || !isInt o.t) h o
  | .vshr h o => vrFate (useVAB) (portsBad (some o.d) [(o.a, o.la), (o.b, o.lb)] || !isInt o.t) h o
  | .vsra h o => vrFate (useVAB) (portsBad (some o.d) [(o.a, o.la), (o.b, o.lb)] || !isInt o.t) h o
  | .vpopc h o => vrFate (useVA) (portsBad (some o.d) [(o.a, o.la)] || !isInt o.t) h o
  | .vclz h o => vrFate (useVA) (portsBad (some o.d) [(o.a, o.la)] || !isInt o.t) h o
  | .vmulh h o => vrFate (useVAB) (portsBad (some o.d) [(o.a, o.la), (o.b, o.lb)] || !isInt o.t) h o
  | .vexp h o => vrFate (useVA) (portsBad (some o.d) [(o.a, o.la)] || !isFp o.t) h o
  | .vexp2 h o => vrFate (useVA) (portsBad (some o.d) [(o.a, o.la)] || !isFp o.t) h o
  | .vlog h o => vrFate (useVA) (portsBad (some o.d) [(o.a, o.la)] || !isFp o.t) h o
  | .vlog2 h o => vrFate (useVA) (portsBad (some o.d) [(o.a, o.la)] || !isFp o.t) h o
  | .vtanh h o => vrFate (useVA) (portsBad (some o.d) [(o.a, o.la)] || !isFp o.t) h o
  | .vsigm h o => vrFate (useVA) (portsBad (some o.d) [(o.a, o.la)] || !isFp o.t) h o
  | .vsilu h o => vrFate (useVA) (portsBad (some o.d) [(o.a, o.la)] || !isFp o.t) h o
  | .vgelu h o => vrFate (useVA) (portsBad (some o.d) [(o.a, o.la)] || !isFp o.t) h o
  | .vcmp h o => vrFate ({ useVAB with d := 7, f := 15 }) (portsBad none [(o.a, o.la), (o.b, o.lb)] || o.d == 0 || decide (3 ≤ o.t.toNat) || compareBad o) h o
  | .vsel h o => vrFate ({ useVAB with c := 7 }) (portsBad (some o.d) [(o.a, o.la), (o.b, o.lb)] || typeBad o.t) h o
  | .vmand h o => vrFate ({ d := 7, a := 7, b := 7, m := true, f := 1 }) (o.d == 0) h o
  | .vmor h o => vrFate ({ d := 7, a := 7, b := 7, m := true }) (o.d == 0) h o
  | .vmxor h o => vrFate ({ d := 7, a := 7, b := 7, m := true }) (o.d == 0) h o
  | .vmnot h o => vrFate ({ d := 7, a := 7, m := true }) (o.d == 0) h o
  | .vmpop h o => vrFate ({ d := 63, a := 7, m := true, t := 15 }) (portsBad (some o.d) [] || o.t != 1) h o
  | .vthc h o => vrFate ({ useVAB with f := 15 }) (portsBad (some o.d) [(o.a, o.la), (o.b, o.lb)] || keyTypeBad o || groupBad o) h o
  | .vths h o => vrFate ({ useVABC with d := 7, f := 15 }) (portsBad none [(o.a, o.la), (o.b, o.lb), (o.c, o.lc)] || o.d == 0 || keyTypeBad o || groupBad o) h o
  | .vcvt h o => vrFate ({ useVA with b := 15, f := 14 }) (portsBad (some o.d) [(o.a, o.la)] || highRoundBad o || !convertPair (o.b.extractLsb' 0 4) o.t) h o
  | .vpack h o => vrFate (if isQuad o.t then { useVABC with f := 15 } else { useVAB with f := 14 }) ((if isQuad o.t then portsBad (some o.d) [(o.a, o.la), (o.b, o.lb), (o.c, o.lc)] else portsBad (some o.d) [(o.a, o.la), (o.b, o.lb)]) || highRoundBad o || !isPacked o.t) h o
  | .vunpk h o => vrFate ({ useVA with b := 15, f := 3 }) (portsBad (some o.d) [(o.a, o.la)] || unpackBad o) h o
  | .vqnt h o => vrFate ({ useVABC with f := 7 }) (portsBad (some o.d) [(o.a, o.la), (o.b, o.lb), (o.c, o.lc)] || !isPacked o.t || decide (elements o.t ≤ (o.f.extractLsb' 0 2).toNat)) h o
  | .vscl h o => vrFate ({ useVAB with f := 7 }) (portsBad (some o.d) [(o.a, o.la), (o.b, o.lb)] || !isFp o.t || fpRoundBad o) h o
  | .vrsum h o => vrFate ({ useVA with f := if isFp o.t then 7 else 0 }) (portsBad (some o.d) [(o.a, o.la)] || !(isFp o.t || o.t == 0 || o.t == 1) || (isFp o.t && fpRoundBad o)) h o
  | .vrmax h o => vrFate (useVA) (portsBad (some o.d) [(o.a, o.la)] || !(isFp o.t || isInt o.t)) h o
  | .vrmin h o => vrFate (useVA) (portsBad (some o.d) [(o.a, o.la)] || !(isFp o.t || isInt o.t)) h o
  | .vrarg h o => vrFate ({ useVA with f := 1 }) (portsBad (some o.d) [(o.a, o.la)] || decide (3 ≤ o.t.toNat)) h o
  | .vscan h o => vrFate ({ useVA with f := if o.t == 2 then 15 else 1 }) (portsBad (some o.d) [(o.a, o.la)] || decide (3 ≤ o.t.toNat) || (o.t == 2 && highRoundBad o)) h o
  | .vperm h o => vrFate (useVAB) (portsBad (some o.d) [(o.a, o.la), (o.b, o.lb)] || o.t != 1) h o
  | .vbcast h o => vrFate ({ useVA with f := 15 }) (portsBad (some o.d) [(o.a, o.la)] || o.t != 1 || groupBad o) h o
  | .vrot h o => viFate ({ d := 63, a := 63, la := true, m := true, t := 15, imm := 0x200FF }) (portsBad (some o.d) [(o.a, o.la)] || typeBad o.t || o.imm.getLsbD 17 || decide (192 ≤ (o.imm.extractLsb' 0 8).toNat)) h o
  | .viota h o => viFate ({ d := 63, m := true, t := 15, imm := 0x3FFFF }) (portsBad (some o.d) [] || decide (2 ≤ o.t.toNat) || o.imm.getLsbD 17) h o
  | .vmov h o => vrFate (useVA) (portsBad (some o.d) [(o.a, o.la)] || typeBad o.t) h o
  | .vli h o _ => viFate ({ d := 63, m := true, t := 15, imm := if o.imm.getLsbD 17 then 0x20000 else 0x3FFFF }) (portsBad (some o.d) [] || typeBad o.t) h o
  | .vget h o => viFate ({ d := 63, a := 63, la := true, m := true, t := 15, imm := 0x200FF }) (o.d.extractLsb' 3 3 != 0 || decide (0x38 ≤ o.a.toNat) || decide (3 ≤ o.t.toNat) || o.m != 0 || o.imm.getLsbD 17 || decide (192 ≤ (o.imm.extractLsb' 0 8).toNat)) h o
  | .vput h o => viFate ({ d := 63, a := 63, la := true, m := true, t := 15, imm := if o.imm.getLsbD 8 then 0x20100 else 0x201FF }) (decide (0x38 ≤ o.d.toNat) || o.a.extractLsb' 3 3 != 0 || o.la || o.t != 1 || o.imm.getLsbD 17 || decide (192 ≤ (o.imm.extractLsb' 0 8).toNat)) h o
  | .vbind h o => viFate ({ d := 63, imm := 0x20007 }) (decide (o.d.toNat < 0x38) || o.imm.getLsbD 17 || bindingBad (o.d.toNat - 0x38) (o.imm.extractLsb' 0 3).toNat) h o
  | .wst h o => axFate ({ ds := 7, cnt := 0x7FF, aux := 15 }) (decide (2 ≤ o.port.toNat) || decide (12 ≤ o.aux.toNat)) h o
  | .wacc h o => axFate ({ ds := 7, cnt := 0x7FF, aux := 15 }) (decide (2 ≤ o.port.toNat) || decide (12 ≤ o.aux.toNat)) h o
  | .wscat h o => axFate ({ ds := 7, cnt := 0x7FF, aux := 15 }) (decide (2 ≤ o.port.toNat) || decide (12 ≤ o.aux.toNat)) h o
  | .wdsc h o => axFate ({ ds := 7, imm := 0xFFFF, port := 0 }) false h o
  | .sidle h o => cmFate 0xFFFF (o.imm == 0) h o
  | .send h o => cmFate 0 false h o
  | .smark h o => cmFate 0xFFFFFF false h o
  | .sflgOr h o => cmFate 0xC0007F false h o
  | .sflgGet h o => cmFate 0xC00007 false h o
  | .sflgClr h o => cmFate 0xC0007F false h o
  | .microStep _ _ => none
  | .pipelinedResultWrite _ _ _ _ _ _ => none
  | .vectorResultLands _ _ _ _ _ _ _ _ => none
  | .accumulatorEntry _ _ _ => none
  | .wloadEntry _ => none
  | .latchValid _ _ => none
  | .latchRestoreComplete _ => none
  | .rowBufferDrain _ _ => none
  | .eccWriteback _ => none
  | .asyncTrapDelivery _ _ => none
  | .boundaryConditionsMet _ => none
  | .minimumPairExpiry _ => none
  | .timedBoundaryTime _ => none
  | .boundarySequence _ => none
  | .startPulseArrival _ _ => none
  | .stragglerFault _ => none
  | .deadlineFault _ _ => none
  | .hangFault _ _ _ => none
  | .waveReachesTile _ _ => none
  | .causeSettle _ => none
  | .tileRelease _ _ => none
  | .stepRefreeze _ _ => none
  | .stepTimeout _ _ => none
  | .write _ => none
  | .writem _ => none
  | .read _ => none
  | .rreply _ => none
  | .cread _ => none
  | .creply _ => none
  | .rcount _ => none
  | .rslot _ => none
  | .atom _ => none
  | .ares _ => none
  | .red _ => none
  | .reductionDelivery _ => none
  | .ack _ => none
  | .nack _ => none
  | .probe _ => none
  | .back _ => none
  | .ready _ => none
  | .fail _ => none
  | .cmark _ => none
  | .creport _ => none
  | .fault _ => none
  | .free _ => none
  | .barrier _ => none
  | .whistleFreeze _ => none
  | .whistleResume _ => none
  | .whistleJobStep _ => none
  | .circuitBeat _ _ _ _ _ _ => none
  | .circuitTeardown _ _ _ => none
  | .leaseExpiry _ _ _ => none
  | .meterIdleExpiry _ _ => none
  | .holdoffExpiry _ _ => none
  | .meterDecay _ => none
  | .meterProbeTimeout _ _ => none
  | .handleProbeTimeout _ _ _ => none
  | .reservationTimeout _ => none
  | .retransmitTimeout _ _ _ _ => none
  | .ackTimer _ _ _ _ => none
  | .nackRetry _ _ _ _ _ => none
  | .hostAccessTimeout _ _ _ => none
  | .streamGranule _ => none
  | .streamComplete _ _ _ => none
  | .timelineIncrement _ _ _ => none
  | .pageWalkComplete _ _ _ => none
  | .tlbinvMarkersComplete _ => none
  | .launchLoadComplete _ => none
  | .ctxsaveComplete _ => none
  | .ctxloadComplete _ => none
  | .monitorWake _ => none
  | .mwaitTimeout _ => none
  | .monitorLoss _ => none
  | .sweeperVisit _ => none
  | .hostApertureAccess _ => none
  | .linkTrained _ _ _ _ => none
  | .quarantineRetrain _ => none
  | .linkFailure _ => none
  | .retrainWrite _ _ => none
  | .nutonRetrain _ => none
  | .syncInterval => none
  | .sync _ => none
  | .followUp _ => none
  | .delayReq _ => none
  | .delayResp _ => none
  | .announce _ => none
  | .auxPowerOn _ _ => none
  | .startupStageComplete _ => none
  | .moduleReset => none
  | .temperatureWarning _ _ _ => none
  | .criticalTemperature _ _ => none
  | .railRemoval => none
  | .getVersion _ => none
  | .getCapabilities _ => none
  | .negotiateAlgorithms _ => none
  | .getDigests _ => none
  | .getCertificate _ => none
  | .challenge _ => none
  | .getMeasurements _ => none
  | .keyExchange _ => none
  | .finish _ => none
  | .endSession _ => none
  | .spdmUnsupportedRequest _ => none
  | .pldmGetSensor _ => none
  | .debugWindowAccess _ => none
  | .debugWhistle _ => none
  | .debugRelease _ _ => none
  | .debugStep _ _ _ => none
  | .debugHaltSteward _ => none
  | .debugRestartSteward _ => none
  | .debugReset => none
  | .barrierPlaneWrite _ _ _ => none
  | .rfqServed _ _ _ _ => none
  | .rfqDead _ _ _ _ => none
  | .streamRetry _ _ _ _ => none
  | .stripStatusWrite _ _ _ _ _ => none
  | .timelineWindowWrite _ _ _ _ _ => none
  | .noticeLineSet _ _ _ => none
  | .errorLogClear _ _ _ => none
  | .traceControlWrite _ _ _ => none
  | .monitorConfigWrite _ _ _ _ _ => none
  | .routeUnitJobWrite _ _ _ => none
  | .windowWrite _ _ => none
  | .circuitDeparture _ _ => none
  | .reservedTypePacket _ _ => none
  | .healthMonitorSample _ _ _ _ _ => none

/-- The minor code that picks a constructor among those of one opcode (02 R61). -/
def minorOk : Instr → Bool
  | .fenceLocal o => o.x == 0
  | .fenceStrips o => o.x == 1
  | .traceCfg o => o.imm.extractLsb' 0 4 == 0
  | .traceMark o => o.imm.extractLsb' 0 4 == 1
  | .traceTrig o => o.imm.extractLsb' 0 4 == 2
  | .launchOpen o => o.x.extractLsb' 0 2 == 1
  | .launchGo o => o.x.extractLsb' 0 2 == 0
  | .launchReplay o => o.x.extractLsb' 0 2 == 2
  | .launchSel o => o.x.extractLsb' 0 2 == 3
  | .stepJob o => o.x == 0
  | .stepTile o => o.x == 1
  | .stepInsn o => o.x == 2
  | .mcfgWrite _ o => o.f.getLsbD 3 == false
  | .mcfgRead _ o => o.f.getLsbD 3 == true
  | .sflgOr _ o => o.imm.extractLsb' 22 2 == 0
  | .sflgGet _ o => o.imm.extractLsb' 22 2 == 1
  | .sflgClr _ o => o.imm.extractLsb' 22 2 == 2
  | .vli _ o ext => o.imm.getLsbD 17 == ext.isSome
  | _ => true

/-! ### Opcode tables -/

/-- The control-core opcodes (02 R61); `none` where none is listed or the minor code is reserved. -/
def coreOf (op : BitVec 8) (o : CoreForm) (ext : BitVec 40) : Option Instr :=
  match op.toNat with
  | 0x01 => some (.add o)
  | 0x02 => some (.sub o)
  | 0x03 => some (.mul o)
  | 0x04 => some (.mulh o)
  | 0x05 => some (.mulhn o)
  | 0x06 => some (.div o)
  | 0x07 => some (.divn o)
  | 0x08 => some (.rem o)
  | 0x09 => some (.remn o)
  | 0x0A => some (.and o)
  | 0x0B => some (.or o)
  | 0x0C => some (.xor o)
  | 0x0D => some (.andn o)
  | 0x0E => some (.shl o)
  | 0x0F => some (.shr o)
  | 0x10 => some (.sra o)
  | 0x11 => some (.rot o)
  | 0x12 => some (.min o)
  | 0x13 => some (.max o)
  | 0x14 => some (.minn o)
  | 0x15 => some (.maxn o)
  | 0x16 => some (.clz o)
  | 0x17 => some (.popc o)
  | 0x20 => some (.addi o)
  | 0x21 => some (.andi o)
  | 0x22 => some (.ori o)
  | 0x23 => some (.xori o)
  | 0x24 => some (.shli o)
  | 0x25 => some (.shri o)
  | 0x26 => some (.srai o)
  | 0x27 => some (.lui o)
  | 0x28 => some (.li o ext)
  | 0x30 => some (.cmp o)
  | 0x31 => some (.cmpi o)
  | 0x32 => some (.fcmp o)
  | 0x33 => some (.pand o)
  | 0x34 => some (.por o)
  | 0x35 => some (.pxor o)
  | 0x36 => some (.pset o)
  | 0x37 => some (.ppack o)
  | 0x38 => some (.punpk o)
  | 0x39 => some (.sel o)
  | 0x40 => some (.fadd o)
  | 0x41 => some (.fsub o)
  | 0x42 => some (.fmul o)
  | 0x43 => some (.fdiv o)
  | 0x44 => some (.fsqrt o)
  | 0x45 => some (.fma o)
  | 0x46 => some (.fms o)
  | 0x47 => some (.fmin o)
  | 0x48 => some (.fmax o)
  | 0x49 => some (.fsgn o)
  | 0x4A => some (.fcvt o)
  | 0x4B => some (.fclass o)
  | 0x50 => some (.b o)
  | 0x51 => some (.bna o)
  | 0x52 => some (.bta o)
  | 0x53 => some (.bcmp o)
  | 0x54 => some (.bcmpna o)
  | 0x55 => some (.call o)
  | 0x56 => some (.callr o)
  | 0x57 => some (.jr o)
  | 0x60 => some (.ld o)
  | 0x61 => some (.st o)
  | 0x62 => some (.ldp o)
  | 0x63 => some (.stp o)
  | 0x64 => some (.ldx o)
  | 0x70 => some (.sgo o)
  | 0x71 => some (.sstart o)
  | 0x72 => some (.sstop o)
  | 0x73 => some (.gset o)
  | 0x74 => some (.phend o)
  | 0x75 => some (.phbud o)
  | 0x76 => some (.tlsig o)
  | 0x77 => some (.tlwait o)
  | 0x78 => some (.waitt o)
  | 0x79 => some (.trap o)
  | 0x7A => some (.brk o)
  | 0x7B => some (.mfc o)
  | 0x7C => some (.mtc o)
  | 0x7D => match o.x.toNat with | 0 => some (.fenceLocal o) | 1 => some (.fenceStrips o) | _ => none
  | 0x7E => match (o.imm.extractLsb' 0 4).toNat with | 0 => some (.traceCfg o) | 1 => some (.traceMark o) | 2 => some (.traceTrig o) | _ => none
  | 0x7F => some (.tend o)
  | 0x80 => some (.tspawn o)
  | 0x81 => some (.eret o)
  | 0x88 => match (o.x.extractLsb' 0 2).toNat with | 0 => some (.launchGo o) | 1 => some (.launchOpen o) | 2 => some (.launchReplay o) | _ => some (.launchSel o)
  | 0x89 => some (.place o)
  | 0x8A => some (.ctxsave o)
  | 0x8B => some (.ctxload o)
  | 0x8C => some (.ctxsw o)
  | 0x8D => some (.tlbinv o)
  | 0x8E => some (.monitor o)
  | 0x8F => some (.mwait o)
  | 0x90 => some (.whistle o)
  | 0x91 => some (.resume o)
  | 0x92 => match o.x.toNat with | 0 => some (.stepJob o) | 1 => some (.stepTile o) | 2 => some (.stepInsn o) | _ => none
  | 0x93 => some (.bench o)
  | 0x94 => some (.errinj o)
  | 0xA0 => some (.copen o)
  | 0xA1 => some (.chold o)
  | 0xA2 => some (.cclose o)
  | 0xA3 => some (.cstat o)
  | 0xA4 => some (.rcsnap o)
  | 0xA5 => some (.rcread o)
  | 0xA6 => some (.fmset o)
  | 0xA7 => some (.fmread o)
  | 0xB0 => some (.rdcyc o)
  | 0xB1 => some (.rdtime o)
  | 0xB2 => some (.rdphase o)
  | 0xB3 => some (.histcfg o)
  | 0xB4 => some (.histrd o)
  | _ => none

/-- The access-strip opcodes (02 R61). -/
def accessOf (op : BitVec 8) (h : StripHead) (o : AXForm) : Option Instr :=
  match op.toNat with
  | 0x01 => some (.sdesc h o)
  | 0x02 => some (.srun h o)
  | 0x03 => some (.sskip h o)
  | 0x04 => some (.ald h o)
  | 0x05 => some (.aldm h o)
  | 0x06 => some (.agath h o)
  | 0x07 => some (.acopy h o)
  | 0x10 => some (.bgin h o)
  | 0x11 => some (.bgout h o)
  | 0x12 => some (.bgfill h o)
  | 0x13 => some (.bgcode h o)
  | 0x14 => some (.tpref h o)
  | 0x15 => some (.tprobe h o)
  | 0x20 => some (.xput h o)
  | 0x21 => some (.xget h o)
  | 0x22 => some (.xcir h o)
  | 0x23 => some (.xdisp h o)
  | 0x24 => some (.xcomb h o)
  | 0x25 => some (.xgath8 h o)
  | 0x26 => some (.xscat h o)
  | 0x27 => some (.xred h o)
  | 0x28 => some (.xsend h o)
  | 0x29 => some (.xland h o)
  | 0x30 => some (.aadd h o)
  | 0x31 => some (.afadd h o)
  | 0x32 => some (.abfadd h o)
  | 0x33 => some (.amin h o)
  | 0x34 => some (.amax h o)
  | 0x35 => some (.aand h o)
  | 0x36 => some (.aor h o)
  | 0x37 => some (.axor h o)
  | 0x38 => some (.axchg h o)
  | 0x39 => some (.acas h o)
  | _ => none

/-- The matrix-strip opcodes (02 R61). -/
def matrixOf (op : BitVec 8) (h : StripHead) (o : MXForm) : Option Instr :=
  match op.toNat with
  | 0x01 => some (.wld h o)
  | 0x02 => some (.wlds h o)
  | 0x03 => some (.wldg h o)
  | 0x04 => some (.mma h o)
  | 0x05 => some (.mmas h o)
  | 0x06 => some (.mmaz h o)
  | 0x07 => some (.aclr h o)
  | 0x08 => some (.adrn h o)
  | 0x09 => some (.alda h o)
  | 0x0A => some (.mscan h o)
  | 0x0B => some (.mscanc h o)
  | 0x0C => some (.mscanr h o)
  | 0x0D => some (.hld h o)
  | 0x0E => some (.hst h o)
  | 0x0F => some (.hclr h o)
  | 0x10 => if o.f.getLsbD 3 then some (.mcfgRead h o) else some (.mcfgWrite h o)
  | 0x11 => some (.mxcnt h o)
  | _ => none

/-- The vector-strip opcodes (02 R61). -/
def vectorOf (op : BitVec 8) (h : StripHead) (w : Slot) (ext : BitVec 32) : Option Instr :=
  match op.toNat with
  | 0x01 => some (.vadd h (unpackVR w))
  | 0x02 => some (.vsub h (unpackVR w))
  | 0x03 => some (.vmul h (unpackVR w))
  | 0x04 => some (.vfma h (unpackVR w))
  | 0x05 => some (.vfms h (unpackVR w))
  | 0x06 => some (.vfnma h (unpackVR w))
  | 0x07 => some (.vdiv h (unpackVR w))
  | 0x08 => some (.vsqrt h (unpackVR w))
  | 0x09 => some (.vrsq h (unpackVR w))
  | 0x0A => some (.vrcp h (unpackVR w))
  | 0x0B => some (.vmin h (unpackVR w))
  | 0x0C => some (.vmax h (unpackVR w))
  | 0x0D => some (.vabs h (unpackVR w))
  | 0x0E => some (.vneg h (unpackVR w))
  | 0x10 => some (.vand h (unpackVR w))
  | 0x11 => some (.vor h (unpackVR w))
  | 0x12 => some (.vxor h (unpackVR w))
  | 0x13 => some (.vnot h (unpackVR w))
  | 0x14 => some (.vshl h (unpackVR w))
  | 0x15 => some (.vshr h (unpackVR w))
  | 0x16 => some (.vsra h (unpackVR w))
  | 0x17 => some (.vpopc h (unpackVR w))
  | 0x18 => some (.vclz h (unpackVR w))
  | 0x19 => some (.vmulh h (unpackVR w))
  | 0x20 => some (.vexp h (unpackVR w))
  | 0x21 => some (.vexp2 h (unpackVR w))
  | 0x22 => some (.vlog h (unpackVR w))
  | 0x23 => some (.vlog2 h (unpackVR w))
  | 0x24 => some (.vtanh h (unpackVR w))
  | 0x25 => some (.vsigm h (unpackVR w))
  | 0x26 => some (.vsilu h (unpackVR w))
  | 0x27 => some (.vgelu h (unpackVR w))
  | 0x30 => some (.vcmp h (unpackVR w))
  | 0x31 => some (.vsel h (unpackVR w))
  | 0x32 => some (.vmand h (unpackVR w))
  | 0x33 => some (.vmor h (unpackVR w))
  | 0x34 => some (.vmxor h (unpackVR w))
  | 0x35 => some (.vmnot h (unpackVR w))
  | 0x36 => some (.vmpop h (unpackVR w))
  | 0x37 => some (.vthc h (unpackVR w))
  | 0x38 => some (.vths h (unpackVR w))
  | 0x40 => some (.vcvt h (unpackVR w))
  | 0x41 => some (.vpack h (unpackVR w))
  | 0x42 => some (.vunpk h (unpackVR w))
  | 0x43 => some (.vqnt h (unpackVR w))
  | 0x44 => some (.vscl h (unpackVR w))
  | 0x50 => some (.vrsum h (unpackVR w))
  | 0x51 => some (.vrmax h (unpackVR w))
  | 0x52 => some (.vrmin h (unpackVR w))
  | 0x53 => some (.vrarg h (unpackVR w))
  | 0x54 => some (.vscan h (unpackVR w))
  | 0x55 => some (.vperm h (unpackVR w))
  | 0x56 => some (.vbcast h (unpackVR w))
  | 0x57 => some (.vrot h (unpackVI w))
  | 0x58 => some (.viota h (unpackVI w))
  | 0x60 => some (.vmov h (unpackVR w))
  | 0x61 => some (.vli h (unpackVI w) (if (unpackVI w).imm.getLsbD 17 then some ext else none))
  | 0x62 => some (.vget h (unpackVI w))
  | 0x63 => some (.vput h (unpackVI w))
  | 0x64 => some (.vbind h (unpackVI w))
  | _ => none

/-- The writeback-strip opcodes (02 R61). -/
def writebackOf (op : BitVec 8) (h : StripHead) (o : AXForm) : Option Instr :=
  match op.toNat with
  | 0x01 => some (.wst h o)
  | 0x02 => some (.wacc h o)
  | 0x03 => some (.wscat h o)
  | 0x04 => some (.wdsc h o)
  | _ => none

/-- The common strip opcodes, valid in engines 1 to 4 (02 R61). -/
def commonOf (op : BitVec 8) (h : StripHead) (o : CMForm) : Option Instr :=
  match op.toNat with
  | 0xF0 => some (.sidle h o)
  | 0xF1 => some (.send h o)
  | 0xF2 => some (.smark h o)
  | 0xF3 => match (o.imm.extractLsb' 22 2).toNat with | 0 => some (.sflgOr h o) | 1 => some (.sflgGet h o) | 2 => some (.sflgClr h o) | _ => none
  | _ => none

/-- The instruction that engine `eng` reads from a slot, with `ext` the bits of its extension slot. -/
def instrOf (eng : Nat) (w : Slot) (ext : BitVec 40) : Option Instr :=
  let op := w.op
  let h := unpackHead w
  match eng with
  | 0 => coreOf op (unpackCore w) ext
  | 1 => if 0xF0 ≤ op.toNat then commonOf op h (unpackCM w) else accessOf op h (unpackAX w)
  | 2 => if 0xF0 ≤ op.toNat then commonOf op h (unpackCM w) else matrixOf op h (unpackMX w)
  | 3 => if 0xF0 ≤ op.toNat then commonOf op h (unpackCM w) else vectorOf op h w (ext.setWidth 32)
  | 4 => if 0xF0 ≤ op.toNat then commonOf op h (unpackCM w) else writebackOf op h (unpackAX w)
  | _ => none

/-- Opcodes that are listed although one of their minor codes names no instruction: FENCE, TRACE, STEP, SFLG. -/
def reservedMinor (eng : Nat) (op : BitVec 8) : Bool :=
  if eng = 0 then op == 0x7D || op == 0x7E || op == 0x92 else op == 0xF3

/-- The privileged control-core opcodes (02 R61). -/
def privilegedOp (eng : Nat) (op : BitVec 8) : Bool :=
  eng == 0 && ((decide (0x88 ≤ op.toNat) && decide (op.toNat ≤ 0x94)) || op == 0xA6)

/-- A two-slot opcode: LI, and VLI with IMM18[17] set (02 R47). -/
def isTwoSlot (eng : Nat) (w : Slot) : Bool :=
  (eng == 0 && w.op == 0x28) || (eng == 3 && w.op == 0x61 && w.getLsbD 17)

/-- The bits of an extension slot that must be zero (02 R48). -/
def extensionOk (eng : Nat) (e : Slot) : Bool :=
  if eng = 0 then e.extractLsb' 40 12 == 0 else e.extractLsb' 32 20 == 0

/-- What engine `eng` reads from the slot `w`, `nxt` being the valid slot after it in its line, in a steward or in a tile
context: the instruction, or the fate of R63 that comes first in the order of R64. -/
def decodeSlot (steward : Bool) (eng : Nat) (w : Slot) (nxt : Option Slot) : Decoded :=
  let two := isTwoSlot eng w
  let ext : Slot := nxt.getD 0
  let i := instrOf eng w (ext.extractLsb' 0 40)
  if w.op == 0xFF then .bad (.illegal 5)
  else if i.isNone && !reservedMinor eng w.op then .bad (.illegal 0)
  else if two && (nxt.isNone || ext.op != 0xFF) then .bad (.illegal 4)
  else if privilegedOp eng w.op && !steward then .bad .privileged
  else if two && !extensionOk eng ext then .bad .field
  else match i with
    | none => .bad .operand
    | some i => match fate i with
      | none => .instr i
      | some f => .bad f

/-- The slots of an instruction: its slot and the extension slot of a two-slot form; `none` for an event, which has no
encoding. -/
def encode : Instr → Option (Slot × Option Slot)
  | .add o => some (packCore 0x01 o, none)
  | .sub o => some (packCore 0x02 o, none)
  | .mul o => some (packCore 0x03 o, none)
  | .mulh o => some (packCore 0x04 o, none)
  | .mulhn o => some (packCore 0x05 o, none)
  | .div o => some (packCore 0x06 o, none)
  | .divn o => some (packCore 0x07 o, none)
  | .rem o => some (packCore 0x08 o, none)
  | .remn o => some (packCore 0x09 o, none)
  | .and o => some (packCore 0x0A o, none)
  | .or o => some (packCore 0x0B o, none)
  | .xor o => some (packCore 0x0C o, none)
  | .andn o => some (packCore 0x0D o, none)
  | .shl o => some (packCore 0x0E o, none)
  | .shr o => some (packCore 0x0F o, none)
  | .sra o => some (packCore 0x10 o, none)
  | .rot o => some (packCore 0x11 o, none)
  | .min o => some (packCore 0x12 o, none)
  | .max o => some (packCore 0x13 o, none)
  | .minn o => some (packCore 0x14 o, none)
  | .maxn o => some (packCore 0x15 o, none)
  | .clz o => some (packCore 0x16 o, none)
  | .popc o => some (packCore 0x17 o, none)
  | .addi o => some (packCore 0x20 o, none)
  | .andi o => some (packCore 0x21 o, none)
  | .ori o => some (packCore 0x22 o, none)
  | .xori o => some (packCore 0x23 o, none)
  | .shli o => some (packCore 0x24 o, none)
  | .shri o => some (packCore 0x25 o, none)
  | .srai o => some (packCore 0x26 o, none)
  | .lui o => some (packCore 0x27 o, none)
  | .li o ext => some (packCore 0x28 o, some (packExtension (ext.setWidth 52)))
  | .cmp o => some (packCore 0x30 o, none)
  | .cmpi o => some (packCore 0x31 o, none)
  | .fcmp o => some (packCore 0x32 o, none)
  | .pand o => some (packCore 0x33 o, none)
  | .por o => some (packCore 0x34 o, none)
  | .pxor o => some (packCore 0x35 o, none)
  | .pset o => some (packCore 0x36 o, none)
  | .ppack o => some (packCore 0x37 o, none)
  | .punpk o => some (packCore 0x38 o, none)
  | .sel o => some (packCore 0x39 o, none)
  | .fadd o => some (packCore 0x40 o, none)
  | .fsub o => some (packCore 0x41 o, none)
  | .fmul o => some (packCore 0x42 o, none)
  | .fdiv o => some (packCore 0x43 o, none)
  | .fsqrt o => some (packCore 0x44 o, none)
  | .fma o => some (packCore 0x45 o, none)
  | .fms o => some (packCore 0x46 o, none)
  | .fmin o => some (packCore 0x47 o, none)
  | .fmax o => some (packCore 0x48 o, none)
  | .fsgn o => some (packCore 0x49 o, none)
  | .fcvt o => some (packCore 0x4A o, none)
  | .fclass o => some (packCore 0x4B o, none)
  | .b o => some (packCore 0x50 o, none)
  | .bna o => some (packCore 0x51 o, none)
  | .bta o => some (packCore 0x52 o, none)
  | .bcmp o => some (packCore 0x53 o, none)
  | .bcmpna o => some (packCore 0x54 o, none)
  | .call o => some (packCore 0x55 o, none)
  | .callr o => some (packCore 0x56 o, none)
  | .jr o => some (packCore 0x57 o, none)
  | .ld o => some (packCore 0x60 o, none)
  | .st o => some (packCore 0x61 o, none)
  | .ldp o => some (packCore 0x62 o, none)
  | .stp o => some (packCore 0x63 o, none)
  | .ldx o => some (packCore 0x64 o, none)
  | .sgo o => some (packCore 0x70 o, none)
  | .sstart o => some (packCore 0x71 o, none)
  | .sstop o => some (packCore 0x72 o, none)
  | .gset o => some (packCore 0x73 o, none)
  | .phend o => some (packCore 0x74 o, none)
  | .phbud o => some (packCore 0x75 o, none)
  | .tlsig o => some (packCore 0x76 o, none)
  | .tlwait o => some (packCore 0x77 o, none)
  | .waitt o => some (packCore 0x78 o, none)
  | .trap o => some (packCore 0x79 o, none)
  | .brk o => some (packCore 0x7A o, none)
  | .mfc o => some (packCore 0x7B o, none)
  | .mtc o => some (packCore 0x7C o, none)
  | .fenceLocal o => some (packCore 0x7D o, none)
  | .fenceStrips o => some (packCore 0x7D o, none)
  | .traceCfg o => some (packCore 0x7E o, none)
  | .traceMark o => some (packCore 0x7E o, none)
  | .traceTrig o => some (packCore 0x7E o, none)
  | .tend o => some (packCore 0x7F o, none)
  | .tspawn o => some (packCore 0x80 o, none)
  | .eret o => some (packCore 0x81 o, none)
  | .launchOpen o => some (packCore 0x88 o, none)
  | .launchGo o => some (packCore 0x88 o, none)
  | .launchReplay o => some (packCore 0x88 o, none)
  | .launchSel o => some (packCore 0x88 o, none)
  | .place o => some (packCore 0x89 o, none)
  | .ctxsave o => some (packCore 0x8A o, none)
  | .ctxload o => some (packCore 0x8B o, none)
  | .ctxsw o => some (packCore 0x8C o, none)
  | .tlbinv o => some (packCore 0x8D o, none)
  | .monitor o => some (packCore 0x8E o, none)
  | .mwait o => some (packCore 0x8F o, none)
  | .whistle o => some (packCore 0x90 o, none)
  | .resume o => some (packCore 0x91 o, none)
  | .stepJob o => some (packCore 0x92 o, none)
  | .stepTile o => some (packCore 0x92 o, none)
  | .stepInsn o => some (packCore 0x92 o, none)
  | .bench o => some (packCore 0x93 o, none)
  | .errinj o => some (packCore 0x94 o, none)
  | .copen o => some (packCore 0xA0 o, none)
  | .chold o => some (packCore 0xA1 o, none)
  | .cclose o => some (packCore 0xA2 o, none)
  | .cstat o => some (packCore 0xA3 o, none)
  | .rcsnap o => some (packCore 0xA4 o, none)
  | .rcread o => some (packCore 0xA5 o, none)
  | .fmset o => some (packCore 0xA6 o, none)
  | .fmread o => some (packCore 0xA7 o, none)
  | .rdcyc o => some (packCore 0xB0 o, none)
  | .rdtime o => some (packCore 0xB1 o, none)
  | .rdphase o => some (packCore 0xB2 o, none)
  | .histcfg o => some (packCore 0xB3 o, none)
  | .histrd o => some (packCore 0xB4 o, none)
  | .sdesc h o => some (packAX 0x01 h o, none)
  | .srun h o => some (packAX 0x02 h o, none)
  | .sskip h o => some (packAX 0x03 h o, none)
  | .ald h o => some (packAX 0x04 h o, none)
  | .aldm h o => some (packAX 0x05 h o, none)
  | .agath h o => some (packAX 0x06 h o, none)
  | .acopy h o => some (packAX 0x07 h o, none)
  | .bgin h o => some (packAX 0x10 h o, none)
  | .bgout h o => some (packAX 0x11 h o, none)
  | .bgfill h o => some (packAX 0x12 h o, none)
  | .bgcode h o => some (packAX 0x13 h o, none)
  | .tpref h o => some (packAX 0x14 h o, none)
  | .tprobe h o => some (packAX 0x15 h o, none)
  | .xput h o => some (packAX 0x20 h o, none)
  | .xget h o => some (packAX 0x21 h o, none)
  | .xcir h o => some (packAX 0x22 h o, none)
  | .xdisp h o => some (packAX 0x23 h o, none)
  | .xcomb h o => some (packAX 0x24 h o, none)
  | .xgath8 h o => some (packAX 0x25 h o, none)
  | .xscat h o => some (packAX 0x26 h o, none)
  | .xred h o => some (packAX 0x27 h o, none)
  | .xsend h o => some (packAX 0x28 h o, none)
  | .xland h o => some (packAX 0x29 h o, none)
  | .aadd h o => some (packAX 0x30 h o, none)
  | .afadd h o => some (packAX 0x31 h o, none)
  | .abfadd h o => some (packAX 0x32 h o, none)
  | .amin h o => some (packAX 0x33 h o, none)
  | .amax h o => some (packAX 0x34 h o, none)
  | .aand h o => some (packAX 0x35 h o, none)
  | .aor h o => some (packAX 0x36 h o, none)
  | .axor h o => some (packAX 0x37 h o, none)
  | .axchg h o => some (packAX 0x38 h o, none)
  | .acas h o => some (packAX 0x39 h o, none)
  | .wld h o => some (packMX 0x01 h o, none)
  | .wlds h o => some (packMX 0x02 h o, none)
  | .wldg h o => some (packMX 0x03 h o, none)
  | .mma h o => some (packMX 0x04 h o, none)
  | .mmas h o => some (packMX 0x05 h o, none)
  | .mmaz h o => some (packMX 0x06 h o, none)
  | .aclr h o => some (packMX 0x07 h o, none)
  | .adrn h o => some (packMX 0x08 h o, none)
  | .alda h o => some (packMX 0x09 h o, none)
  | .mscan h o => some (packMX 0x0A h o, none)
  | .mscanc h o => some (packMX 0x0B h o, none)
  | .mscanr h o => some (packMX 0x0C h o, none)
  | .hld h o => some (packMX 0x0D h o, none)
  | .hst h o => some (packMX 0x0E h o, none)
  | .hclr h o => some (packMX 0x0F h o, none)
  | .mcfgWrite h o => some (packMX 0x10 h o, none)
  | .mcfgRead h o => some (packMX 0x10 h o, none)
  | .mxcnt h o => some (packMX 0x11 h o, none)
  | .vadd h o => some (packVR 0x01 h o, none)
  | .vsub h o => some (packVR 0x02 h o, none)
  | .vmul h o => some (packVR 0x03 h o, none)
  | .vfma h o => some (packVR 0x04 h o, none)
  | .vfms h o => some (packVR 0x05 h o, none)
  | .vfnma h o => some (packVR 0x06 h o, none)
  | .vdiv h o => some (packVR 0x07 h o, none)
  | .vsqrt h o => some (packVR 0x08 h o, none)
  | .vrsq h o => some (packVR 0x09 h o, none)
  | .vrcp h o => some (packVR 0x0A h o, none)
  | .vmin h o => some (packVR 0x0B h o, none)
  | .vmax h o => some (packVR 0x0C h o, none)
  | .vabs h o => some (packVR 0x0D h o, none)
  | .vneg h o => some (packVR 0x0E h o, none)
  | .vand h o => some (packVR 0x10 h o, none)
  | .vor h o => some (packVR 0x11 h o, none)
  | .vxor h o => some (packVR 0x12 h o, none)
  | .vnot h o => some (packVR 0x13 h o, none)
  | .vshl h o => some (packVR 0x14 h o, none)
  | .vshr h o => some (packVR 0x15 h o, none)
  | .vsra h o => some (packVR 0x16 h o, none)
  | .vpopc h o => some (packVR 0x17 h o, none)
  | .vclz h o => some (packVR 0x18 h o, none)
  | .vmulh h o => some (packVR 0x19 h o, none)
  | .vexp h o => some (packVR 0x20 h o, none)
  | .vexp2 h o => some (packVR 0x21 h o, none)
  | .vlog h o => some (packVR 0x22 h o, none)
  | .vlog2 h o => some (packVR 0x23 h o, none)
  | .vtanh h o => some (packVR 0x24 h o, none)
  | .vsigm h o => some (packVR 0x25 h o, none)
  | .vsilu h o => some (packVR 0x26 h o, none)
  | .vgelu h o => some (packVR 0x27 h o, none)
  | .vcmp h o => some (packVR 0x30 h o, none)
  | .vsel h o => some (packVR 0x31 h o, none)
  | .vmand h o => some (packVR 0x32 h o, none)
  | .vmor h o => some (packVR 0x33 h o, none)
  | .vmxor h o => some (packVR 0x34 h o, none)
  | .vmnot h o => some (packVR 0x35 h o, none)
  | .vmpop h o => some (packVR 0x36 h o, none)
  | .vthc h o => some (packVR 0x37 h o, none)
  | .vths h o => some (packVR 0x38 h o, none)
  | .vcvt h o => some (packVR 0x40 h o, none)
  | .vpack h o => some (packVR 0x41 h o, none)
  | .vunpk h o => some (packVR 0x42 h o, none)
  | .vqnt h o => some (packVR 0x43 h o, none)
  | .vscl h o => some (packVR 0x44 h o, none)
  | .vrsum h o => some (packVR 0x50 h o, none)
  | .vrmax h o => some (packVR 0x51 h o, none)
  | .vrmin h o => some (packVR 0x52 h o, none)
  | .vrarg h o => some (packVR 0x53 h o, none)
  | .vscan h o => some (packVR 0x54 h o, none)
  | .vperm h o => some (packVR 0x55 h o, none)
  | .vbcast h o => some (packVR 0x56 h o, none)
  | .vrot h o => some (packVI 0x57 h o, none)
  | .viota h o => some (packVI 0x58 h o, none)
  | .vmov h o => some (packVR 0x60 h o, none)
  | .vli h o ext => some (packVI 0x61 h o, ext.map fun e => packExtension (e.setWidth 52))
  | .vget h o => some (packVI 0x62 h o, none)
  | .vput h o => some (packVI 0x63 h o, none)
  | .vbind h o => some (packVI 0x64 h o, none)
  | .wst h o => some (packAX 0x01 h o, none)
  | .wacc h o => some (packAX 0x02 h o, none)
  | .wscat h o => some (packAX 0x03 h o, none)
  | .wdsc h o => some (packAX 0x04 h o, none)
  | .sidle h o => some (packCM 0xF0 h o, none)
  | .send h o => some (packCM 0xF1 h o, none)
  | .smark h o => some (packCM 0xF2 h o, none)
  | .sflgOr h o => some (packCM 0xF3 h o, none)
  | .sflgGet h o => some (packCM 0xF3 h o, none)
  | .sflgClr h o => some (packCM 0xF3 h o, none)
  | .microStep _ _ => none
  | .pipelinedResultWrite _ _ _ _ _ _ => none
  | .vectorResultLands _ _ _ _ _ _ _ _ => none
  | .accumulatorEntry _ _ _ => none
  | .wloadEntry _ => none
  | .latchValid _ _ => none
  | .latchRestoreComplete _ => none
  | .rowBufferDrain _ _ => none
  | .eccWriteback _ => none
  | .asyncTrapDelivery _ _ => none
  | .boundaryConditionsMet _ => none
  | .minimumPairExpiry _ => none
  | .timedBoundaryTime _ => none
  | .boundarySequence _ => none
  | .startPulseArrival _ _ => none
  | .stragglerFault _ => none
  | .deadlineFault _ _ => none
  | .hangFault _ _ _ => none
  | .waveReachesTile _ _ => none
  | .causeSettle _ => none
  | .tileRelease _ _ => none
  | .stepRefreeze _ _ => none
  | .stepTimeout _ _ => none
  | .write _ => none
  | .writem _ => none
  | .read _ => none
  | .rreply _ => none
  | .cread _ => none
  | .creply _ => none
  | .rcount _ => none
  | .rslot _ => none
  | .atom _ => none
  | .ares _ => none
  | .red _ => none
  | .reductionDelivery _ => none
  | .ack _ => none
  | .nack _ => none
  | .probe _ => none
  | .back _ => none
  | .ready _ => none
  | .fail _ => none
  | .cmark _ => none
  | .creport _ => none
  | .fault _ => none
  | .free _ => none
  | .barrier _ => none
  | .whistleFreeze _ => none
  | .whistleResume _ => none
  | .whistleJobStep _ => none
  | .circuitBeat _ _ _ _ _ _ => none
  | .circuitTeardown _ _ _ => none
  | .leaseExpiry _ _ _ => none
  | .meterIdleExpiry _ _ => none
  | .holdoffExpiry _ _ => none
  | .meterDecay _ => none
  | .meterProbeTimeout _ _ => none
  | .handleProbeTimeout _ _ _ => none
  | .reservationTimeout _ => none
  | .retransmitTimeout _ _ _ _ => none
  | .ackTimer _ _ _ _ => none
  | .nackRetry _ _ _ _ _ => none
  | .hostAccessTimeout _ _ _ => none
  | .streamGranule _ => none
  | .streamComplete _ _ _ => none
  | .timelineIncrement _ _ _ => none
  | .pageWalkComplete _ _ _ => none
  | .tlbinvMarkersComplete _ => none
  | .launchLoadComplete _ => none
  | .ctxsaveComplete _ => none
  | .ctxloadComplete _ => none
  | .monitorWake _ => none
  | .mwaitTimeout _ => none
  | .monitorLoss _ => none
  | .sweeperVisit _ => none
  | .hostApertureAccess _ => none
  | .linkTrained _ _ _ _ => none
  | .quarantineRetrain _ => none
  | .linkFailure _ => none
  | .retrainWrite _ _ => none
  | .nutonRetrain _ => none
  | .syncInterval => none
  | .sync _ => none
  | .followUp _ => none
  | .delayReq _ => none
  | .delayResp _ => none
  | .announce _ => none
  | .auxPowerOn _ _ => none
  | .startupStageComplete _ => none
  | .moduleReset => none
  | .temperatureWarning _ _ _ => none
  | .criticalTemperature _ _ => none
  | .railRemoval => none
  | .getVersion _ => none
  | .getCapabilities _ => none
  | .negotiateAlgorithms _ => none
  | .getDigests _ => none
  | .getCertificate _ => none
  | .challenge _ => none
  | .getMeasurements _ => none
  | .keyExchange _ => none
  | .finish _ => none
  | .endSession _ => none
  | .spdmUnsupportedRequest _ => none
  | .pldmGetSensor _ => none
  | .debugWindowAccess _ => none
  | .debugWhistle _ => none
  | .debugRelease _ _ => none
  | .debugStep _ _ _ => none
  | .debugHaltSteward _ => none
  | .debugRestartSteward _ => none
  | .debugReset => none
  | .barrierPlaneWrite _ _ _ => none
  | .rfqServed _ _ _ _ => none
  | .rfqDead _ _ _ _ => none
  | .streamRetry _ _ _ _ => none
  | .stripStatusWrite _ _ _ _ _ => none
  | .timelineWindowWrite _ _ _ _ _ => none
  | .noticeLineSet _ _ _ => none
  | .errorLogClear _ _ _ => none
  | .traceControlWrite _ _ _ => none
  | .monitorConfigWrite _ _ _ _ _ => none
  | .routeUnitJobWrite _ _ _ => none
  | .windowWrite _ _ => none
  | .circuitDeparture _ _ => none
  | .reservedTypePacket _ _ => none
  | .healthMonitorSample _ _ _ _ _ => none

/-- The engine that an instruction belongs to; `none` for the common strip forms (any of 1 to 4) and for events. -/
def engineOf : Instr → Option Nat
  | .add _ => some 0
  | .sub _ => some 0
  | .mul _ => some 0
  | .mulh _ => some 0
  | .mulhn _ => some 0
  | .div _ => some 0
  | .divn _ => some 0
  | .rem _ => some 0
  | .remn _ => some 0
  | .and _ => some 0
  | .or _ => some 0
  | .xor _ => some 0
  | .andn _ => some 0
  | .shl _ => some 0
  | .shr _ => some 0
  | .sra _ => some 0
  | .rot _ => some 0
  | .min _ => some 0
  | .max _ => some 0
  | .minn _ => some 0
  | .maxn _ => some 0
  | .clz _ => some 0
  | .popc _ => some 0
  | .addi _ => some 0
  | .andi _ => some 0
  | .ori _ => some 0
  | .xori _ => some 0
  | .shli _ => some 0
  | .shri _ => some 0
  | .srai _ => some 0
  | .lui _ => some 0
  | .li _ _ => some 0
  | .cmp _ => some 0
  | .cmpi _ => some 0
  | .fcmp _ => some 0
  | .pand _ => some 0
  | .por _ => some 0
  | .pxor _ => some 0
  | .pset _ => some 0
  | .ppack _ => some 0
  | .punpk _ => some 0
  | .sel _ => some 0
  | .fadd _ => some 0
  | .fsub _ => some 0
  | .fmul _ => some 0
  | .fdiv _ => some 0
  | .fsqrt _ => some 0
  | .fma _ => some 0
  | .fms _ => some 0
  | .fmin _ => some 0
  | .fmax _ => some 0
  | .fsgn _ => some 0
  | .fcvt _ => some 0
  | .fclass _ => some 0
  | .b _ => some 0
  | .bna _ => some 0
  | .bta _ => some 0
  | .bcmp _ => some 0
  | .bcmpna _ => some 0
  | .call _ => some 0
  | .callr _ => some 0
  | .jr _ => some 0
  | .ld _ => some 0
  | .st _ => some 0
  | .ldp _ => some 0
  | .stp _ => some 0
  | .ldx _ => some 0
  | .sgo _ => some 0
  | .sstart _ => some 0
  | .sstop _ => some 0
  | .gset _ => some 0
  | .phend _ => some 0
  | .phbud _ => some 0
  | .tlsig _ => some 0
  | .tlwait _ => some 0
  | .waitt _ => some 0
  | .trap _ => some 0
  | .brk _ => some 0
  | .mfc _ => some 0
  | .mtc _ => some 0
  | .fenceLocal _ => some 0
  | .fenceStrips _ => some 0
  | .traceCfg _ => some 0
  | .traceMark _ => some 0
  | .traceTrig _ => some 0
  | .tend _ => some 0
  | .tspawn _ => some 0
  | .eret _ => some 0
  | .launchOpen _ => some 0
  | .launchGo _ => some 0
  | .launchReplay _ => some 0
  | .launchSel _ => some 0
  | .place _ => some 0
  | .ctxsave _ => some 0
  | .ctxload _ => some 0
  | .ctxsw _ => some 0
  | .tlbinv _ => some 0
  | .monitor _ => some 0
  | .mwait _ => some 0
  | .whistle _ => some 0
  | .resume _ => some 0
  | .stepJob _ => some 0
  | .stepTile _ => some 0
  | .stepInsn _ => some 0
  | .bench _ => some 0
  | .errinj _ => some 0
  | .copen _ => some 0
  | .chold _ => some 0
  | .cclose _ => some 0
  | .cstat _ => some 0
  | .rcsnap _ => some 0
  | .rcread _ => some 0
  | .fmset _ => some 0
  | .fmread _ => some 0
  | .rdcyc _ => some 0
  | .rdtime _ => some 0
  | .rdphase _ => some 0
  | .histcfg _ => some 0
  | .histrd _ => some 0
  | .sdesc _ _ => some 1
  | .srun _ _ => some 1
  | .sskip _ _ => some 1
  | .ald _ _ => some 1
  | .aldm _ _ => some 1
  | .agath _ _ => some 1
  | .acopy _ _ => some 1
  | .bgin _ _ => some 1
  | .bgout _ _ => some 1
  | .bgfill _ _ => some 1
  | .bgcode _ _ => some 1
  | .tpref _ _ => some 1
  | .tprobe _ _ => some 1
  | .xput _ _ => some 1
  | .xget _ _ => some 1
  | .xcir _ _ => some 1
  | .xdisp _ _ => some 1
  | .xcomb _ _ => some 1
  | .xgath8 _ _ => some 1
  | .xscat _ _ => some 1
  | .xred _ _ => some 1
  | .xsend _ _ => some 1
  | .xland _ _ => some 1
  | .aadd _ _ => some 1
  | .afadd _ _ => some 1
  | .abfadd _ _ => some 1
  | .amin _ _ => some 1
  | .amax _ _ => some 1
  | .aand _ _ => some 1
  | .aor _ _ => some 1
  | .axor _ _ => some 1
  | .axchg _ _ => some 1
  | .acas _ _ => some 1
  | .wld _ _ => some 2
  | .wlds _ _ => some 2
  | .wldg _ _ => some 2
  | .mma _ _ => some 2
  | .mmas _ _ => some 2
  | .mmaz _ _ => some 2
  | .aclr _ _ => some 2
  | .adrn _ _ => some 2
  | .alda _ _ => some 2
  | .mscan _ _ => some 2
  | .mscanc _ _ => some 2
  | .mscanr _ _ => some 2
  | .hld _ _ => some 2
  | .hst _ _ => some 2
  | .hclr _ _ => some 2
  | .mcfgWrite _ _ => some 2
  | .mcfgRead _ _ => some 2
  | .mxcnt _ _ => some 2
  | .vadd _ _ => some 3
  | .vsub _ _ => some 3
  | .vmul _ _ => some 3
  | .vfma _ _ => some 3
  | .vfms _ _ => some 3
  | .vfnma _ _ => some 3
  | .vdiv _ _ => some 3
  | .vsqrt _ _ => some 3
  | .vrsq _ _ => some 3
  | .vrcp _ _ => some 3
  | .vmin _ _ => some 3
  | .vmax _ _ => some 3
  | .vabs _ _ => some 3
  | .vneg _ _ => some 3
  | .vand _ _ => some 3
  | .vor _ _ => some 3
  | .vxor _ _ => some 3
  | .vnot _ _ => some 3
  | .vshl _ _ => some 3
  | .vshr _ _ => some 3
  | .vsra _ _ => some 3
  | .vpopc _ _ => some 3
  | .vclz _ _ => some 3
  | .vmulh _ _ => some 3
  | .vexp _ _ => some 3
  | .vexp2 _ _ => some 3
  | .vlog _ _ => some 3
  | .vlog2 _ _ => some 3
  | .vtanh _ _ => some 3
  | .vsigm _ _ => some 3
  | .vsilu _ _ => some 3
  | .vgelu _ _ => some 3
  | .vcmp _ _ => some 3
  | .vsel _ _ => some 3
  | .vmand _ _ => some 3
  | .vmor _ _ => some 3
  | .vmxor _ _ => some 3
  | .vmnot _ _ => some 3
  | .vmpop _ _ => some 3
  | .vthc _ _ => some 3
  | .vths _ _ => some 3
  | .vcvt _ _ => some 3
  | .vpack _ _ => some 3
  | .vunpk _ _ => some 3
  | .vqnt _ _ => some 3
  | .vscl _ _ => some 3
  | .vrsum _ _ => some 3
  | .vrmax _ _ => some 3
  | .vrmin _ _ => some 3
  | .vrarg _ _ => some 3
  | .vscan _ _ => some 3
  | .vperm _ _ => some 3
  | .vbcast _ _ => some 3
  | .vrot _ _ => some 3
  | .viota _ _ => some 3
  | .vmov _ _ => some 3
  | .vli _ _ _ => some 3
  | .vget _ _ => some 3
  | .vput _ _ => some 3
  | .vbind _ _ => some 3
  | .wst _ _ => some 4
  | .wacc _ _ => some 4
  | .wscat _ _ => some 4
  | .wdsc _ _ => some 4
  | .sidle _ _ => none
  | .send _ _ => none
  | .smark _ _ => none
  | .sflgOr _ _ => none
  | .sflgGet _ _ => none
  | .sflgClr _ _ => none
  | .microStep _ _ => none
  | .pipelinedResultWrite _ _ _ _ _ _ => none
  | .vectorResultLands _ _ _ _ _ _ _ _ => none
  | .accumulatorEntry _ _ _ => none
  | .wloadEntry _ => none
  | .latchValid _ _ => none
  | .latchRestoreComplete _ => none
  | .rowBufferDrain _ _ => none
  | .eccWriteback _ => none
  | .asyncTrapDelivery _ _ => none
  | .boundaryConditionsMet _ => none
  | .minimumPairExpiry _ => none
  | .timedBoundaryTime _ => none
  | .boundarySequence _ => none
  | .startPulseArrival _ _ => none
  | .stragglerFault _ => none
  | .deadlineFault _ _ => none
  | .hangFault _ _ _ => none
  | .waveReachesTile _ _ => none
  | .causeSettle _ => none
  | .tileRelease _ _ => none
  | .stepRefreeze _ _ => none
  | .stepTimeout _ _ => none
  | .write _ => none
  | .writem _ => none
  | .read _ => none
  | .rreply _ => none
  | .cread _ => none
  | .creply _ => none
  | .rcount _ => none
  | .rslot _ => none
  | .atom _ => none
  | .ares _ => none
  | .red _ => none
  | .reductionDelivery _ => none
  | .ack _ => none
  | .nack _ => none
  | .probe _ => none
  | .back _ => none
  | .ready _ => none
  | .fail _ => none
  | .cmark _ => none
  | .creport _ => none
  | .fault _ => none
  | .free _ => none
  | .barrier _ => none
  | .whistleFreeze _ => none
  | .whistleResume _ => none
  | .whistleJobStep _ => none
  | .circuitBeat _ _ _ _ _ _ => none
  | .circuitTeardown _ _ _ => none
  | .leaseExpiry _ _ _ => none
  | .meterIdleExpiry _ _ => none
  | .holdoffExpiry _ _ => none
  | .meterDecay _ => none
  | .meterProbeTimeout _ _ => none
  | .handleProbeTimeout _ _ _ => none
  | .reservationTimeout _ => none
  | .retransmitTimeout _ _ _ _ => none
  | .ackTimer _ _ _ _ => none
  | .nackRetry _ _ _ _ _ => none
  | .hostAccessTimeout _ _ _ => none
  | .streamGranule _ => none
  | .streamComplete _ _ _ => none
  | .timelineIncrement _ _ _ => none
  | .pageWalkComplete _ _ _ => none
  | .tlbinvMarkersComplete _ => none
  | .launchLoadComplete _ => none
  | .ctxsaveComplete _ => none
  | .ctxloadComplete _ => none
  | .monitorWake _ => none
  | .mwaitTimeout _ => none
  | .monitorLoss _ => none
  | .sweeperVisit _ => none
  | .hostApertureAccess _ => none
  | .linkTrained _ _ _ _ => none
  | .quarantineRetrain _ => none
  | .linkFailure _ => none
  | .retrainWrite _ _ => none
  | .nutonRetrain _ => none
  | .syncInterval => none
  | .sync _ => none
  | .followUp _ => none
  | .delayReq _ => none
  | .delayResp _ => none
  | .announce _ => none
  | .auxPowerOn _ _ => none
  | .startupStageComplete _ => none
  | .moduleReset => none
  | .temperatureWarning _ _ _ => none
  | .criticalTemperature _ _ => none
  | .railRemoval => none
  | .getVersion _ => none
  | .getCapabilities _ => none
  | .negotiateAlgorithms _ => none
  | .getDigests _ => none
  | .getCertificate _ => none
  | .challenge _ => none
  | .getMeasurements _ => none
  | .keyExchange _ => none
  | .finish _ => none
  | .endSession _ => none
  | .spdmUnsupportedRequest _ => none
  | .pldmGetSensor _ => none
  | .debugWindowAccess _ => none
  | .debugWhistle _ => none
  | .debugRelease _ _ => none
  | .debugStep _ _ _ => none
  | .debugHaltSteward _ => none
  | .debugRestartSteward _ => none
  | .debugReset => none
  | .barrierPlaneWrite _ _ _ => none
  | .rfqServed _ _ _ _ => none
  | .rfqDead _ _ _ _ => none
  | .streamRetry _ _ _ _ => none
  | .stripStatusWrite _ _ _ _ _ => none
  | .timelineWindowWrite _ _ _ _ _ => none
  | .noticeLineSet _ _ _ => none
  | .errorLogClear _ _ _ => none
  | .traceControlWrite _ _ _ => none
  | .monitorConfigWrite _ _ _ _ _ => none
  | .routeUnitJobWrite _ _ _ => none
  | .windowWrite _ _ => none
  | .circuitDeparture _ _ => none
  | .reservedTypePacket _ _ => none
  | .healthMonitorSample _ _ _ _ _ => none

/-- The layout of `decodeTableWord` (the model's own: the table gives no bits): the slot in [59:0], the engine in
[63:60], the slot after it in [123:64]. -/
def tableSlot (w : Nat) : Slot := BitVec.ofNat 60 w
/-- See `tableSlot`. -/
def tableEngine (w : Nat) : Nat := w / 2 ^ 60 % 16
/-- See `tableSlot`. -/
def tableNext (w : Nat) : Slot := BitVec.ofNat 60 (w / 2 ^ 64)

/-- The instruction that the decoder reads from a table word. -/
def decodeTableWord (nbits w : Nat) : Option Instr :=
  let w := w % 2 ^ nbits
  match decodeSlot true (tableEngine w) (tableSlot w) (some (tableNext w)) with
  | .instr i => some i
  | .bad _ => none

end Sys2Proof
end

