-- ==== Sys2Proof/Machine/State.lean ====
section
/-!
DEFINITION. The state of the module as plain data, the reasons a step can stop, and the state after reset. INVENTORY.md
lists every field with the rule that names it. Counts, cycles and unit numbers are natural numbers; registers, masks and
data are bit vectors. A `Tab` holds values by number in rising order; a number it does not list has the default that its
reader names.
-/
namespace Sys2Proof.Machine

/-- Values by number, numbers rising; the default of an unlisted number is its reader's. -/
abbrev Tab (α : Type) := List (Nat × α)

/-- Why a step stops. -/
inductive Fault where
  /-- Raised by the step itself when nothing is due and the main rails are down: no engine runs (15 R413, R426). Safe:
  the machine does nothing there until an input comes, and inputs are steps of their own. -/
  | poweredOff
deriving DecidableEq, Repr

/-- Why an instruction has no meaning. -/
inductive Refusal where
  /-- Raised by an arm of `exec` whose instruction has no meaning yet. Safe: nothing can be proved of its effect. -/
  | notModelled (mnemonic : String)
deriving DecidableEq, Repr

/-- One engine of one unit: 0 control core, 1 access, 2 matrix, 3 vector, 4 writeback (01 R12, R13). -/
structure Agent where
  unit : Nat
  eng : Nat
deriving DecidableEq, Repr

/-! ### The control core -/

/-- An entry of the fetch queue (04 R107): `pos = none` is a placeholder; `slot` is the slot it fetched, with the valid
slot after it in its line; `link` is the link word its line had then (02 R72). -/
structure QEntry where
  pos : Option Pos
  slot : Option (Slot × Option Slot) := none
  annul : Bool := false
  link : BitVec 32 := 0
deriving DecidableEq, Repr

/-- The fetch queue F0, F1, F2 (04 R107). -/
structure Queue where
  f0 : QEntry
  f1 : QEntry
  f2 : QEntry
deriving DecidableEq, Repr

/-- A bank access of LD, ST, LDP, STP or LDX that has issued and waits for its grant (07 R224). -/
inductive CoreAccess where
  /-- a load of `size` bytes from `addr` of unit `u` into registers from `d` on (two of 8 bytes for LDP) -/
  | load (u addr size : Nat) (signed pair : Bool) (d issued : Nat)
  | store (addr size : Nat) (data : BitVec 128) (issued : Nat)
deriving DecidableEq, Repr

/-- A result of latency above 1 into s2 whose instruction has issued and holds the core until it is ready (04 R102): the cycle of
its stack-limit check, none while its value has not come; the value, and of LDP the second one; its flags and clamped elements;
the sources it marks dead and the core's generator after it. -/
structure Late where
  at_ : Option Nat
  v : Word := 0
  second : Option Word := none
  fl : BitVec 7 := 0
  sat : Nat := 0
  dead : BitVec 32 := 0
  gen : BitVec 32 := 0
deriving DecidableEq, Repr

/-- Flags and counts of a strip instruction whose results are still on their way: the cycle from which they are raised
(04 R125). -/
structure FlagsDue where
  at_ : Nat
  fl : BitVec 7
  nan : Nat := 0
  inf : Nat := 0
  sat : Nat := 0
deriving DecidableEq, Repr

/-- A trap that is pending or taken: cause, engine, info registers, and where it stands (14 R389, R394). `rank` is its
order among the pending ones: strip traps by engine, then streams by entry, then others. -/
structure Trap where
  cause : Nat
  eng : Nat := 0
  i0 : Word := 0
  i1 : Word := 0
  i2 : Word := 0
  i3 : Word := 0
  pos : Pos := 0
  ust : Nat := 0
  rank : Nat := 100
deriving DecidableEq, Repr

/-- The hidden copy that a freeze takes of the registers it writes (04 R110). -/
structure Hidden where
  epc : Word
  enpc : Word
  ennpc : Word
  ebits : Word
  ustate0 : Word
  ustate1 : Word
deriving DecidableEq, Repr

/-! ### Strips -/

/-- Inverted bits of a 64-bit word that the next read will find (07 R222). -/
structure Flip where
  mask : Word
  check : Bool
  injected : Bool
deriving DecidableEq, Repr

/-- An entry of a data FIFO or a held entry: 768 B, its poisoned 64-bit words, and the first cycle on which it may be
popped (09 R267, 07 R220). -/
structure FifoEntry where
  row : Row
  bad : BitVec 96 := 0
  /-- inverted bits of its words that its taking will find, by word number (07 R222) -/
  errs : Tab Flip := []
  ready : Nat := 0
  /-- false while the entry is only reserved by an issued producer -/
  filled : Bool := true
deriving DecidableEq, Repr

/-- A data FIFO (09 R266 to R268): its entries in order, those not yet ready being the reserved ones; entries reserved by
issued consumers; the slot of the next entry; the last contents of each slot. -/
structure Fifo where
  entries : List FifoEntry := []
  take : Nat := 0
  head : Nat := 0
  ring : Tab Row := []
  /-- entries taken in cycle `goneAt` -/
  gone : Nat := 0
  goneAt : Nat := 0
deriving DecidableEq, Repr

/-- A strip of a context (09 R260, R265, R289). -/
structure Strip where
  /-- run state of 09 R260 -/
  state : Nat := 0
  pos : Pos := 0
  ust : Nat := 0
  /-- the slot of the instruction in progress as it was fetched, with the one after it, and the link word of its line
  (02 R72) -/
  slot : Option (Slot × Option Slot) := none
  link : BitVec 32 := 0
  /-- elastic -/
  el : Bool := false
  /-- guards g1 to g7; bit 0 is g0 and reads 1 -/
  guards : BitVec 8 := 1
  mailbox : Tab Word := []
  /-- first cycle on which the next instruction or micro-step may issue -/
  next : Nat := 0
  /-- held entries of the current instruction (06 R184, 07 R227) -/
  held : List FifoEntry := []
  /-- the current instruction has popped its tokens -/
  popped : Bool := false
  /-- stall count, wait code and FIFO waited on (09 R289, R290) -/
  stall : Nat := 0
  wait : Nat := 0
  waitFifo : Nat := 0
  /-- cycles already spent in, and granted to, the current micro-step -/
  spent : Nat := 0
  /-- the first cycle on which everything the strip has issued has completed (09 R287) -/
  drained : Nat := 0
  /-- elements of the current instruction already performed (08 R253) -/
  done : List Nat := []
  /-- the operation of the current X-class transfer or atomic, its route record, its descriptors' cursors at issue, the bytes read that wait
  for the packet that takes them with their poisoned words, the 64-B units sent (10 R293, R300, R309) -/
  op : Option Nat := none
  record : BitVec 128 := 0
  start : Nat := 0
  start2 : Nat := 0
  carry : BitVec 8192 := 0
  carryLen : Nat := 0
  carryBad : BitVec 1024 := 0
  /-- CREAD packets being filled, oldest first: device, die, and for each read its index, address and offset (10 R306) -/
  open_ : List (Nat × Nat × List (Nat × Nat × Nat)) := []
  /-- shadows whose markers the current instruction is ahead of (12 R353) -/
  ahead : List Nat := []
  /-- the debugger has made the instruction go on at another micro-step: its results are open (09 R265) -/
  loose : Bool := false
deriving DecidableEq, Repr

/-- The partial state of an MSCAN between micro-steps (06 R172, R196): the block's entries and what it has computed. -/
structure Scan where
  /-- steps of the instruction finished before the block -/
  base : Nat := 0
  /-- micro-steps finished before the block -/
  start : Nat := 0
  len : Nat := 0
  chunked : Bool := false
  a : Tab (BitVec 32) := []
  d : Tab (BitVec 32) := []
  delta : Row := 0
  xs : List Row := []
  bcs : List Row := []
  /-- state rows when the block began -/
  prev : Tab Row := []
deriving DecidableEq, Repr

/-- A latch slot (06 R174, R176). -/
structure Latch where
  vals : BitVec 73728 := 0
  sparse : BitVec 18432 := 0
  tag : Word := 0
deriving DecidableEq, Repr

/-- The weight-load path (06 R173, R176): `left` entries still to pop of `total`, from `fifo`, for the instruction at
`pos`. -/
structure WeightLoad where
  busy : Bool := false
  slot : Nat := 0
  left : Nat := 0
  total : Nat := 0
  fifo : Nat := 0
  kind : Nat := 0
  tb : Nat := 0
  storage : Nat := 0
  pos : Pos := 0
  /-- the slots are being restored; mc.wload shows it from cycle `restFrom` on (06 R201) -/
  rest : Bool := false
  restFrom : Nat := 0
deriving DecidableEq, Repr

/-- A background stream or prefetch (09 R278 to R282, 12 R354). `sent` counts granules of element `done` already moved;
`desc` is the descriptor as copied at issue; `ahead` are the shadows whose markers it is ahead of (12 R353). -/
structure Stream where
  state : Nat := 0
  kind : Nat
  aux : Nat := 0
  ds : Nat := 0
  cause : Nat := 0
  cnt : Nat := 0
  start : Nat := 0
  done : Nat := 0
  sent : Nat := 0
  imm : Nat := 0
  value : Word := 0
  desc : BitVec 2048 := 0
  op : Nat := 0
  ahead : List Nat := []
deriving DecidableEq, Repr

/-- What an X-class transfer, atomic, stream or TLSIG of a context still has to do (08 R244, R245, 13 R374): `left` parts
not yet durable, the counter it names, whether it waits for all earlier work (TLSIG.rel), and, if so, how many earlier stores of the
control core still wait for their grants. -/
structure Op where
  id : Nat
  left : Nat
  sig : Option Nat := none
  rel : Bool := false
  stream : Bool := false
  /-- the instruction has sent all its parts -/
  closed : Bool := true
  /-- it holds later transfers back (08 R244) -/
  ord : Bool := false
  stores : Nat := 0
deriving DecidableEq, Repr

/-- A landing slot (10 R297). -/
structure LandingSlot where
  base : Nat := 0
  space : Nat := 0
  perm : Nat := 0
  limit : Nat := 0
  ovf : Nat := 0
  expect : Nat := 0
deriving DecidableEq, Repr

/-- A circuit handle (10 R318, R319): CSTAT fields, lease, the request and its running unit. -/
structure Handle where
  state : Nat := 0
  cause : Nat := 0
  nslot : Nat := 0
  plane : Nat := 0
  groups : Nat := 0
  lease : Nat := 0
  beats : Nat := 0
  latency : Nat := 0
  ddev : Nat := 0
  dtile : Nat := 0
  slot : Nat := 0
  wrap : Nat := 0
  offset : Nat := 0
  runUnit : Nat := 0
  /-- cycles since COPEN while PROBING; slots asked for and backtracks allowed; runs begun; the label of the last run -/
  age : Nat := 0
  want : Nat := 0
  back : Nat := 0
  number : Nat := 0
  label : Nat := 0
  /-- CREPORT is awaited (10 R322) -/
  tearing : Bool := false
deriving DecidableEq, Repr

/-- An entry of the receive-fault queue (10 R303). -/
structure ReceiveFault where
  served : Bool := false
  dead : Bool := false
  cause : Nat
  sdev : Nat
  stile : Nat
  label : Nat
  seq : Nat
  lslot : Nat
  va : Nat
deriving DecidableEq, Repr

/-- What a strip starts a replayed superstep with (11 R341, 09 R291). -/
structure StripOpening where
  state : Nat
  pos : Pos
deriving DecidableEq, Repr

/-- The opening snapshot of a superstep (03 R96, 07 R228, 11 R341). -/
structure Opening where
  queue : Queue
  strips : List StripOpening
  banks : Tab Word
  desc : Tab (BitVec 2048)
  dcur : Tab Nat
  wdesc : Tab (BitVec 256)
  wcur : Tab Nat
  slots : Tab LandingSlot
  gen : BitVec 32
  vgen : Tab (BitVec 32)
  mgen : Tab (BitVec 32)
  seed : BitVec 32
  /-- the context has executed TEND in an earlier superstep -/
  tend : Bool
deriving DecidableEq, Repr

/-- The matrix state of a context that is not running (06 R201), with its poisoned words and inverted bits by the addresses at
which the running context's stand. -/
structure Spill where
  acc : Tab Row := []
  kcount : Tab Nat := []
  hs : Tab Row := []
  latch0 : Latch := {}
  latch1 : Latch := {}
  bad : Tab Unit := []
  flips : Tab Flip := []
deriving DecidableEq, Repr

/-- The life of a context (11 R331, 12 R356). -/
inductive Life where
  | free
  | placed
  | loading
  | waiting
  | running
  | parked
deriving DecidableEq, Repr

/-- The state of one tile context, and of a steward (04 R97, R103; 05 R129; 06 R173; 09 R265; 10 R297). -/
structure Ctx where
  -- scalar registers and predicates
  s : Tab Word := []
  p : BitVec 16 := 0
  /-- registers and predicates whose pipelined result has not landed (04 R100) -/
  busy : List CoreDest := []
  dead : BitVec 32 := 0
  -- control state registers
  gang : Word := 0
  job : Word := 0
  budget : BitVec 32 := 0
  slipPending : Nat := 0
  slipCommitted : Nat := 0
  tvec : Word := 0
  epc : Word := 0
  enpc : Word := 0
  ennpc : Word := 0
  ebits : Word := 0
  cause : Word := 0
  info0 : Word := 0
  info1 : Word := 0
  info2 : Word := 0
  info3 : Word := 0
  ustate0 : Word := 0
  ustate1 : Word := 0
  slim : Word := 0
  mode : Word := 0
  frm : Word := 0
  fflags : BitVec 7 := 0
  fpend : BitVec 7 := 0
  /-- the pending flags before any engine of this cycle; what SFLG.clr and SFLG.or of this cycle do at its end (13 R384) -/
  flagsSeen : BitVec 7 := 0
  flagsClear : BitVec 7 := 0
  flagsOr : BitVec 7 := 0
  /-- flags on their way; flags that a boundary has committed in this cycle (03 R94) -/
  flagsDue : List FlagsDue := []
  flagsCommit : BitVec 7 := 0
  srseed : Word := 0
  disp : Word := 0x5555555555555555
  disphi : Word := 0x5555555555555555
  hidden : Option Hidden := none
  -- fetch queue, micro-step, wait of the control core
  queue : Queue := { f0 := { pos := some 0 }, f1 := { pos := some 1 }, f2 := { pos := some 2 } }
  ust : Nat := 0
  /-- the queue has been reloaded and F0 not been checked since (02 R71) -/
  unchecked : Bool := false
  /-- the result into s2 that the core waits for (04 R102) -/
  late : Option Late := none
  /-- the last cycle of an instruction that stands for several -/
  hold : Option Nat := none
  /-- the waiting instruction has reported its read of a dead register (04 R99) -/
  told : Bool := false
  /-- the cycle the waiting instruction first asked to issue -/
  since : Option Nat := none
  /-- sources that micro-step 1 of the multi-cycle instruction read, its partial remainder and quotient, and whether
  software has changed a source since, which makes its result free (04 R112) -/
  sources : Option (Word × Word) := none
  partial0 : Word := 0
  partial1 : Word := 0
  spoiled : Bool := false
  stall : Nat := 0
  wait : Nat := 0
  accesses : List CoreAccess := []
  traps : List Trap := []
  -- rounding generators and counts
  gen : BitVec 32 := 0x9E3779B9
  seed : BitVec 32 := 0
  vgen : Tab (BitVec 32) := []
  mgen : Tab (BitVec 32) := []
  nanPending : Nat := 0
  infPending : Nat := 0
  satPending : Nat := 0
  nanCommitted : Nat := 0
  infCommitted : Nat := 0
  satCommitted : Nat := 0
  -- phase
  budgetNow : Nat := 0
  deadline : Nat := 0
  localCycle : Nat := 0
  phend : Bool := false
  /-- the core stands in that PHEND; a start pulse came while a handler had left it -/
  atPhend : Bool := false
  released : Bool := false
  /-- the boundary has completed and its start pulse has not reached the tile -/
  pulseDue : Bool := false
  tend : Bool := false
  arrived : Bool := false
  /-- the cycle of the arrival; 0 once a freeze has come between (13 R388) -/
  arrivedAt : Nat := 0
  checked : Bool := false
  life : Life := .free
  place : Nat := 0
  ordinal : Nat := 0
  -- freeze
  frozen : Bool := false
  /-- cycles that a start pulse parked on its way to the tile still needs (14 R401) -/
  pulseLeft : Option Nat := none
  stopped : Bool := false
  report : Tab Word := []
  -- strips
  access : Strip := {}
  matrix : Strip := {}
  vector : Strip := {}
  writeback : Strip := {}
  v : Tab Row := []
  m : Tab LaneMask := []
  bind : BitVec 32 := 0x00430021
  vdead : BitVec 56 := 0
  vbusy : List VectorDest := []
  mcA : Tab (BitVec 32) := []
  mcD : Tab (BitVec 32) := []
  chmin : BitVec 7 := 24
  -- access and writeback strips
  desc : Tab (BitVec 2048) := []
  dcur : Tab Nat := []
  dready : Tab Nat := []
  wdesc : Tab (BitVec 256) := []
  wcur : Tab Nat := []
  wready : Tab Nat := []
  streams : Tab Stream := []
  ops : List Op := []
  slots : Tab LandingSlot := []
  landed : Tab Nat := []
  handles : Tab Handle := []
  rfq : Tab ReceiveFault := []
  tfault0 : Word := 0
  tfault1 : Word := 0
  tl : Tab Nat := []
  opening : Option Opening := none
  spill : Option Spill := none
deriving DecidableEq, Repr

/-! ### Tiles and stewards -/

/-- An error log of one array (07 R221). -/
structure ErrorLog where
  valid : Bool := false
  ue : Bool := false
  ovf : Bool := false
  inj : Bool := false
  addr : Nat := 0
  synd : BitVec 8 := 0
  agent : Nat := 0
  ucnt : Nat := 0
  ccnt : Nat := 0
deriving DecidableEq, Repr

/-- A health monitor (13 R385). -/
structure Monitor where
  bins : Tab Nat := []
  min : Nat := 0
  max : Nat := 0
  count : Nat := 0
  config : Word := 0
deriving DecidableEq, Repr

/-- A flow-meter entry (10 R314, R315): key, count, state, timer, H pending, and its promoted run (R317). -/
structure Meter where
  state : Nat := 0
  ddev : Nat := 0
  dtile : Nat := 0
  label : Nat := 0
  count : Nat := 0
  timer : Nat := 0
  handoff : Bool := false
  slot : Nat := 0
  runUnit : Nat := 0
  inRun : Bool := false
  runBeats : Nat := 0
  beats : Nat := 0
  groups : Nat := 0
  latency : Nat := 0
  /-- the context that opened it; cycles since its probe left; slots and backtracks of the probe; runs begun -/
  c : Bool := false
  age : Nat := 0
  want : Nat := 0
  back : Nat := 0
  number : Nat := 0
  /-- CREPORT is awaited (10 R322) -/
  tearing : Bool := false
deriving DecidableEq, Repr

/-- A packet kept until it is acknowledged (10 R296): the operation and element it serves, the element's address at the
sender, the run that it ends (a CMARK), cycles without progress, the cycle it left (0 once a freeze has come between, 13 R388), and
those left before a refused one is sent again; `places` are the element and its address of each of its 64-B units. -/
structure Kept where
  pkt : Packet
  c : Bool
  op : Nat
  elem : Nat
  addr : Nat := 0
  run : Option Nat := none
  age : Nat := 0
  sentAt : Nat := 0
  retry : Option Nat := none
  places : List (Nat × Nat) := []
deriving DecidableEq, Repr

/-- The sending side of a stream (10 R294). -/
structure TxStream where
  ddev : Nat
  dtile : Nat
  label : Nat
  seq : Nat := 0
  plane : Nat := 71
deriving DecidableEq, Repr

/-- The receiving side of a stream (10 R295, R296): the next sequence, packets delivered since the last ACK, packets
waiting for an earlier one, and sequences that fault (R302). -/
structure RxStream where
  sdev : Nat
  stile : Nat
  label : Nat
  seq : Nat := 0
  unacked : Nat := 0
  timer : Nat := 0
  waiting : List Packet := []
  faulted : List Nat := []
deriving DecidableEq, Repr

/-- The receiving side of a circuit (10 R313, R317). -/
structure RxCircuit where
  cid : BitVec 26
  c : Bool
  slot : Nat
  label : Nat
  sdev : Nat
  stile : Nat
  wrap : Nat := 0
  runUnit : Nat := 0
  anchored : Bool := false
  /-- beats of the run that have landed, groups committed in the run, groups committed since the circuit began -/
  runBeats : Nat := 0
  runGroups : Nat := 0
  groups : Nat := 0
  /-- beats of the open group refused by the EXPECT check; the number of the anchored run -/
  uncounted : Nat := 0
  number : Nat := 0
  /-- beats that wait for their run's anchor, with their run's number -/
  pre : List (Nat × BitVec 512 × BitVec 8) := []
  /-- FREE has passed (10 R322); the beats of a CMARK delivered since are lost; CREPORT has gone -/
  torn : Bool := false
  stuck : Bool := false
  reported : Bool := false
deriving DecidableEq, Repr

/-- A run of beats at the sender (10 R317, R321): where its beats go, where each beat's bytes lie, how many have departed. -/
structure TxRun where
  src : CircuitSource
  op : Nat
  c : Bool
  number : Nat := 0
  ddev : Nat := 0
  dtile : Nat := 0
  lslot : Nat := 0
  /-- the run's first unit, and the wrap of its units -/
  unit : Nat := 0
  wrap : Nat := 0
  /-- the pieces of the scratchpad, offset and length, that each beat takes -/
  source : List (List (Nat × Nat)) := []
  /-- beats given as data (a promoted flow): with the element of each and its address -/
  data : List (BitVec 512 × BitVec 8 × Nat × Nat) := []
  /-- bytes of an element (an XCIR) -/
  elen : Nat := 1
  sent : Nat := 0
  /-- local cycle of the first departure; none for a promoted flow -/
  word : Option Nat := none
  label : Nat := 0
  late : Bool := false
  /-- the reserved slot of the last departure, counted from cycle 0 -/
  slotNo : Nat := 0
  /-- its last beat is its instruction's last; no beat is to join it; its CMARK is sent; its circuit is torn -/
  last : Bool := false
  closing : Bool := false
  ended : Bool := false
  torn : Bool := false
deriving DecidableEq, Repr

/-- What a reply is for (08 R252, 10 R301, R306, R308): the operation, the element, and where its bytes go. -/
inductive ReplyUse where
  /-- bytes of an XGET or XCOMB: the pieces of the scratchpad, offset and length, that take them in order -/
  | bytes (dest : List (Nat × Nat))
  /-- values of an XGATH8: the scratchpad offset, the index and the virtual address of each -/
  | values (dest : List (Nat × Nat × Nat))
  /-- the result of an atomic, if it has a place -/
  | result (dest : Option Nat)
  /-- the slot of an XDISP pair: its row of `n` bytes with the poisoned ones, read from `addr`, and the receipt's offset; `entry` is
  word 0 of its route entry as the pair has read it, or of its fallback expert's, whose count is then awaited -/
  | slot (expert label addr n row bad receipt : Nat) (entry : Word) (fallback : Bool)
deriving DecidableEq, Repr

/-- An outstanding request of a tile. -/
structure Asked where
  tag : Nat
  c : Bool
  op : Nat
  elem : Nat
  va : Nat := 0
  left : Nat := 1
  use : ReplyUse
deriving DecidableEq, Repr

/-- A translation held by a TLB or a walk cache (12 R348, R349): level 2 entries by region, leaf entries by page. -/
structure TlbEntry where
  slot : Nat
  level : Nat
  va : Nat
  size : Nat
  entry : Word
deriving DecidableEq, Repr

/-- The trace registers of a tile (14 R409). -/
structure Trace where
  ctl : Word := 0
  drop : Nat := 0
  head : Nat := 0
  tidx : Nat := 0
  /-- entries left to record after a trigger -/
  post : Option Nat := none
  /-- entries of this cycle: engine and the two words (14 R408) -/
  pend : List (Nat × Word × Word) := []
deriving DecidableEq, Repr

/-- An engine of a frozen tile that a step lets run (14 R406): `whole` for STEP.insn and for the control core. Once it has acted,
`cycles` are those it took, and the tile waits for its results to land (05 R170, 06 R202); `loaded`: the load path has popped its
entry. -/
structure Stepping where
  eng : Nat
  whole : Bool
  since : Nat
  cycles : Option Nat := none
  loaded : Bool := false
deriving DecidableEq, Repr

/-- The monitor of a steward (08 R257, R258): the armed line, a wake that has come, the sleep. -/
structure LineMonitor where
  line : Option Nat := none
  wake : Option Nat := none
  asleep : Bool := false
  sleepFrom : Nat := 0
deriving DecidableEq, Repr

/-- A row on its way from the writeback strip to a bank (07 R227): the cycle it is due there, its address and length, its bytes
and the poisoned words among them. -/
structure RowDue where
  at_ : Nat
  addr : Nat
  len : Nat
  data : Nat
  bad : Nat := 0
deriving DecidableEq, Repr

/-- A tile or a steward (01 R9, R10): units 0 to 767 are tiles, 768 to 783 stewards. -/
structure Tile where
  ctxA : Ctx := {}
  ctxB : Ctx := {}
  /-- the running context is B -/
  run : Bool := false
  started : Bool := false
  halted : Bool := false
  dual : Bool := false
  /-- store line tags: CTX and INDEX of a VALID line (09 R285) -/
  tags : Tab (Option (Bool × Nat)) := []
  banks : Tab Word := []
  rowBuf : Tab Nat := []
  /-- the engine whose row each buffer holds (09 R287) -/
  rowFrom : Tab Nat := []
  /-- rows that have left their FIFO and are not in their bank yet (02 R66, 07 R227) -/
  rowsDue : List RowDue := []
  /-- banks granted in this cycle (07 R205) -/
  granted : List Nat := []
  acc : Tab Row := []
  accBusy : List Nat := []
  kcount : Tab Nat := []
  latch0 : Latch := {}
  latch1 : Latch := {}
  /-- MMA-class instructions in progress reading each slot is the matrix strip's own; loads run beside it -/
  wload : WeightLoad := {}
  hs : Tab Row := []
  scan : Option Scan := none
  /-- the stream entry served last: 16 for context B, plus its number; the cycles at which the outstanding granule requests of the
  memory port complete (09 R278) -/
  lastServed : Nat := 31
  granules : List Nat := []
  /-- granules that the multicast path reads in this cycle (07 R213) -/
  cast : List Nat := []
  fifos : Tab Fifo := []
  tokens : Tab Nat := []
  /-- tokens pushed in this cycle, visible from the next (02 R54) -/
  newTokens : Tab Nat := []
  /-- tokens that micro-steps of several cycles give as they end: the cycle and the FIFO (02 R55) -/
  tokensDue : List (Nat × Nat) := []
  /-- tokens popped in this cycle, whose room is free from the next -/
  goneTokens : Tab Nat := []
  hang : Tab Word := []
  elog : Tab ErrorLog := []
  inject : Option (Nat × Word × BitVec 2) := none
  mon : Tab Monitor := []
  freeze : Tab Word := []
  stepping : Option Stepping := none
  trace : Trace := {}
  view : Word := 0
  meters : Tab Meter := []
  fm : Tab Nat := []
  /-- parameters to come: cycle, number, value (13 R381) -/
  fmNext : List (Nat × Nat × Nat) := []
  kept : List Kept := []
  /-- ordered packets that wait for room in the retransmit buffer (10 R294, R296) -/
  waitOut : List Kept := []
  /-- the latest arrival of a packet sent within the module -/
  lastIn : Nat := 0
  tx : List TxStream := []
  rx : List RxStream := []
  rxc : List RxCircuit := []
  runs : Tab TxRun := []
  nextRun : Nat := 0
  asked : List Asked := []
  nextTag : Nat := 0
  nextOp : Nat := 0
  /-- first cycle on which the injection port is free (10 R300) -/
  portFree : Nat := 0
  /-- packets of a tile-step held at the egress, each with its plane (14 R405) -/
  heldOut : List (Option Nat × Packet) := []
  tlb : List TlbEntry := []
  lmon : LineMonitor := {}
  /-- slip of this cycle already counted (13 R383) -/
  slipped : Bool := false
deriving DecidableEq, Repr

/-! ### The module -/

/-- A task record of a queue (11 R328). -/
inductive RecordState where
  | waiting
  | held
  | taken
deriving DecidableEq, Repr

/-- A task queue (11 R328): registers, and for each record between HEAD and TAIL its state and waiting count. -/
structure TaskQueue where
  base : Nat := 0
  tail : Nat := 0
  head : Nat := 0
  size : Nat := 0
  job : BitVec 32 := 0
  resv : Nat := 0
  age : Nat := 0
  /-- record number, state, and boundaries since it became ready (none: not ready) -/
  recs : List (Nat × RecordState × Option Nat) := []
deriving DecidableEq, Repr

/-- A placement entry (12 R356). -/
structure Placement where
  state : Nat := 0
  queue : Nat := 0
  record : Nat := 0
  job : BitVec 32 := 0
  sig : Word := 0
  origin : Nat := 0
  /-- the task record, header and member count -/
  task : BitVec 1024 := 0
  header : BitVec 1024 := 0
  steward : Nat := 0
  leaving : Bool := false
  /-- the save area that a context load or save in progress uses; its counter, and whether it frees the contexts -/
  saveAs : Option Nat := none
  sig_ : Option Nat := none
  frees : Bool := false
  saving : Bool := false
  /-- shadows whose markers its load is ahead of (12 R353) -/
  ahead : List Nat := []
  /-- its members on the other modules have executed TEND (11 R335) -/
  farEnded : Bool := false
deriving DecidableEq, Repr

/-- A gang of a job that has left the module for its save area and may come back (11 R326, R338). -/
structure Saved where
  at_ : Nat
  job : BitVec 32
deriving DecidableEq, Repr

/-- A whistle seen or originated by the module (14 R404). -/
structure Whistle where
  time : Nat
  frac : Nat
  dev : Nat
  tile : Nat
  eng : Nat
  cause : Nat
  info0 : Word
deriving DecidableEq, Repr

/-- An open-job slot (11 R326, 01 R19, R27, R28, R34, R36, 12 R343, 08 R241, 14 R403). -/
structure Job where
  opened : Bool := false
  id : BitVec 32 := 0
  dgrp : Nat := 0
  timed : Bool := false
  k : Nat := 0
  tc : Nat := 0
  tx : Nat := 0
  straggle : Nat := 65536
  stallto : Nat := 1048576
  phase : Nat := 0
  /-- the job has sent its first start pulse; a gang of it has spanned modules -/
  begun : Bool := false
  spans : Bool := false
  -- boundary unit
  straggler : Option Nat := none
  conditionsAt : Option Nat := none
  flitSent : Bool := false
  released : Bool := false
  sequence : Bool := false
  lastStart : Nat := 0
  shift : Nat := 0
  pulse : Bool := false
  /-- the boundary unit is frozen, since `heldAt`; cycles that a held start pulse still waits (14 R397, R402) -/
  held : Bool := false
  heldAt : Nat := 0
  pulseLeft : Option Nat := none
  /-- the barrier plane has moved since the last release (01 R36); the tiles that a straggler fault found missing (01 R28) -/
  moved : Bool := false
  missing : BitVec 768 := 0
  -- registers of the slot
  bplane : Nat := 0
  root0 : Word := 0
  root1 : Word := 0
  ranges : Tab Word := []
  -- context switch request and suspension
  armed : Option (Nat × Nat) := none
  suspended : Bool := false
  suspendedAt : Nat := 0
  -- whistle
  valid : Bool := false
  settled : Bool := false
  runState : Nat := 0
  nwh : Nat := 0
  winner : Option Whistle := none
  seen : List (Nat × Nat × Nat × Nat × Nat) := []
  ltime : Nat := 0
  lcycle : Nat := 0
  wphase : Nat := 0
  ref : Nat := 0
  /-- device time in ns from which the schedule is late -/
  since : Nat := 0
  /-- cycle of release R and length of a job-step -/
  release : Option Nat := none
  stepFor : Option Nat := none
deriving DecidableEq, Repr

/-- A link of the fabric or a die-to-die sub-link (10 R323, R324). -/
structure Link where
  state : Nat := 0
  tries : Nat := 0
  lat : Nat := 0
  ldig : Word := 0
  rdig : Word := 0
  qcnt : Nat := 0
  drop : Nat := 0
deriving DecidableEq, Repr

/-- A reservation of a crosspoint wire or a link slot (12 R362): 1 TENTATIVE or 2 HELD, its circuit, its age. -/
structure Reservation where
  state : Nat
  cid : BitVec 26
  age : Nat := 0
deriving DecidableEq, Repr

/-- A segment of a circuit's path (10 R311): a wire of a cluster's crosspoint in a direction (0 north, 1 east, 2 south, 3 west), its
port to a tile, a die-to-die interface in a direction, a fabric port. -/
inductive Segment where
  | wire (die cluster dir : Nat)
  | port (die cluster pos : Nat)
  | sub (pair : Nat) (low : Bool)
  | fabric (p : Nat)
deriving DecidableEq, Repr

/-- A probe on its way through the module (10 R316): the segments to come; those reserved, the last one first, each with the number of
its alternative and the slot set of the hop before it; the first alternative to try at the next segment; the slot set that the last
hop used; the plane it is to leave by and those left to try; backtracks made, and how many it may make. -/
structure Probing where
  pkt : Packet
  ahead : List Segment
  behind : List (Segment × Nat × Nat) := []
  from_ : Nat := 0
  set : Nat := 0
  plane : Option Nat := none
  planes : List Nat := []
  backs : Nat := 0
  limit : Option Nat := none
deriving DecidableEq, Repr

/-- A route unit (13 R377): the counters granted in this cycle, and the RCOUNTs that wait for a later one. -/
structure RouteUnit where
  job : BitVec 32 := 0
  seq : Nat := 0
  snap : Tab Nat := []
  live : Tab Nat := []
  granted : List Nat := []
  waiting : List Packet := []
deriving DecidableEq, Repr

/-- A merged record of a reduction window (08 R255): window, contributor, tile, word, operation, type and operand. -/
structure Merged where
  w : Nat
  dev : Nat
  tile : Nat
  word : Nat
  op : Nat
  type : Nat
  opnd : Word
  opId : Nat
  c : Bool
  /-- its element and virtual address at its tile; its page is tracked -/
  elem : Nat := 0
  va : Nat := 0
  tracked : Bool := false
deriving DecidableEq, Repr

/-- The shadow of a TLBINV (12 R352): the entries of its range, and the commands ahead of its markers. -/
structure Shadow where
  slot : Nat
  lo : Nat
  hi : Nat
  /-- HBM as it stood with its poisoned words, the root of the tables, and the translations of the range that were cached -/
  tables : List Host.Cell
  bad : Tab Unit := []
  root : Nat
  cached : List TlbEntry := []
  sig : Option Nat
  steward : Nat
  /-- the cycle by which its markers are placed -/
  placedAt : Nat := 0
deriving DecidableEq, Repr

/-- An entry of a contention cache (08 R256). -/
structure Contention where
  page : Nat
  cand : Nat
  cnt : Nat
  migrated : Bool
  used : Nat
deriving DecidableEq, Repr

/-- The time servo (13 R368 to R370). -/
structure Servo where
  lock : Bool := false
  hold : Bool := false
  offset : Int := 0
  config : Word := 0x600
  /-- consecutive Sync messages within 4 ns -/
  good : Nat := 0
  stepped : Bool := false
  /-- origin and receipt of the last Sync, and the mean path delay, in 2^-16 ns -/
  pending : Option TimeMessage := none
  pathDelay : Int := 0
  masterToSlave : Int := 0
  syncSeq : Nat := 0
deriving DecidableEq, Repr

/-- The start-up machine and its measurements (15 R413 to R419). -/
structure Boot where
  /-- images read from board flash, in order -/
  images : List SignedImage := []
  helper : Bool := false
  aux : Bool := false
  stage : Nat := 0
  failed : Bool := false
  rreq : Bool := false
  unit : BitVec 16 := 0
  error : BitVec 16 := 0
  secret : Option (BitVec 256) := none
  devId : Option (BitVec 384) := none
  aliasKey : Option (BitVec 384) := none
  /-- kind, digest and SVN of each accepted image, in the order applied -/
  accepted : List (Nat × BitVec 384 × Nat) := []
  laneTiming : Tab Nat := []
  planeMap : Tab Nat := []
  sideband : Nat := 0
deriving DecidableEq, Repr

/-- The SPDM responder (15 R419). -/
structure Spdm where
  versionDone : Bool := false
  capsDone : Bool := false
  algorithmsDone : Bool := false
  exchange : Option (BitVec 384) := none
  session : Bool := false
deriving DecidableEq, Repr

/-- What leaves the module: fabric packets with their departure cycle and plane, beats, sideband and host answers, time messages. -/
inductive Outgoing where
  | packet (depart plane : Nat) (p : Packet)
  | beat (cid : BitVec 26) (plane : Nat) (n : Nat) (v : BitVec 512) (bad : BitVec 8)
  | sideband (bytes : List Byte)
  | host (bytes : List Byte)
  | hostUnsupported (addr : Nat)
  | digest (link : Nat) (d : Word)
  /-- a message of the time servo on a plane: 0 Sync, 1 Delay_Req, 2 Delay_Resp, 3 Announce (13 R369) -/
  | time (plane kind : Nat) (m : TimeMessage)
  | invalidateHost (line : Nat)
  /-- bytes written to a peer device's memory by a stream -/
  | peerWrite (device off n : Nat) (v : Row)
deriving DecidableEq, Repr

/-- The sensors (15 R423, R426). -/
structure Sensors where
  /-- reading in 0.25 degrees of sensor `8 * die + k` -/
  die : Tab Nat := []
  stack : Tab Nat := []
  power : Nat := 0
  warn : Nat := 380
  critical : Nat := 420
  /-- since when a sensor has been at or above the critical limit -/
  hot : Tab Nat := []
  /-- the state sensors as last reported -/
  told : List Nat := []
deriving DecidableEq, Repr

/-- The module. -/
structure State where
  -- the model's schedule (log entry 1) and free-value counter (log entry 2)
  inbox : List Event
  agenda : List (Nat × Event)
  ready : List Agent
  cur : Agent
  /-- the end of this cycle has been worked out -/
  ended : Bool
  fresh : Nat
  -- clock and time
  cycle : Nat
  /-- device time in units of 2^-16/17 ns (13 R368, 01 R11) -/
  time : Nat
  servo : Servo
  power : Bool
  device : Nat
  -- memory (08 R229, 07 R203, R215)
  mem : List Host.Cell
  /-- stamps of HBM lines by line number: PH and AG (08 R236) -/
  stamps : Tab (BitVec 32)
  /-- poisoned 64-bit words by physical address (07 R220, 08 R231) -/
  poison : Tab Unit
  /-- HBM lines that are poisoned whole, their stamps with them, until a write of the whole line (08 R231) -/
  badLines : Tab Unit
  /-- inverted bits waiting for a read, by physical address (07 R222); those of a line's stamp and check bits at `sidebandPA` -/
  flips : Tab Flip
  units : Tab Tile
  jobs : Tab Job
  -- control space
  nuton : Tab Word
  nutonWidth : Nat
  redwin : Tab Word
  merged : List Merged
  flushes : List (Nat × Nat)
  delivered : List Nat
  /-- RED packets at the port of their barrier plane, which is not up: plane and packet (01 R36) -/
  portWait : List (Nat × Packet)
  hbmLog : Tab ErrorLog
  links : Tab Link
  noticeAddr : Tab Nat
  noticeCount : Tab Nat
  queues : Tab TaskQueue
  reserving : Option (Nat × Nat)
  reservedMarks : List (Nat × Bool)
  placed : Tab Placement
  saved : List Saved
  bench : BitVec 768
  threshold : Word
  route : Tab Word
  group : Tab Word
  routeUnit : Tab RouteUnit
  resv : Tab Reservation
  /-- probes on their way through the module (10 R316) -/
  probes : List Probing
  /-- READY and FAIL of flow meters, which take effect with the end of the cycle (10 R315) -/
  atEnd : List Event
  dieMon : Tab Monitor
  contention : List Contention
  /-- level-1 and level-2 entries that each die's walker holds (12 R349) -/
  walkCache : Tab (List TlbEntry)
  shadows : Tab Shadow
  boot : Boot
  spdm : Spdm
  sensors : Sensors
  out : List Outgoing
deriving DecidableEq, Repr

/-- The module right after reset: no main power, nothing in any queue, every register at its reset value; the values the
spec does not state are those of log entries 1 to 5. -/
def State.reset : State where
  inbox := []
  agenda := []
  ready := []
  cur := { unit := 0, eng := 0 }
  ended := false
  fresh := 0
  cycle := 0
  time := 0
  servo := {}
  power := false
  device := 0
  mem := []
  stamps := []
  poison := []
  badLines := []
  flips := []
  units := []
  jobs := []
  nuton := []
  nutonWidth := 0
  redwin := []
  merged := []
  flushes := []
  delivered := []
  portWait := []
  hbmLog := []
  links := []
  noticeAddr := []
  noticeCount := []
  queues := []
  reserving := none
  reservedMarks := []
  placed := []
  saved := []
  bench := 0
  threshold := 0x0010000000000004
  route := []
  group := []
  routeUnit := []
  resv := []
  probes := []
  atEnd := []
  dieMon := []
  contention := []
  walkCache := []
  shadows := []
  boot := {}
  spdm := {}
  sensors := {}
  out := []

end Sys2Proof.Machine
end

