-- ==== Sys2Proof/Machine/Maps.lean ====
section
/-!
DEFINITION. Tables of values by number, byte memory in its one canonical form, and bit fields.
-/
namespace Sys2Proof.Machine

/-! ### Tables -/

/-- The value at number `k`, `d` where none is listed. -/
def Tab.look {α : Type} (d : α) : Tab α → Nat → α
  | [], _ => d
  | (k, v) :: t, n => if k = n then v else Tab.look d t n

/-- The table with value `v` at number `k`, numbers kept rising. -/
def Tab.put {α : Type} : Tab α → Nat → α → Tab α
  | [], k, v => [(k, v)]
  | (k', v') :: t, k, v =>
    if k < k' then (k, v) :: (k', v') :: t else if k = k' then (k, v) :: t else (k', v') :: Tab.put t k v

/-- The table without number `k`. -/
def Tab.del {α : Type} (t : Tab α) (k : Nat) : Tab α := List.filter (fun e => e.1 != k) t

/-- The value at number `k`, if one is listed. -/
def Tab.find {α : Type} : Tab α → Nat → Option α
  | [], _ => none
  | (k, v) :: t, n => if k = n then some v else Tab.find t n

/-- Put each value of a list at rising numbers from `k` on. -/
def Tab.putAll {α : Type} (t : Tab α) (k : Nat) : List α → Tab α
  | [] => t
  | v :: vs => Tab.putAll (t.put k v) (k + 1) vs

/-! ### Byte memory -/

/-- The byte at an address; an unlisted byte reads 0 (log entry 4). -/
def readByte : List Host.Cell → Nat → Byte
  | [], _ => 0
  | (b, v) :: t, a => if b = a then v else readByte t a

/-- Memory with byte `v` at address `a`, in canonical form: a byte 0 is not listed. -/
def writeByte : List Host.Cell → Nat → Byte → List Host.Cell
  | [], a, v => if v = 0 then [] else [(a, v)]
  | (b, w) :: t, a, v =>
    if a < b then (if v = 0 then (b, w) :: t else (a, v) :: (b, w) :: t)
    else if a = b then (if v = 0 then t else (a, v) :: t)
    else (b, w) :: writeByte t a v

/-- Every listed address is above `lo`, addresses rise strictly, and no listed byte is 0. -/
def Memory.wfFrom : Option Nat → List Host.Cell → Bool
  | _, [] => true
  | lo, (a, v) :: t =>
    (match lo with
      | none => true
      | some b => decide (b < a)) && v != 0 && Memory.wfFrom (some a) t

/-- The canonical form of memory. -/
def Memory.wf (m : List Host.Cell) : Bool := Memory.wfFrom none m

/-- The `n` bytes from `a` on as a little-endian number (00 R3). -/
def readBytes (m : List Host.Cell) (a : Nat) : Nat → Nat
  | 0 => 0
  | n + 1 => (readByte m a).toNat + 256 * readBytes m (a + 1) n

/-- Memory with the low `n` bytes of `v` at `a` on, little-endian (00 R3). -/
def writeBytes (m : List Host.Cell) (a : Nat) : Nat → Nat → List Host.Cell
  | 0, _ => m
  | n + 1, v => writeBytes (writeByte m a (BitVec.ofNat 8 v)) (a + 1) n (v / 256)

/-! ### Bit fields -/

/-- Bits [lo + len - 1 : lo] of a number. -/
def bits (v lo len : Nat) : Nat := v / 2 ^ lo % 2 ^ len

/-- `v` with bits [lo + len - 1 : lo] replaced by those of `f`. -/
def setBits (v lo len f : Nat) : Nat := v - bits v lo len * 2 ^ lo + f % 2 ^ len * 2 ^ lo

/-- The word whose fields are the given values at the given lowest bits. -/
def fields (fs : List (Nat × Nat)) : Word := BitVec.ofNat 64 (fs.foldl (fun v f => v + f.1 * 2 ^ f.2) 0)

/-- Lane `l` of a row: 32 bits (05 R130). -/
def lane (r : Row) (l : Nat) : BitVec 32 := r.extractLsb' (32 * l) 32

/-- A row from its lanes. -/
def rowOf (f : Nat → BitVec 32) : Nat → Nat
  | 0 => 0
  | n + 1 => rowOf f n + (f n).toNat * 2 ^ (32 * n)

/-- The row whose lane `l` is `f l`. -/
def mkRow (f : Nat → BitVec 32) : Row := BitVec.ofNat 6144 (rowOf f lanes)

/-- The number whose bit `l` is `f l`, for `l` below `n`. -/
def maskOf (f : Nat → Bool) : Nat → Nat
  | 0 => 0
  | n + 1 => maskOf f n + (if f n then 2 ^ n else 0)

/-- The mask whose bit `l` is `f l`. -/
def mkMask (f : Nat → Bool) : LaneMask := BitVec.ofNat 192 (maskOf f lanes)

/-- Signed value of the low `n` bits (00 R6 SEXT). -/
def signedOf (v n : Nat) : Int :=
  let v := v % 2 ^ n
  if 2 * v < 2 ^ n then (v : Int) else (v : Int) - (2 ^ n : Nat)

/-- An integer modulo 2^n, read as natural (00 R6 WRAPn). -/
def wrap (n : Nat) (x : Int) : Nat := (x % ((2 ^ n : Nat) : Int)).toNat

/-- `v` capped at the 32-bit maximum, where the counts of 03 R93 and 13 R385 stop. -/
def cap32 (v : Nat) : Nat := min v 4294967295

end Sys2Proof.Machine
end

