-- ==== Sys2Proof/Machine/Numbers.lean ====
section
/-!
DEFINITION. Number formats and arithmetic (03): formats, exact values, the one rounding, conversions, comparison keys,
transcendental functions, stochastic generators.
-/
namespace Sys2Proof.Machine

/-! ### Formats (03 R75) -/

/-- A floating-point format: widths of exponent and mantissa, bias, and which special codes it has. -/
structure Fmt where
  e : Nat
  m : Nat
  bias : Nat
  hasInf : Bool := true
  hasNan : Bool := true
deriving DecidableEq, Repr

/-- The formats of 03 R75. -/
def fp64 : Fmt := { e := 11, m := 52, bias := 1023 }
/-- See `fp64`. -/
def fp32 : Fmt := { e := 8, m := 23, bias := 127 }
/-- See `fp64`. -/
def bf16 : Fmt := { e := 8, m := 7, bias := 127 }
/-- See `fp64`. -/
def fp16 : Fmt := { e := 5, m := 10, bias := 15 }
/-- See `fp64`. -/
def e4m3 : Fmt := { e := 4, m := 3, bias := 7, hasInf := false }
/-- See `fp64`. -/
def e5m2 : Fmt := { e := 5, m := 2, bias := 15 }
/-- See `fp64`. -/
def e3m2 : Fmt := { e := 3, m := 2, bias := 3, hasInf := false, hasNan := false }
/-- See `fp64`. -/
def e2m3 : Fmt := { e := 2, m := 3, bias := 1, hasInf := false, hasNan := false }
/-- See `fp64`. -/
def e2m1 : Fmt := { e := 2, m := 1, bias := 1, hasInf := false, hasNan := false }

/-- Bits of an encoding. -/
def Fmt.width (f : Fmt) : Nat := 1 + f.e + f.m

/-- The magnitude code of the largest finite value. -/
def Fmt.maxCode (f : Fmt) : Nat :=
  if f.hasInf then (2 ^ f.e - 1) * 2 ^ f.m - 1 else if f.hasNan then 2 ^ (f.e + f.m) - 2 else 2 ^ (f.e + f.m) - 1

/-- The encoding of a sign and a magnitude code. -/
def Fmt.pack (f : Fmt) (neg : Bool) (code : Nat) : Nat := (if neg then 2 ^ (f.e + f.m) else 0) + code

/-- The magnitude code of infinity, where the format has one. -/
def Fmt.infCode (f : Fmt) : Nat := (2 ^ f.e - 1) * 2 ^ f.m

/-- The magnitude code of the canonical NaN (03 R78). -/
def Fmt.nanCode (f : Fmt) : Nat := if f.hasInf then f.infCode + 2 ^ (f.m - 1) else 2 ^ (f.e + f.m) - 1

/-- Sign bit of an encoding. -/
def Fmt.sign (f : Fmt) (b : Nat) : Bool := b / 2 ^ (f.e + f.m) % 2 == 1

/-- Magnitude code of an encoding. -/
def Fmt.mag (f : Fmt) (b : Nat) : Nat := b % 2 ^ (f.e + f.m)

/-- Whether an encoding is a NaN. -/
def Fmt.isNan (f : Fmt) (b : Nat) : Bool :=
  f.hasNan && (if f.hasInf then decide (f.infCode < f.mag b) else f.mag b == f.nanCode)

/-- Whether an encoding is an infinity. -/
def Fmt.isInf (f : Fmt) (b : Nat) : Bool := f.hasInf && f.mag b == f.infCode

/-! ### Exact values -/

/-- An exact extended real, before rounding: a propagated NaN, a produced NaN (03 R79), an infinity, a signed magnitude
`n * 2^e` (a little more if `more`), or a zero sum of terms that are not all zeros of one sign (03 R81). -/
inductive Val where
  | nan
  | made
  | inf (neg : Bool)
  | num (neg : Bool) (n : Nat) (e : Int) (more : Bool)
  | cancel
deriving DecidableEq, Repr

/-- The value of an encoding (03 R75). -/
def Fmt.value (f : Fmt) (b : Nat) : Val :=
  let neg := f.sign b
  let c := f.mag b
  if f.isNan b then .nan
  else if f.isInf b then .inf neg
  else
    let ex := c / 2 ^ f.m
    let mant := c % 2 ^ f.m
    if ex = 0 then .num neg mant (1 - f.bias - f.m) false
    else .num neg (2 ^ f.m + mant) ((ex : Int) - f.bias - f.m) false

/-- An integer as an exact value. -/
def Val.ofInt (i : Int) : Val := .num (decide (i < 0)) i.natAbs 0 false

/-- The value with its sign changed. -/
def Val.neg : Val → Val
  | .inf s => .inf !s
  | .num s n e m => .num (!s) n e m
  | v => v

/-- `n * 2^k` for a natural `k` given as an integer that is not negative. -/
def shiftUp (n : Nat) (k : Int) : Nat := n * 2 ^ k.toNat

/-- The exact sum. -/
def Val.add : Val → Val → Val
  | .nan, _ => .nan
  | _, .nan => .nan
  | .made, _ => .made
  | _, .made => .made
  | .inf a, .inf b => if a = b then .inf a else .made
  | .inf a, _ => .inf a
  | _, .inf b => .inf b
  | .cancel, .cancel => .cancel
  | .cancel, .num s n e m => if n = 0 && !m then .cancel else .num s n e m
  | .num s n e m, .cancel => if n = 0 && !m then .cancel else .num s n e m
  | .num s n e m, .num s' n' e' m' =>
    if n = 0 && n' = 0 then (if s = s' then .num s 0 0 false else .cancel)
    else if n = 0 then .num s' n' e' m'
    else if n' = 0 then .num s n e m
    else
      let lo := if e < e' then e else e'
      let a := shiftUp n (e - lo)
      let b := shiftUp n' (e' - lo)
      if s = s' then .num s (a + b) lo (m || m')
      else if a = b then .cancel
      else if a < b then .num s' (b - a) lo (m || m')
      else .num s (a - b) lo (m || m')

/-- The exact difference. -/
def Val.sub (a b : Val) : Val := a.add b.neg

/-- The exact product; 0 times infinity is a produced NaN (03 R79). -/
def Val.mul : Val → Val → Val
  | .nan, _ => .nan
  | _, .nan => .nan
  | .made, _ => .made
  | _, .made => .made
  | .inf a, .inf b => .inf (a != b)
  | .inf a, .num s n _ _ => if n = 0 then .made else .inf (a != s)
  | .num s n _ _, .inf b => if n = 0 then .made else .inf (s != b)
  | .num s n e m, .num s' n' e' m' => .num (s != s') (n * n') (e + e') (m || m')
  | _, _ => .cancel

/-- Number of bits of a natural number. -/
def bitLength (n : Nat) : Nat := if n = 0 then 0 else n.log2 + 1

/-- floor(sqrt n) found bit by bit from bit `k - 1` down, starting from `r`. -/
def rootFrom (n : Nat) : Nat → Nat → Nat
  | 0, r => r
  | k + 1, r => rootFrom n k (if (r + 2 ^ k) * (r + 2 ^ k) ≤ n then r + 2 ^ k else r)

/-- floor(sqrt n). -/
def rootOf (n : Nat) : Nat := rootFrom n (bitLength n / 2 + 1) 0

/-- A finite quotient of two natural numbers to 160 bits, the rest in `more`. -/
def ratio (neg : Bool) (a b : Nat) (e : Int) : Val :=
  let k := 160 + bitLength b
  let q := a * 2 ^ k / b
  .num neg q (e - k) (a * 2 ^ k % b != 0)

/-- The same magnitude or a little more. -/
def Val.inexactly : Val → Val
  | .num s n e _ => .num s n e true
  | v => v

/-- The exact quotient of two values, with divide-by-zero (05 R144, 04 R122). -/
def Val.div : Val → Val → Val × Bool
  | .nan, _ => (.nan, false)
  | _, .nan => (.nan, false)
  | .inf _, .inf _ => (.made, false)
  | .inf a, .num s _ _ _ => (.inf (a != s), false)
  | .num s _ _ _, .inf b => (.num (s != b) 0 0 false, false)
  | .num s n e _, .num s' n' e' _ =>
    if n' = 0 then (if n = 0 then (.made, false) else (.inf (s != s'), true))
    else if n = 0 then (.num (s != s') 0 0 false, false)
    else (ratio (s != s') n n' (e - e'), false)
  | _, _ => (.made, false)

/-- The exact square root, to 160 bits. -/
def Val.sqrt : Val → Val
  | .nan => .nan
  | .inf false => .inf false
  | .num s n e _ =>
    if n = 0 then .num s 0 0 false
    else if s then .made
    else
      let n := if e % 2 = 0 then n else 2 * n
      let e := if e % 2 = 0 then e else e - 1
      let w := n * 2 ^ 320
      let r := rootOf w
      .num false r (e / 2 - 160) (r * r != w)
  | _ => .made

/-- One over the square root, with divide-by-zero (05 R144). -/
def Val.rsqrt : Val → Val × Bool
  | .nan => (.nan, false)
  | .inf false => (.num false 0 0 false, false)
  | .num s n e _ =>
    if n = 0 then (.inf s, true)
    else if s then (.made, false)
    else
      let n := if e % 2 = 0 then n else 2 * n
      let e := if e % 2 = 0 then e else e - 1
      -- 1 / sqrt (n * 2^e) = sqrt (2^(2k) / n) * 2^(-k - e/2)
      let k := 200 + bitLength n
      let w := 2 ^ (2 * k) / n
      let r := rootOf w
      (.num false r (-(k : Int) - e / 2) (r * r * n != 2 ^ (2 * k)), false)
  | _ => (.made, false)

/-! ### The one rounding (03 R81 to R83) -/

/-- A rounded result: its encoding, flags of 03 R93, clamped elements, whether it is a produced NaN, and whether the
strict mode of 03 R84 traps on it. -/
structure Res where
  bits : Nat
  flags : BitVec 7 := 0
  sat : Nat := 0
  made : Bool := false
  strict : Bool := false
deriving DecidableEq, Repr

/-- Flag bits of 03 R93. -/
def fInexact : BitVec 7 := 1
/-- See `fInexact`. -/
def fUnderflow : BitVec 7 := 2
/-- See `fInexact`. -/
def fOverflow : BitVec 7 := 4
/-- See `fInexact`. -/
def fDivZero : BitVec 7 := 8
/-- See `fInexact`. -/
def fInvalid : BitVec 7 := 16
/-- See `fInexact`. -/
def fSaturation : BitVec 7 := 32
/-- See `fInexact`. -/
def fNan : BitVec 7 := 64

/-- Round `n + rem / 2^sh` to an integer magnitude by a mode (03 R81, R83); `g` is the generator after its step. -/
def roundMag (mode : Nat) (g : BitVec 32) (neg : Bool) (n rem sh : Nat) (more : Bool) : Nat :=
  let inexact := rem != 0 || more
  let up := match mode with
    | 0 => decide (2 ^ sh < 2 * rem) || (2 * rem == 2 ^ sh && (more || n % 2 == 1))
    | 2 => inexact && !neg
    | 3 => inexact && neg
    | 4 => decide (g.toNat < rem * 2 ^ 32 / 2 ^ sh)
    | _ => false
  if up then n + 1 else n

/-- Bring `n * 2^e` to units of `2^q`: whole part, remainder, shift. -/
def splitAt (n : Nat) (e q : Int) : Nat × Nat × Nat :=
  if q ≤ e then (shiftUp n (e - q), 0, 0)
  else
    let sh := (q - e).toNat
    (n / 2 ^ sh, n % 2 ^ sh, sh)

/-- The sign of a zero sum of unlike zeros or of cancelling terms (03 R81). -/
def cancelSign (mode : Nat) : Bool := mode == 3

/-- The result on overflow (03 R82). -/
def Fmt.overflow (f : Fmt) (mode : Nat) (neg : Bool) : Res :=
  let toMax := !f.hasInf || mode == 1 || (mode == 2 && neg) || (mode == 3 && !neg)
  let fl := fOverflow ||| fInexact
  if f.hasInf then { bits := f.pack neg (if toMax then f.maxCode else f.infCode), flags := fl }
  else { bits := f.pack neg f.maxCode, flags := fl ||| fSaturation, sat := 1 }

/-- Round an exact value into a format (03 R78 to R84): `strict` is ctl.mode.STRICT for special values that the format
lacks, `g` the stepped generator. -/
def Fmt.round (f : Fmt) (mode : Nat) (g : BitVec 32) (v : Val) (strict : Bool := false) : Res :=
  let lacking := fun (neg : Bool) =>
    ({ bits := f.pack neg f.maxCode, flags := fInvalid ||| fSaturation, sat := 1, strict := strict } : Res)
  match v with
  | .nan => if f.hasNan then { bits := f.nanCode } else lacking false
  | .made => if f.hasNan then { bits := f.nanCode, flags := fInvalid ||| fNan, made := true } else lacking false
  | .inf s => if f.hasInf then { bits := f.pack s f.infCode } else lacking s
  | .cancel => { bits := f.pack (cancelSign mode) 0 }
  | .num neg n e more =>
    if n = 0 && !more then { bits := f.pack neg 0 }
    else
      let least : Int := 1 - f.bias - f.m
      let top : Int := bitLength n + e - 1 - f.m
      let q := if top < least then least else top
      let (k, rem, sh) := splitAt n e q
      let k := roundMag mode g neg k rem sh more
      let code := (q - least).toNat * 2 ^ f.m + k
      let inexact := rem != 0 || more
      if f.maxCode < code then f.overflow mode neg
      else
        { bits := f.pack neg code
          flags := (if inexact then fInexact else 0) ||| (if inexact && decide (code < 2 ^ f.m) then fUnderflow else 0) }

/-- Conversion between floating-point formats (03 R84): a NaN keeps its sign. -/
def convert (src dst : Fmt) (mode : Nat) (g : BitVec 32) (strict : Bool) (b : Nat) : Res :=
  if src.isNan b then
    if dst.hasNan then { bits := dst.pack (src.sign b) dst.nanCode }
    else { bits := dst.pack (src.sign b) dst.maxCode, flags := fInvalid ||| fSaturation, sat := 1, strict := strict }
  else dst.round mode g (src.value b) strict

/-- Clamp an integer to `n` bits, signed or natural. -/
def clampInt (signed : Bool) (n : Nat) (i : Int) : Int × Bool :=
  let lo : Int := if signed then -(2 ^ (n - 1) : Nat) else 0
  let hi : Int := if signed then (2 ^ (n - 1) : Nat) - 1 else (2 ^ n : Nat) - 1
  if i < lo then (lo, true) else if hi < i then (hi, true) else (i, false)

/-- A clamped integer as an `n`-bit element, with the saturation flag and count (03 R74). -/
def saturate (signed : Bool) (n : Nat) (i : Int) : Res :=
  let (c, hit) := clampInt signed n i
  { bits := wrap n c, flags := if hit then fSaturation else 0, sat := if hit then 1 else 0 }

/-- Conversion of an exact value to an `n`-bit integer (03 R85). -/
def toInteger (signed : Bool) (n mode : Nat) (g : BitVec 32) (v : Val) : Res :=
  let clampTo := fun (i : Int) =>
    ({ bits := wrap n i, flags := fInvalid ||| fSaturation, sat := 1 } : Res)
  let far : Int := (2 ^ (n + 1) : Nat)
  match v with
  | .nan => { bits := 0, flags := fInvalid, sat := 1 }
  | .made => { bits := 0, flags := fInvalid, sat := 1 }
  | .inf s => clampTo (clampInt signed n (if s then -far else far)).1
  | .cancel => { bits := 0 }
  | .num neg m e more =>
    if m = 0 then { bits := 0 }
    else if (n : Int) + 2 < bitLength m + e then clampTo (clampInt signed n (if neg then -far else far)).1
    else
      let (k, rem, sh) := splitAt m e 0
      let k := roundMag mode g neg k rem sh more
      let i : Int := if neg then -(k : Int) else k
      let (c, hit) := clampInt signed n i
      if hit then clampTo c else { bits := wrap n c, flags := if rem != 0 || more then fInexact else 0 }

/-! ### Stochastic generators (03 R83) -/

/-- One generator step. -/
def xs32 (s : BitVec 32) : BitVec 32 :=
  let s := s ^^^ (s <<< 13)
  let s := s ^^^ (s >>> 17)
  s ^^^ (s <<< 5)

/-- The state that a seed gives the generator of lane `l`. -/
def seedOf (seed : BitVec 32) (l : Nat) : BitVec 32 :=
  let v := seed ^^^ BitVec.ofNat 32 ((l + 1) * 0x9E3779B9)
  if v = 0 then 1 else v

/-- The generator after the step that a rounding takes: only mode SR steps. -/
def stepGen (mode : Nat) (g : BitVec 32) : BitVec 32 := if mode = 4 then xs32 g else g

/-! ### Order (03 R80, R92) -/

/-- A key whose integer order is the order of the numbers of a format, -0 below +0. -/
def Fmt.order (f : Fmt) (b : Nat) : Int := if f.sign b then -(f.mag b : Int) - 1 else f.mag b

/-- The lesser (or greater) of two encodings; the canonical NaN if either is a NaN (03 R80). -/
def Fmt.pick (f : Fmt) (greater : Bool) (a b : Nat) : Nat :=
  if f.isNan a || f.isNan b then f.nanCode
  else if greater then (if f.order a < f.order b then b else a) else (if f.order b < f.order a then b else a)

/-- The floating-point conditions 0 to 7 of 04 R121. -/
def Fmt.condition (f : Fmt) (c a b : Nat) : Bool :=
  let un := f.isNan a || f.isNan b
  let x := f.order a
  let y := f.order b
  match c with
  | 0 => !un && x == y
  | 1 => un || x != y
  | 2 => !un && decide (x < y)
  | 3 => !un && decide (x ≤ y)
  | 4 => !un && decide (y < x)
  | 5 => !un && decide (y ≤ x)
  | 6 => un
  | _ => !un

/-- The class bit of an encoding (04 R122 FCLASS). -/
def Fmt.classBit (f : Fmt) (b : Nat) : Nat :=
  let neg := f.sign b
  let c := f.mag b
  if f.isNan b then 8
  else if f.isInf b then (if neg then 0 else 7)
  else if c = 0 then (if neg then 3 else 4)
  else if c < 2 ^ f.m then (if neg then 2 else 5)
  else if neg then 1 else 6

/-- The ordered key of an FP32 pattern (03 R92). -/
def orderedKey (b : BitVec 32) : BitVec 32 :=
  if fp32.isNan b.toNat then 0 else if b.getLsbD 31 then ~~~b else b ^^^ 0x80000000

/-! ### Transcendental functions (03 R87)

Each function is computed with 640 fractional bits and rounded as an inexact value; the exceptions, where the exact
result is a number, are treated by themselves (log entry 8). -/

/-- Fractional bits of the computation. -/
def fxBits : Nat := 640

/-- log 2 with `fxBits` fractional bits. -/
def fxLn2 : Nat := 0xb17217f7d1cf79abc9e3b39803f2f6af40f343267298b62d8a0d175b8baafa2be7b876206debac98559552fb4afa1b10ed2eae35c138214427573b291169b8253e96ca16224ae8c51acbda11317c387e

/-- 1 / sqrt (2 pi) with `fxBits` fractional bits. -/
def fxInvSqrt2Pi : Nat := 0x662114cf50d942343f2cf1402eae38bfd3829f30512706d8c0471b4802639d2e9df8ac55447d3db723f5d3abb374e88deb14277970be1513278e993445f08cff98282e1fd947ce4b4ecdbd6e65c23395

/-- The fixed-point one. -/
def fxOne : Nat := 2 ^ fxBits

/-- Sum of `t + t r / k + t r^2 / (k (k+1)) + …`. -/
def expTerms (r : Nat) : Nat → Nat → Nat → Nat
  | 0, _, _ => 0
  | f + 1, k, t => if t = 0 then 0 else t + expTerms r f (k + 1) (t * r / fxOne / k)

/-- e^x of a fixed-point x: a fixed-point mantissa in [1, 2) and a power of two. -/
def fxExp (x : Int) : Nat × Int :=
  let k := x / (fxLn2 : Int)
  (expTerms (x % (fxLn2 : Int)).toNat 200 1 fxOne, k)

/-- Sum of `t / k + t u / (k + 2) + …` with u = y^2. -/
def atanhTerms (u : Nat) : Nat → Nat → Nat → Nat
  | 0, _, _ => 0
  | f + 1, k, t => if t = 0 then 0 else t / k + atanhTerms u f (k + 2) (t * u / fxOne)

/-- Natural logarithm of `n * 2^e`, n not 0, in fixed point. -/
def fxLog (n : Nat) (e : Int) : Int :=
  let l := bitLength n - 1
  let m := n * 2 ^ fxBits / 2 ^ l
  let y := (m - fxOne) * fxOne / (m + fxOne)
  2 * (atanhTerms (y * y / fxOne) 420 1 y : Int) + ((l : Int) + e) * fxLn2

/-- Sum of `t + t u / k + t u^2 / (k (k + 2)) + …`. -/
def phiTerms (u : Nat) : Nat → Nat → Nat → Nat
  | 0, _, _ => 0
  | f + 1, k, t => if t = 0 then 0 else t + phiTerms u f (k + 2) (t * u / fxOne / k)

/-- The standard normal distribution function of a fixed-point x below 16 in magnitude, as a fixed-point number. -/
def fxPhi (neg : Bool) (x : Nat) : Nat :=
  let u := x * x / fxOne
  let (e, k) := fxExp (-((u / 2 : Nat) : Int))
  let dens := e * fxInvSqrt2Pi / fxOne
  let dens := dens / 2 ^ (-k).toNat
  let half := phiTerms u 1600 3 x * dens / fxOne
  if neg then fxOne / 2 - half else fxOne / 2 + half

/-- A magnitude below every rounding boundary of FP32. -/
def tiny (neg : Bool) : Val := .num neg 1 (-400) true
/-- A magnitude above every finite FP32. -/
def huge (neg : Bool) : Val := .num neg 1 400 true
/-- Just below a positive magnitude `n * 2^e`. -/
def justBelow (neg : Bool) (n : Nat) (e : Int) : Val := .num neg (n * 2 ^ 400 - 1) (e - 400) true

/-- The argument `n * 2^e` in fixed point, which is exact for an FP32 argument. -/
def fxOf (n : Nat) (e : Int) : Nat := shiftUp n (e + fxBits)

/-- Whether a magnitude is at least 2^k. -/
def atLeast (n : Nat) (e k : Int) : Bool := n != 0 && decide (k < bitLength n + e)

/-- The transcendental functions of 03 R87. -/
inductive Func where
  | exp
  | exp2
  | log
  | log2
  | tanh
  | sigm
  | silu
  | gelu
deriving DecidableEq, Repr

/-- e^x for a finite x that is not 0. -/
def expVal (neg : Bool) (n : Nat) (e : Int) : Val :=
  if atLeast n e 9 then (if neg then tiny false else huge false)
  else
    let x := fxOf n e
    let (m, k) := fxExp (if neg then -(x : Int) else x)
    .num false m (k - fxBits) true

/-- The logistic function of a finite x that is not 0. -/
def sigmVal (neg : Bool) (n : Nat) (e : Int) : Val :=
  if atLeast n e 9 then (if neg then tiny false else justBelow false 1 0)
  else
    let (m, k) := fxExp (-(fxOf n e : Int))
    -- e^-|x| = m / 2^s
    let s := (fxBits - k).toNat
    (if neg then ratio false m (2 ^ s + m) 0 else ratio false (2 ^ s) (2 ^ s + m) 0).inexactly

/-- A transcendental function of a value, and whether it divides by zero. -/
def Func.eval (f : Func) (v : Val) : Val × Bool :=
  match f, v with
  | _, .nan => (.nan, false)
  | .exp, .inf s => (if s then .num false 0 0 false else .inf false, false)
  | .exp2, .inf s => (if s then .num false 0 0 false else .inf false, false)
  | .log, .inf s => (if s then .made else .inf false, false)
  | .log2, .inf s => (if s then .made else .inf false, false)
  | .tanh, .inf s => (.num s 1 0 false, false)
  | .sigm, .inf s => (if s then .num false 0 0 false else .num false 1 0 false, false)
  | .silu, .inf s => (if s then .num true 0 0 false else .inf false, false)
  | .gelu, .inf s => (if s then .num true 0 0 false else .inf false, false)
  | f, .num s n e _ =>
    if n = 0 then
      match f with
      | .exp => (.num false 1 0 false, false)
      | .exp2 => (.num false 1 0 false, false)
      | .log => (.inf true, true)
      | .log2 => (.inf true, true)
      | .sigm => (.num false 1 (-1) false, false)
      | _ => (.num s 0 0 false, false)
    else
      match f with
      | .exp => (expVal s n e, false)
      | .exp2 =>
        if atLeast n e 9 then (if s then tiny false else huge false, false)
        else
          let x := fxOf n e
          let i : Int := if s then -(x : Int) else x
          let k := i / (fxOne : Int)
          let r := (i % (fxOne : Int)).toNat
          if r = 0 then (.num false 1 k false, false)
          else (.num false (expTerms (r * fxLn2 / fxOne) 200 1 fxOne) (k - fxBits) true, false)
      | .log =>
        if s then (.made, false)
        else if shiftUp 1 (-e) = n then (.num false 0 0 false, false)
        else
          let l := fxLog n e
          (.num (decide (l < 0)) l.natAbs (-(fxBits : Int)) true, false)
      | .log2 =>
        if s then (.made, false)
        else if n = 2 ^ (bitLength n - 1) then (Val.ofInt ((bitLength n : Int) - 1 + e), false)
        else
          let l := fxLog n e
          (.num (decide (l < 0)) (l.natAbs * fxOne / fxLn2) (-(fxBits : Int)) true, false)
      | .tanh =>
        if atLeast n e 8 then (justBelow s 1 0, false)
        else
          let (m, k) := fxExp (-(2 * fxOf n e : Int))
          let d := (fxBits - k).toNat
          ((ratio s (2 ^ d - m) (2 ^ d + m) 0).inexactly, false)
      | .sigm => (sigmVal s n e, false)
      | .silu => ((sigmVal s n e).mul (.num s n e false), false)
      | .gelu =>
        if atLeast n e 4 then (if s then tiny true else justBelow false n e, false)
        else (.num s (fxPhi s (fxOf n e) * n) (e - fxBits) true, false)
  | _, _ => (.made, false)

/-- A transcendental function rounded to FP32 by RNE (03 R87). -/
def Func.apply (f : Func) (b : Nat) : Res :=
  let (v, dz) := f.eval (fp32.value b)
  let r := fp32.round 0 0 v
  -- the logarithm of 0 is an exact infinity that sets divide-by-zero
  if dz then { r with flags := r.flags ||| fDivZero } else r

end Sys2Proof.Machine
end

