-- ==== Sys2Proof/Config.lean ====
section
/-!
DEFINITION. What the spec leaves open: free values, which nothing in Lean can evaluate, and the constants of one part
that the manual does not give (latencies, keys, the answers of cryptographic functions). A free value is applied to the
counter `State.fresh`, which each use advances, or to the operands it depends on (log entry 2).
-/
namespace Sys2Proof.Config

/-- A free bit: whether a relaxed read of a dead register returns the old value (04 R99, 05 R136). -/
opaque freeBit : Nat → Bool
/-- A free 64-bit value (04 R112). -/
opaque freeWord : Nat → Word
/-- A free lane mask: which lanes of a relaxed vector read return the old value (05 R136). -/
opaque freeMask : Nat → LaneMask
/-- A free row: results that 09 R265 and 06 R172 leave open. -/
opaque freeRow : Nat → Row
/-- A free natural number: a victim of replacement (12 R348), an unstated count. -/
opaque freeNat : Nat → Nat
/-- A free byte, of an address (09 R265). -/
opaque freeByte : Nat → Nat → Byte

/-- Cycles from the sending of a packet or beat to its arrival within the module; no figure is given (10 R294). -/
opaque transit : Nat → Nat
/-- The place of a fabric port among the 192 tiles of its die; none is given (10 R311). -/
opaque portPlace : Nat → Nat
/-- How the servo steers the clock in a cycle while it is locked, within its bounds (13 R368). -/
opaque clockSlew : Nat → Nat
/-- Cycles of one access to device or host memory; no figure is given (13 R385 measures it). -/
opaque memoryLatency : Nat → Nat
/-- Cycles of one page walk (12 R349). -/
opaque walkLatency : Nat → Nat
/-- Cycles of a launch load, a context save or a context load (11 R333). -/
opaque loadLatency : Nat → Nat
/-- Cycles of a read of a route unit, at most 40 (13 R378, R379). -/
opaque routeLatency : Nat → Nat
/-- Cycles of a link training (10 R323). -/
opaque trainingLatency : Nat → Nat

/-- The SECDED syndrome of a word with the given bits inverted (07 R221). -/
opaque syndrome : Word → Bool → BitVec 8
/-- Whether an error pattern of two or more bits is uncorrectable; "in general" it is (07 R222). -/
opaque uncorrectable : Word → Bool → Bool

/-- The boot ROM's ECDSA P-384 check of bytes 0 to 63 of a header (15 R416). -/
opaque ecdsaOk : BitVec 512 → BitVec 768 → Bool
/-- The boot ROM's LMS check of bytes 0 to 63 of a header (15 R416). -/
opaque lmsOk : BitVec 512 → BitVec 14176 → Bool
/-- SHA-384 (15 R415). -/
opaque sha384 : List Byte → BitVec 384
/-- The secret that the PUF reconstructs, if it does (15 R417). -/
opaque pufSecret : Nat → Option (BitVec 256)
/-- HKDF-SHA-384 of a secret with a label, to an ECDSA P-384 private key (15 R417). -/
opaque deriveKey : BitVec 256 → Nat → BitVec 384
/-- An ECDSA P-384 signature under a private key (15 R419). -/
opaque sign : BitVec 384 → List Byte → List Byte
/-- The certificate of a slot (15 R417). -/
opaque certificate : Nat → List Byte
/-- The shared secret of a key exchange (15 R419). -/
opaque sharedSecret : BitVec 384 → List Byte → BitVec 384
/-- The check of a FINISH request against a session's shared secret (15 R419). -/
opaque finishOk : BitVec 384 → List Byte → Bool
/-- The boot ROM version, measurement 1 (15 R419). -/
opaque romVersion : BitVec 384

end Sys2Proof.Config
end

