-- ==== Sys2Proof/Machine/Units.lean ====
section
/-!
DEFINITION. Access to units, contexts, jobs and time; the tile grid; addresses of the on-chip windows.
-/
namespace Sys2Proof.Machine

/-! ### Units, contexts, jobs -/

/-- Units 768 to 783 are stewards (01 R10). -/
def isSteward (u : Nat) : Bool := decide (768 ≤ u)

/-- The tile or steward `u`. -/
def State.tile (s : State) (u : Nat) : Tile := s.units.look {} u

/-- The state with tile or steward `u` replaced. -/
def State.setTile (s : State) (u : Nat) (t : Tile) : State := { s with units := s.units.put u t }

/-- The state with tile `u` changed by `f`. -/
def State.mod (s : State) (u : Nat) (f : Tile → Tile) : State := s.setTile u (f (s.tile u))

/-- Context A or B of a tile. -/
def Tile.ctx (t : Tile) (c : Bool) : Ctx := if c then t.ctxB else t.ctxA

/-- The tile with context `c` replaced. -/
def Tile.setCtx (t : Tile) (c : Bool) (x : Ctx) : Tile := if c then { t with ctxB := x } else { t with ctxA := x }

/-- Context `c` of unit `u`. -/
def State.ctx (s : State) (u : Nat) (c : Bool) : Ctx := (s.tile u).ctx c

/-- The state with context `c` of unit `u` changed by `f`. -/
def State.modCtx (s : State) (u : Nat) (c : Bool) (f : Ctx → Ctx) : State :=
  s.mod u fun t => t.setCtx c (f (t.ctx c))

/-- The running context bank of the acting unit. -/
def State.bank (s : State) : Bool := (s.tile s.cur.unit).run

/-- The context that acts. -/
def State.me (s : State) : Ctx := s.ctx s.cur.unit s.bank

/-- The state with the acting context changed by `f`. -/
def State.modMe (s : State) (f : Ctx → Ctx) : State := s.modCtx s.cur.unit s.bank f

/-- The acting tile. -/
def State.here (s : State) : Tile := s.tile s.cur.unit

/-- The state with the acting tile changed by `f`. -/
def State.modHere (s : State) (f : Tile → Tile) : State := s.mod s.cur.unit f

/-- The strip of engine `e` of a context (1 access, 2 matrix, 3 vector, 4 writeback). -/
def Ctx.strip (x : Ctx) : Nat → Strip
  | 1 => x.access
  | 2 => x.matrix
  | 3 => x.vector
  | _ => x.writeback

/-- The context with the strip of engine `e` replaced. -/
def Ctx.setStrip (x : Ctx) (e : Nat) (t : Strip) : Ctx :=
  match e with
  | 1 => { x with access := t }
  | 2 => { x with matrix := t }
  | 3 => { x with vector := t }
  | _ => { x with writeback := t }

/-- A strip at the start of an instruction: nothing held, spent, performed or sent. -/
def Strip.clean (t : Strip) : Strip :=
  { t with
    ust := 0, slot := none, held := [], popped := false, stall := 0, wait := 0, spent := 0, done := [], op := none, record := 0
    start := 0, start2 := 0
    carry := 0, carryLen := 0, carryBad := 0, open_ := [], ahead := [], loose := false }

/-- The state with the strip of engine `e` of context `c` of unit `u` changed. -/
def State.modStrip (s : State) (u : Nat) (c : Bool) (e : Nat) (f : Strip → Strip) : State :=
  s.modCtx u c fun x => x.setStrip e (f (x.strip e))

/-- Job slot `j`. -/
def State.job (s : State) (j : Nat) : Job := s.jobs.look {} j

/-- The state with job slot `j` changed by `f`. -/
def State.modJob (s : State) (j : Nat) (f : Job → Job) : State := { s with jobs := s.jobs.put j (f (s.job j)) }

/-- ctl.job[31:0] of a context (04 R103). -/
def Ctx.jobId (x : Ctx) : BitVec 32 := x.job.extractLsb' 0 32

/-- The context takes part in its job's phases: it runs, or the start pulse that starts it is on its way. -/
def Ctx.takesPart (x : Ctx) : Bool := x.life == .running || (x.life == .waiting && x.pulseDue)

/-- The open-job slot of a job ID. -/
def State.jobSlot (s : State) (id : BitVec 32) : Option Nat :=
  (List.range 8).find? fun j => (s.job j).opened && (s.job j).id == id

/-- The open-job slot of a context. -/
def State.slotOf (s : State) (u : Nat) (c : Bool) : Option Nat := s.jobSlot (s.ctx u c).jobId

/-- The phase counter that a context reads as ctl.phase; 0 without a job (04 R103). -/
def State.phaseOf (s : State) (u : Nat) (c : Bool) : Nat :=
  if isSteward u then 0 else
    match s.slotOf u c with
    | some j => (s.job j).phase
    | none => 0

/-- Odd phases are exchange phases; stewards take part in no phase (01 R10, R19). -/
def State.exchange (s : State) (u : Nat) (c : Bool) : Bool := s.phaseOf u c % 2 == 1

/-- The acting context is in an exchange phase. -/
def State.inExchange (s : State) : Bool := s.exchange s.cur.unit s.bank

/-- The stall limit of a context's job (09 R289). -/
def State.stallLimit (s : State) (u : Nat) (c : Bool) : Nat :=
  match s.slotOf u c with
  | some j => (s.job j).stallto
  | none => 1048576

/-- Put an event into the agenda for cycle `at_`. -/
def State.schedule (s : State) (at_ : Nat) (e : Event) : State := { s with agenda := s.agenda ++ [(at_, e)] }

/-- Physical address of a control-space offset (08 R230). -/
def controlPA (off : Nat) : Nat := 0xF * 2 ^ 52 + off

/-- Make an event due now, after those already due. -/
def State.due (s : State) (e : Event) : State := { s with inbox := s.inbox ++ [e] }

/-- Something leaves the module. -/
def State.emit (s : State) (o : Outgoing) : State := { s with out := s.out ++ [o] }

/-- The state after one free value has been used. -/
def State.used (s : State) (n : Nat := 1) : State := { s with fresh := s.fresh + n }

/-! ### The grid (00 R5, 01 R9) -/

/-- Die of a tile or steward. -/
def dieOf (u : Nat) : Nat := if isSteward u then (u - 768) / 4 else u / 192

/-- Cluster of a tile within its die. -/
def clusterOf (u : Nat) : Nat := u % 192 / 16

/-- Position of a tile within its cluster. -/
def posOf (u : Nat) : Nat := u % 16

/-- Grid row of a tile. -/
def rowOfTile (u : Nat) : Nat := dieOf u / 2 * 12 + clusterOf u / 4 * 4 + posOf u / 4

/-- Grid column of a tile. -/
def colOfTile (u : Nat) : Nat := dieOf u % 2 * 16 + clusterOf u % 4 * 4 + posOf u % 4

/-- The tile at a grid place. -/
def tileAt (r c : Nat) : Nat :=
  (r / 12 * 2 + c / 16) * 192 + (r % 12 / 4 * 4 + c % 16 / 4) * 16 + (r % 4 * 4 + c % 4)

/-- The tile of cluster position `p` in the cluster of `u` (07 R213). -/
def sibling (u p : Nat) : Nat := u / 16 * 16 + p

/-- Row and column as fault reports give them: row × 2^16 + col (05 R138). -/
def gridWord (u : Nat) : Word := BitVec.ofNat 64 (rowOfTile u * 65536 + colOfTile u)

/-- Die crossings of the start pulse (01 R26). -/
def pulseCrossings (die : Nat) : Nat := if die = 0 then 0 else if die = 3 then 2 else 1

/-- Cycles of the start pulse from tile (0, 0), and of an arrival back to it (01 R26, 14 R397). -/
def pulseDelay (u : Nat) : Nat := 2 * (rowOfTile u + colOfTile u) + 6 * pulseCrossings (dieOf u)

/-- Die crossings between two dies of the freeze tree (14 R400). -/
def dieCrossings (a b : Nat) : Nat := (if a / 2 = b / 2 then 0 else 1) + (if a % 2 = b % 2 then 0 else 1)

/-- The difference of two numbers. -/
def distance (a b : Nat) : Nat := (a - b) + (b - a)

/-- Cycles of a freeze wave from grid place (r0, c0) to tile `u` (14 R400). -/
def waveDelay (r0 c0 u : Nat) : Nat :=
  4 + distance (rowOfTile u) r0 + distance (colOfTile u) c0 + 8 * dieCrossings (dieOf (tileAt r0 c0)) (dieOf u)

/-- The ctl.tile register of a unit (04 R103). -/
def tileIdentity (u : Nat) : Word :=
  if isSteward u then BitVec.ofNat 64 (dieOf u * 2 ^ 32 + 31 * 2 ^ 24 + 31 * 2 ^ 16 + u)
  else BitVec.ofNat 64 (posOf u * 2 ^ 40 + clusterOf u * 2 ^ 36 + dieOf u * 2 ^ 32 + colOfTile u * 2 ^ 24
    + rowOfTile u * 2 ^ 16 + u)

/-- The agent value of a context or steward (08 R235). -/
def agentOf (u : Nat) (c : Bool) : Nat := if isSteward u then 0x600 + (u - 768) else u * 2 + c.toNat

/-! ### Device time (13 R368) -/

/-- Device time gained in one cycle, in 2^-16/17 ns: 20/17 ns. -/
def timePerCycle : Nat := 1310720

/-- Units of device time in one nanosecond. -/
def timePerNs : Nat := 1114112

/-- Device time in ns. -/
def State.ns (s : State) : Nat := s.time / timePerNs

/-- Fraction of device time in 2^-16 ns. -/
def State.frac (s : State) : Nat := s.time / 17 % 65536

/-- Device time gained in cycle `n` while the servo is locked: it steers the clock within 50 ppm (13 R368). -/
def steered (n : Nat) : Nat := timePerCycle - 65 + Config.clockSlew n % 131

/-- Device time from this cycle's edge to the next one. -/
def State.timeStep (s : State) : Nat := if s.servo.lock then steered s.cycle else timePerCycle

/-- The first cycle, from `n` on, whose edge of a steered clock is at or after `t`; the edge of cycle `n` is at `now`. -/
def edgeFrom (t : Nat) : Nat → Nat → Nat → Nat
  | 0, n, _ => n
  | fuel + 1, n, now => if t ≤ now then n else edgeFrom t fuel (n + 1) (now + steered n)

/-- The first cycle, up to `n`, whose edge of a steered clock is at or after `t`. -/
def edgeUpTo (t : Nat) : Nat → Nat → Nat → Nat
  | 0, n, _ => n
  | fuel + 1, n, now =>
    let before := now - steered (n - 1)
    if t ≤ before then edgeUpTo t fuel (n - 1) before else n

/-- The first cycle whose edge is at or after device time `t` ns, the present one if it is, as long as the servo stays as it is. -/
def State.cycleAt (s : State) (t : Nat) : Nat :=
  let ahead := t * timePerNs - s.time
  if s.servo.lock then edgeFrom (t * timePerNs) (ahead / (timePerCycle - 65) + 1) s.cycle s.time
  else s.cycle + (ahead + (timePerCycle - 1)) / timePerCycle

/-! ### Windows (07 R204, R215, R216) -/

/-- Physical address of an offset in the window of a unit. -/
def windowPA (u off : Nat) : Nat := 0xE * 2 ^ 52 + u * 2 ^ 22 + off

/-- The scratchpad, or the data memory of a steward, ends here (07 R203, R217). -/
def scratchSize (u : Nat) : Nat := if isSteward u then 0x080000 else 0x180000

/-- Bank of a scratchpad offset (07 R203). -/
def bankOf (off : Nat) : Nat := off / 65536

/-- The bank register of bank `b` with CTXB as the mode gives it (07 R208, 01 R39). -/
def Tile.bankReg (t : Tile) (b : Nat) : Word :=
  let w := t.banks.look 0 b
  let owner := if t.dual then decide (12 ≤ b) else w.getLsbD 0
  (w &&& 0xFFF0) ||| (if owner then 1 else 0)

/-- Owner of a bank: context B (07 R208). -/
def Tile.bankOwner (t : Tile) (b : Nat) : Bool := (t.bankReg b).getLsbD 0

/-- ROLE of a bank (07 R208). -/
def Tile.role (t : Tile) (b : Nat) : Nat := ((t.bankReg b).extractLsb' 4 3).toNat

/-- FMT of a bank (07 R208). -/
def Tile.fmt (t : Tile) (b : Nat) : Nat := ((t.bankReg b).extractLsb' 12 4).toNat

/-- The bytes [off, off + n) touch the spill area of dual-context mode (07 R203). -/
def inSpill (dual : Bool) (off n : Nat) : Bool := dual && decide (0xC800 < off % 65536 + n)

/-! ### Code lines (02 R41 to R43) -/

/-- Where image line `i` stands in the store of its unit (02 R43). -/
def lineOffset (i : Nat) : Nat := 0x200000 + 64 * (i % 4096)

/-- Line index and slot of a position (02 R46). -/
def posLine (p : Pos) : Nat := (p.extractLsb' 3 20).toNat
/-- See `posLine`. -/
def posSlot (p : Pos) : Nat := (p.extractLsb' 0 3).toNat

/-- The position of a line and slot. -/
def mkPos (line slot : Nat) : Pos := BitVec.ofNat 23 (line * 8 + slot)

/-- The value that stands for a position not formed, on the chain-end line (04 R107). -/
def noPos : Pos := 0x7FFFFF

/-- Image line `i` is present for context `c` of unit `u` (02 R43). -/
def State.linePresent (s : State) (u : Nat) (c : Bool) (i : Nat) : Bool :=
  (s.tile u).tags.look none (i % 4096) == some (c, i)

/-- The link word of image line `i` (02 R41). -/
def State.linkWord (s : State) (u i : Nat) : BitVec 32 :=
  BitVec.ofNat 32 (readBytes s.mem (windowPA u (lineOffset i)) 4)

/-- Slot `k` of image line `i` (02 R42). -/
def State.lineSlot (s : State) (u i k : Nat) : Slot :=
  let b := 32 + 60 * k
  BitVec.ofNat 60 (readBytes s.mem (windowPA u (lineOffset i) + b / 8) 9 / 2 ^ (b % 8))

/-- NVS, NEXT, ENG of a link word (02 R41). -/
def linkNvs (w : BitVec 32) : Nat := (w.extractLsb' 5 3).toNat
/-- See `linkNvs`. -/
def linkNext (w : BitVec 32) : Nat := (w.extractLsb' 8 20).toNat
/-- See `linkNvs`. -/
def linkEng (w : BitVec 32) : Nat := (w.extractLsb' 28 4).toNat

/-- The slot at a position with the valid slot after it in its line, if the line is present. -/
def State.fetch (s : State) (u : Nat) (c : Bool) (p : Pos) : Option (Slot × Option Slot) :=
  if s.linePresent u c (posLine p) then
    let nvs := linkNvs (s.linkWord u (posLine p))
    some (s.lineSlot u (posLine p) (posSlot p),
      if (posSlot p) + 1 ≤ nvs then some (s.lineSlot u (posLine p) ((posSlot p) + 1)) else none)
  else none

/-- The position after the instruction `w` at `p`, in a line with the given link word: the next valid slot after it, past its
extension slot, or slot 0 of line NEXT; `none` where the chain ends (02 R44, 04 R107). -/
def successorOf (eng : Nat) (link : BitVec 32) (w : Slot) (p : Pos) : Option Pos :=
  let k := (posSlot p) + (if isTwoSlot eng w then 2 else 1)
  if k ≤ linkNvs link then some (mkPos (posLine p) k)
  else if linkNext link = 0xFFFFF then none
  else some (mkPos (linkNext link) 0)

/-- The successor of the instruction at a position, as its line stands; `none` while its line is absent too. -/
def State.successor (s : State) (u : Nat) (c : Bool) (eng : Nat) (p : Pos) : Option Pos :=
  match s.fetch u c p with
  | none => none
  | some (w, _) => successorOf eng (s.linkWord u (posLine p)) w p

end Sys2Proof.Machine
end

