-- ==== Sys2Proof/Machine/Ops.lean ====
section
/-!
DEFINITION. The shared operations: byte access with error correction and poison, notices, benching, the trace buffer,
originating a whistle, taking a trap and returning from one, and the fetch queue of the control core.
-/
namespace Sys2Proof.Machine

/-! ### Stored bytes: poison, inverted bits, injection, monitors -/

/-- The 64-bit words that lie wholly in [pa, pa + n). -/
def wordsWithin (pa n : Nat) : List Nat :=
  ((List.range (n / 8 + 1)).map fun i => (pa + 7) / 8 * 8 + 8 * i).filter fun w => decide (w + 8 ≤ pa + n)

/-- The 64-bit words that [pa, pa + n) touches. -/
def wordsTouching (pa n : Nat) : List Nat :=
  ((List.range (n / 8 + 2)).map fun i => pa / 8 * 8 + 8 * i).filter fun w => decide (w < pa + n)

/-- Whether the word that holds a physical address is poisoned (07 R219). -/
def State.poisoned (s : State) (pa : Nat) : Bool := (s.poison.find (pa / 8 * 8)).isSome

/-- The first poisoned word that [pa, pa + n) touches. -/
def State.firstPoison (s : State) (pa n : Nat) : Option Nat := (wordsTouching pa n).find? s.poisoned

/-- The line of a physical address is HBM that is poisoned whole. -/
def State.badLine (s : State) (pa : Nat) : Bool := (s.badLines.find (pa / 64)).isSome && decide (pa < 2 ^ 40)

/-- Where the inverted bits of a line's sideband are kept: its stamp in bits [31:0], its check bits above (08 R231). -/
def sidebandPA (line : Nat) : Nat := 2 ^ 60 + 8 * line

/-- The lines of HBM that lie wholly in [pa, pa + n). -/
def linesWithin (pa n : Nat) : List Nat :=
  ((List.range (n / 64 + 1)).map fun i => (pa + 63) / 64 + i).filter fun l => decide (64 * l + 64 ≤ pa + n) && decide (l < 2 ^ 34)

/-- Poison a word. -/
def State.setPoison (s : State) (pa : Nat) : State := { s with poison := s.poison.put (pa / 8 * 8) () }

/-- Clear the poison, and the inverted bits, of a word written whole (07 R220); a word of a line that is poisoned whole stays so
(08 R231). -/
def State.clearPoison (s : State) (pa : Nat) : State :=
  { s with poison := if s.badLine pa then s.poison else s.poison.del (pa / 8 * 8), flips := s.flips.del (pa / 8 * 8) }

/-- The words of a window that are written whole have no poison and no inverted bit left. -/
def State.cleanSpan (s : State) (u off n : Nat) : State :=
  if s.poison.isEmpty && s.flips.isEmpty then s else (wordsWithin (windowPA u off) n).foldl State.clearPoison s

/-- Lines written whole lose their poison, and the inverted bits of their sidebands (08 R231). -/
def State.clearLines (s : State) (pa n : Nat) : State :=
  (linesWithin pa n).foldl (fun s l => { s with badLines := s.badLines.del l, flips := s.flips.del (sidebandPA l) }) s

/-- Wake the monitors whose armed line takes a write of another agent than `by_` (08 R258). -/
def State.wakeMonitors (s : State) (by_ : Option Nat) (pa n : Nat) : State :=
  if pa < 2 ^ 53 then
    (s.units.filter fun e => match e.2.lmon.line with
      | some l => decide (l < pa + n) && decide (pa < l + 64) && by_ != some (agentOf e.1 false)
      | none => false).foldl (fun s e => s.due (.monitorWake e.1)) s
  else s

/-- Fire the armed injection of a unit when the word it names is stored (07 R222). -/
def State.fireInjection (s : State) (pa n : Nat) : State :=
  let u := pa / 2 ^ 22 % 1024
  if pa / 2 ^ 52 = 0xE then
    match (s.tile u).inject with
    | some (a, mask, x) =>
      if a / 8 * 8 ∈ wordsTouching pa n then
        { (s.mod u fun t => { t with inject := none }) with
          flips := s.flips.put (a / 8 * 8) { mask := mask, check := x.getLsbD 1, injected := true } }
      else s
    | none => s
  else s

/-- Bytes stored, the reserved bits of a steward's MWAIT status word among them reading zero (00 R4, 08 R258). -/
def storeBytes (mem : List Host.Cell) (pa n v : Nat) : List Host.Cell :=
  let m := writeBytes mem pa n v
  let w := pa / 2 ^ 22 * 2 ^ 22 + 0x7FFB8
  if pa / 2 ^ 52 = 0xE ∧ 768 ≤ pa / 2 ^ 22 % 1024 ∧ pa < w + 8 ∧ w < pa + n then writeBytes m w 8 (readBytes m w 8 % 4) else m

/-- Store the low `n` bytes of `v` at physical address `pa` for agent `by_`: words and lines written whole lose their poison, an
armed injection of the word fires, monitors of the line wake (07 R220, R222, 08 R231, R258). -/
def State.storePA (s : State) (pa n v : Nat) (by_ : Option Nat := none) : State :=
  let s := (wordsWithin pa n).foldl State.clearPoison (State.clearLines { s with mem := storeBytes s.mem pa n v } pa n)
  (s.fireInjection pa n).wakeMonitors by_ pa n

/-- The little-endian value of `n` bytes at a physical address. -/
def State.loadPA (s : State) (pa n : Nat) : Nat := readBytes s.mem pa n

/-- Array number of a window offset (07 R221). -/
def arrayOf (off : Nat) : Nat :=
  match off / 65536 with
  | 0x20 => 1 | 0x21 => 1 | 0x22 => 1 | 0x23 => 1
  | 0x24 => 2 | 0x25 => 2 | 0x26 => 3 | 0x27 => 3 | 0x28 => 4 | 0x29 => 5 | 0x2A => 6
  | b => if b < 0x18 then 0 else 7

/-- A log after one more error (07 R221). -/
def ErrorLog.add (l : ErrorLog) (ue inj : Bool) (addr : Nat) (synd : BitVec 8) (agent : Nat) : ErrorLog :=
  let l := if ue then { l with ucnt := cap32 (l.ucnt + 1) } else { l with ccnt := cap32 (l.ccnt + 1) }
  if !l.valid then { l with valid := true, ue := ue, ovf := false, inj := inj, addr := addr, synd := synd, agent := agent }
  else if ue && !l.ue then { l with ovf := true, ue := true, inj := inj, addr := addr, synd := synd, agent := agent }
  else { l with ovf := true }

/-! ### Notices (10 R304) -/

/-- Write a notice into a die's notice line: word n mod 7, then COUNT. -/
def State.notice (s : State) (die : Nat) (w : Nat) : State :=
  let a := s.noticeAddr.look 0 die
  if a = 0 then s else
    let n := s.noticeCount.look 0 die
    let n' := min (n + 1) (2 ^ 64 - 1)
    let s := { s with noticeCount := s.noticeCount.put die n' }
    (s.storePA (a + 8 * (n % 7)) 8 w).storePA (a + 56) 8 n'

/-! ### Placements and benching (12 R356 to R358) -/

/-- Rows and columns of a shape signature (11 R332). -/
def sigRows (sig : Word) : Nat := (sig.extractLsb' 41 5).toNat + 1
/-- See `sigRows`. -/
def sigCols (sig : Word) : Nat := (sig.extractLsb' 35 6).toNat + 1

/-- The tiles of a region, row-major. -/
def regionTiles (row0 col0 rows cols : Nat) : List Nat :=
  (List.range (rows * cols)).map fun i => tileAt (row0 + i / cols) (col0 + i % cols)

/-- The tiles of a placement, in member order. -/
def Placement.tiles (p : Placement) : List Nat :=
  regionTiles (bits p.origin 0 5) (bits p.origin 8 5) (sigRows p.sig) (sigCols p.sig)

/-- The bank of a placement. -/
def Placement.bank (p : Placement) : Bool := bits p.origin 16 1 == 1

/-- The state of one record of a queue replaced. -/
def TaskQueue.setRecord (q : TaskQueue) (r : Nat) (st : RecordState) : TaskQueue :=
  { q with recs := q.recs.map fun e => if e.1 % 65536 = r % 65536 then (e.1, st, e.2.2) else e }

/-- A context becomes free; while a task reserves regions, it is marked for it (11 R329). -/
def State.freeContext (s : State) (u : Nat) (c : Bool) : State :=
  let s := s.modCtx u c fun x => { x with life := .free, dead := 0, vdead := 0 }
  if s.reserving.isSome then { s with reservedMarks := (u, c) :: s.reservedMarks } else s

/-- Free a PLACED entry: its record waits again and its contexts are free (11 R328, 12 R358). -/
def State.freePlaced (s : State) (k : Nat) : State :=
  let p := s.placed.look {} k
  let q := s.queues.look {} p.queue
  let s := { s with placed := s.placed.put k {}, queues := s.queues.put p.queue (q.setRecord p.record .waiting) }
  p.tiles.foldl (fun s u => s.freeContext u p.bank) s

/-- Set the bench bit of a tile with its effects (12 R358); a benched tile stays as it is. -/
def State.benchTile (s : State) (t : Nat) : State :=
  if s.bench.getLsbD t then s else
    let hit := s.placed.filter fun e => e.2.state == 1 && e.2.tiles.contains t
    let s := hit.foldl (fun s e => s.freePlaced e.1) s
    let s := { s with bench := s.bench ||| BitVec.twoPow 768 t }
    let s := s.notice (dieOf t) (1 + t * 256)
    { s with boot := { s.boot with rreq := true } }

/-- Bench a tile whose error counts reach a threshold (12 R357). -/
def State.checkThreshold (s : State) (u : Nat) : State :=
  if isSteward u then s else
    let logs := (s.tile u).elog
    let sum := fun (f : ErrorLog → Nat) => (logs.filter fun e => e.1 < 8).foldl (fun n e => n + f e.2) 0
    let cthr := (s.threshold.extractLsb' 32 32).toNat
    let uthr := (s.threshold.extractLsb' 0 16).toNat
    if (cthr != 0 && decide (cthr ≤ sum ErrorLog.ccnt)) || (uthr != 0 && decide (uthr ≤ sum ErrorLog.ucnt))
    then s.benchTile u else s

/-! ### Error correction (07 R219, R221) -/

/-- Log an error of the word at a physical address. -/
def State.logError (s : State) (pa : Nat) (ue inj : Bool) (synd : BitVec 8) (agent : Nat) : State :=
  if pa / 2 ^ 52 = 0xE then
    let u := pa / 2 ^ 22 % 1024
    let off := pa % 2 ^ 22
    let a := arrayOf off
    (s.mod u fun t => { t with elog := t.elog.put a ((t.elog.look {} a).add ue inj (off / 8 * 8) synd agent) }).checkThreshold u
  else
    let k := 4 * (pa / 2 ^ 38 % 4) + pa / 256 % 4
    { s with hbmLog := s.hbmLog.put k ((s.hbmLog.look {} k).add ue inj (pa % 2 ^ 40 / 64 * 64) synd agent) }

/-- Inverted bits that the code cannot correct: never a single one. -/
def Flip.uncorrectable (f : Flip) : Bool :=
  !((f.mask == 0 && f.check) || (!f.check && f.mask &&& (f.mask - 1) == 0)) && Config.uncorrectable f.mask f.check

/-- One read word is checked: inverted bits are corrected and written back in the next free cycle, or the word is
poisoned; both are logged (07 R219, R222). -/
def State.checkWord (s : State) (agent : Nat) (w : Nat) : State :=
  match s.flips.find w with
  | none => s
  | some f =>
    let ue := f.uncorrectable
    let s := s.logError w ue f.injected (Config.syndrome f.mask f.check) agent
    if ue then { s.setPoison w with flips := s.flips.del w } else s.schedule (s.cycle + 1) (.eccWriteback w)

/-- The 16-bit symbols of a 64-bit word that have inverted bits. -/
def symbolsHit (v : Word) : Nat := ((List.range 4).filter fun i => v.extractLsb' (16 * i) 16 != 0).length

/-- A line of HBM is checked with its sideband (08 R231): an error within one 16-bit symbol is corrected and written back, any
other poisons the line and its stamp; both are logged. -/
def State.checkLine (s : State) (agent line : Nat) : State :=
  let ws := ((sidebandPA line) :: (List.range 8).map fun i => 64 * line + 8 * i).filter fun w => (s.flips.find w).isSome
  if ws.isEmpty then s
  else
    let flip := fun (w : Nat) => (s.flips.find w).getD { mask := 0, check := false, injected := false }
    let hit := (ws.map fun w => symbolsHit (flip w).mask + (flip w).check.toNat).sum
    let inj := ws.any fun w => (flip w).injected
    let synd := Config.syndrome (flip (ws.head?.getD 0)).mask (flip (ws.head?.getD 0)).check
    let s := s.logError (64 * line) (decide (1 < hit)) inj synd agent
    if hit ≤ 1 then ws.foldl (fun s w => s.schedule (s.cycle + 1) (.eccWriteback w)) s
    else
      let s := (List.range 8).foldl (fun s i => s.setPoison (64 * line + 8 * i)) s
      { s with badLines := s.badLines.put line (), flips := ws.foldl (fun t w => t.del w) s.flips }

/-- A read of [pa, pa + n) by an agent checks every word that it touches; in HBM, every line. -/
def State.scrub (s : State) (agent pa n : Nat) : State :=
  if s.flips.isEmpty then s
  else if pa < 2 ^ 40 then ((List.range ((pa + n + 63) / 64 - pa / 64)).map (pa / 64 + ·)).foldl (fun s l => s.checkLine agent l) s
  else (wordsTouching pa n).foldl (fun s w => s.checkWord agent w) s

/-! ### The trace buffer (14 R408, R409) -/

/-- Record an event of a tile for the trace buffer, if its kind is enabled. -/
def State.traceEvent (s : State) (u kind eng : Nat) (c : Bool) (w1 : Word) : State :=
  if (s.tile u).trace.ctl.getLsbD kind then
    s.mod u fun t => { t with trace := { t.trace with pend := t.trace.pend ++
      [(eng, BitVec.ofNat 64 (kind * 2 ^ 60 + eng * 2 ^ 57 + c.toNat * 2 ^ 56 + s.cycle % 2 ^ 48), w1)] } }
  else s

/-- Write one entry at HEAD while recording has not stopped, and act on a trigger (14 R409). -/
def State.traceWrite (s : State) (u : Nat) (w0 w1 : Word) : State :=
  let t := (s.tile u).trace
  if t.ctl.getLsbD 62 then s else
    let s := s.storePA (windowPA u (0x300000 + 16 * t.head)) 16 (w0.toNat + w1.toNat * 2 ^ 64)
    let t := { t with head := (t.head + 1) % 4096, ctl := if t.head = 4095 then t.ctl ||| BitVec.twoPow 64 61 else t.ctl }
    let idx := (t.head + 4095) % 4096
    let hit := t.ctl.getLsbD 63 && (t.ctl.extractLsb' 40 4) == (w0.extractLsb' 60 4)
      && (t.ctl.extractLsb' 40 4) != 0 && (t.ctl.extractLsb' 8 24) == (w1.extractLsb' 0 24)
    let stop := fun (t : Trace) => { t with ctl := t.ctl ||| BitVec.twoPow 64 62, post := none }
    let t := match t.post with
      | some 0 => stop t
      | some (n + 1) => if n = 0 then stop t else { t with post := some n }
      | none =>
        if hit then
          let n := (t.ctl.extractLsb' 48 13).toNat
          let t := { t with ctl := t.ctl &&& ~~~BitVec.twoPow 64 63, tidx := idx, post := some n }
          if n = 0 then stop t else t
        else t
    s.mod u fun h => { h with trace := t }

/-- At the end of a cycle its entries are written in engine order, at most four; the rest are dropped and counted
(14 R408). -/
def State.traceFlush (s : State) (u : Nat) : State :=
  let p := (s.tile u).trace.pend
  if p.isEmpty then s else
    let sorted := (List.range 5).flatMap fun e => p.filter fun x => x.1 == e
    let s := s.mod u fun t => { t with trace := { t.trace with pend := [], drop := cap32 (t.trace.drop + (sorted.length - 4)) } }
    (sorted.take 4).foldl (fun s e => s.traceWrite u e.2.1 e.2.2) s

/-! ### The fetch queue (04 R107) -/

/-- The entry of a position: with its slot, if its line is present. -/
def State.entryAt (s : State) (u : Nat) (c : Bool) (p : Pos) : QEntry :=
  { pos := some p, slot := s.fetch u c p, link := s.linkWord u (posLine p) }

/-- The entry of the successor of another, by the slot and link word that one was fetched with (02 R72); a placeholder while it
cannot be formed. -/
def State.entryAfter (s : State) (u : Nat) (c : Bool) (e : QEntry) : QEntry :=
  match e.pos, e.slot with
  | some p, some (w, _) =>
    match successorOf 0 e.link w p with
    | none => { pos := none }
    | some q => s.entryAt u c q
  | _, _ => { pos := none }

/-- Form a placeholder, or fetch a slot, whose line has become present. -/
def State.reform (s : State) (u : Nat) (c : Bool) (before e : QEntry) : QEntry :=
  match e.pos with
  | none => { s.entryAfter u c before with annul := e.annul }
  | some p => if e.slot.isNone then { s.entryAt u c p with annul := e.annul } else e

/-- The queue with placeholders formed where they can be. -/
def State.refresh (s : State) (u : Nat) (c : Bool) (q : Queue) : Queue :=
  let f0 := match q.f0.pos with
    | some p => if q.f0.slot.isNone then { s.entryAt u c p with annul := q.f0.annul } else q.f0
    | none => q.f0
  let f1 := s.reform u c f0 q.f1
  { f0 := f0, f1 := f1, f2 := s.reform u c f1 q.f2 }

/-- The queue of a position and its two successors, none annulled. -/
def State.queueAt (s : State) (u : Nat) (c : Bool) (p : Pos) : Queue :=
  let f0 := s.entryAt u c p
  let f1 := s.entryAfter u c f0
  { f0 := f0, f1 := f1, f2 := s.entryAfter u c f1 }

/-- The 64-bit value that a capture writes for an entry: 0x7F_FFFF for a placeholder (04 R107). -/
def QEntry.word (e : QEntry) : Word :=
  match e.pos with
  | none => 0x7FFFFF
  | some p => p.setWidth 64

/-- The entry that a reload makes of a captured value: 0x7F_FFFF is formed afresh after the entry before it. -/
def State.reload (s : State) (u : Nat) (c : Bool) (before : QEntry) (w : Word) (annul : Bool) : QEntry :=
  if w.extractLsb' 0 23 == noPos then { s.entryAfter u c before with annul := annul }
  else { s.entryAt u c (w.extractLsb' 0 23) with annul := annul }

/-- The queue that ERET or a resume loads from the captured positions and annul bits (04 R109, R110). -/
def State.reloadQueue (s : State) (u : Nat) (c : Bool) (epc enpc ennpc ebits : Word) : Queue :=
  let f0 := s.reload u c { pos := none } epc (ebits.getLsbD 0)
  let f1 := s.reload u c f0 enpc (ebits.getLsbD 1)
  { f0 := f0, f1 := f1, f2 := s.reload u c f1 ennpc (ebits.getLsbD 2) }

/-- The annul bits AN0 to AN2 of a queue. -/
def Queue.annulBits (q : Queue) : Word :=
  (if q.f0.annul then 1 else 0) ||| (if q.f1.annul then 2 else 0) ||| (if q.f2.annul then 4 else 0)

/-- A load into s2 (04 R102). -/
def CoreAccess.intoS2 : CoreAccess → Bool
  | .load _ _ _ _ _ d _ => d == 2
  | .store .. => false

/-! ### The freeze (04 R110; 14 R400 to R402) -/

/-- The capture of a frozen context: its queue and micro-state into the registers, what they held into hidden copies. Outside a
multi-cycle instruction ctl.ustate0 and ctl.ustate1 take the partial state of the last one; an instruction that holds the core
for its result into s2 stands at F0 with what it has done, and completes after the release (log entry 52). -/
def Ctx.capture (x : Ctx) : Ctx :=
  match x.hidden with
  | some _ => x
  | none =>
    let q := x.queue
    { x with
      hidden := some { epc := x.epc, enpc := x.enpc, ennpc := x.ennpc, ebits := x.ebits, ustate0 := x.ustate0, ustate1 := x.ustate1 }
      epc := q.f0.word, enpc := q.f1.word, ennpc := q.f2.word
      ebits := q.annulBits ||| (x.ebits &&& 8) ||| BitVec.ofNat 64 (x.ust % 256 * 256)
      ustate0 := x.partial0, ustate1 := x.partial1, frozen := true }

/-- A context that stands elsewhere than it did forgets the result into s2 that it waited for. -/
def Ctx.forgetResult (x : Ctx) : Ctx :=
  { x with late := none, hold := none, told := false, accesses := x.accesses.filter fun a => !a.intoS2 }

/-- The freeze record of a tile: FROZEN, CTX, the cause and the freeze cycle. -/
def State.recordFreeze (s : State) (u : Nat) (c : Bool) (cause : Nat) : State :=
  let ws : List Word := [fields [(1, 63), (c.toNat, 61), (cause, 32)], BitVec.ofNat 64 s.cycle, 0]
  s.mod u fun t => { t with freeze := t.freeze.putAll 0 ws }

/-- Start pulses on their way to a tile park (14 R401). -/
def State.parkPulse (s : State) (j u : Nat) (c : Bool) : State :=
  let mine := fun (e : Nat × Event) => e.2 == .startPulseArrival j u
  match s.agenda.find? mine with
  | none => s
  | some e =>
    { s with agenda := s.agenda.filter fun e => !mine e }.modCtx u c fun x => { x with pulseLeft := some (e.1 - s.cycle) }

/-- The running context of a tile freezes in this cycle. -/
def State.freezeContext (s : State) (j u cause : Nat) : State :=
  let c := (s.tile u).run
  let x := s.ctx u c
  if x.frozen || !x.takesPart || x.jobId != (s.job j).id then s
  else ((s.modCtx u c Ctx.capture).parkPulse j u c).traceEvent u 6 0 c (BitVec.ofNat 64 cause)

/-- The boundary unit of a job freezes; a sequence whose first step has not been made is dropped (14 R397). -/
def State.holdBoundary (s : State) (j : Nat) : State :=
  let b := s.job j
  if b.held then s
  else
    let early := s.agenda.any fun e => e.2 == .boundarySequence j && decide (s.cycle + 3 ≤ e.1)
    s.modJob j fun b => { b with
      held := true, heldAt := s.cycle, sequence := b.sequence && !early
      conditionsAt := if b.sequence && !early then b.conditionsAt else none }

/-! ### Originating a whistle (14 R398 to R404) -/

/-- The lesser of two whistles: (OTIME, OFRAC), then ODEV, then OTILE (14 R404). -/
def Whistle.before (a b : Whistle) : Bool :=
  decide (a.time < b.time) || (a.time == b.time && (decide (a.frac < b.frac) || (a.frac == b.frac
    && (decide (a.dev < b.dev) || (a.dev == b.dev && decide (a.tile < b.tile))))))

/-- Schedule a freeze wave over the running contexts of a job, and its boundary unit at tile (0, 0), from a grid place,
starting now (14 R400). -/
def State.startWave (s : State) (j r0 c0 : Nat) : State :=
  let us := (s.units.filter fun e => !isSteward e.1 && e.1 != 0 && (e.2.ctx e.2.run).takesPart
      && (e.2.ctx e.2.run).jobId == (s.job j).id).map (·.1)
  (0 :: us).foldl (fun s u => s.schedule (s.cycle + waveDelay r0 c0 u) (.waveReachesTile j u)) s

/-- The whistle packet of 14 R399. -/
def whistlePacket (dgrp dev kind : Nat) (job : BitVec 32) (w : Whistle) (n t : Nat) : Packet where
  ddev := BitVec.ofNat 10 dgrp
  type := 0x17
  dtile := 0x3FC
  fW := true
  sdev := BitVec.ofNat 10 dev
  len := 3
  payload := BitVec.ofNat 2048 (job.toNat + kind * 2 ^ 32 + w.cause * 2 ^ 40 + (w.tile + w.eng * 4096) * 2 ^ 48
    + w.time * 2 ^ 64 + w.frac * 2 ^ 128 + w.dev * 2 ^ 144 + n * 2 ^ 160 + t * 2 ^ 192 + w.info0.toNat * 2 ^ 256)

/-- The fabric ports whose link is UP or DEGRADED (10 R323). -/
def State.upPorts (s : State) : List Nat :=
  (List.range 72).filter fun p => let st := (s.links.look {} p).state; st == 1 || st == 2

/-- Send a whistle packet on every usable fabric port, `delay` cycles from now (14 R399). -/
def State.sendWhistle (s : State) (delay : Nat) (p : Packet) : State :=
  s.upPorts.foldl (fun s q => s.emit (.packet (s.cycle + delay) q p)) s

/-- A freeze whistle has been seen for job slot `j` (14 R404): the winner is kept; the first one starts the settling
time. -/
def State.seeWhistle (s : State) (j : Nat) (w : Whistle) : State :=
  let b := s.job j
  if b.valid && b.settled && b.runState != 2 then s.modJob j fun b => { b with nwh := min 255 (b.nwh + 1) }
  else if b.valid && !b.settled then
    s.modJob j fun b => { b with
      nwh := min 255 (b.nwh + 1)
      winner := match b.winner with
        | some v => if w.before v then some w else some v
        | none => some w }
  else
    let s := s.modJob j fun b => { b with
      valid := true, settled := false, runState := 1, winner := some w, nwh := min 255 (b.nwh + 1)
      ltime := s.ns, lcycle := s.cycle, wphase := b.phase, release := none, stepFor := none }
    s.schedule (s.cycle + 3400) (.causeSettle j)

/-- The tile that originates a whistle freezes in the cycle of its trap, (0, 0) with the boundary unit (14 R398, R407). -/
def State.freezeOrigin (s : State) (j u cause : Nat) : State :=
  let c := (s.tile u).run
  let x := s.ctx u c
  if 768 ≤ u then s
  else
    let s := if u = 0 then s.holdBoundary j else s
    if x.frozen || !x.takesPart || x.jobId != (s.job j).id then s else (s.freezeContext j u cause).recordFreeze u c cause

/-- A whistle for job slot `j` that this module originates, its wave starting at a grid place (14 R398 to R400). -/
def State.originate (s : State) (j tile eng cause : Nat) (info0 : Word) (r0 c0 : Nat) : State :=
  let w : Whistle := { time := s.ns, frac := s.frac, dev := s.device, tile := tile, eng := eng, cause := cause, info0 := info0 }
  let b := s.job j
  let counted := b.valid && b.settled && b.runState != 2
  let s := s.seeWhistle j w
  if counted then s else
    ((s.freezeOrigin j tile cause).startWave j r0 c0).sendWhistle 12 (whistlePacket b.dgrp s.device 0 b.id w 0 0)

/-! ### Dispositions and taking a trap (04 R104, R109, 14 R389 to R391) -/

/-- The cause codes of 14 R389. -/
def causeAssigned (c : Nat) : Bool :=
  (decide (1 ≤ c) && decide (c ≤ 0x0B)) || (decide (0x10 ≤ c) && decide (c ≤ 0x14)) || (decide (0x18 ≤ c) && decide (c ≤ 0x1C))
    || (decide (0x20 ≤ c) && decide (c ≤ 0x23)) || c == 0x30 || c == 0x31

/-- Causes whose disposition is always FREEZE (04 R104, 14 R389). -/
def causeAlwaysFreeze (c : Nat) : Bool := (decide (0x18 ≤ c) && decide (c ≤ 0x1B)) || c == 0x22 || c == 0x23

/-- Causes for which REPORT is not "as FREEZE" (14 R389). -/
def causeReports (c : Nat) : Bool :=
  c == 0x06 || c == 0x09 || c == 0x0A || c == 0x0B || c == 0x14 || c == 0x1C || c == 0x20 || c == 0x21 || c == 0x31

/-- How a trap is taken. -/
inductive Disposition where
  | handle
  | freeze
  | report
deriving DecidableEq, Repr

/-- The disposition field of a cause (04 R104). -/
def Ctx.dispField (x : Ctx) (c : Nat) : Nat :=
  if causeAlwaysFreeze c || !causeAssigned c then 1
  else if c < 32 then (x.disp.extractLsb' (2 * c) 2).toNat else (x.disphi.extractLsb' (2 * (c - 32)) 2).toNat

/-- How a context takes a cause: REPORT of a cause marked "as FREEZE" acts as FREEZE (14 R389). -/
def Ctx.disposition (x : Ctx) (c : Nat) : Disposition :=
  match x.dispField c with
  | 0 => .handle
  | 2 => if causeReports c then .report else .freeze
  | _ => .freeze

/-- INH: a handler is running (04 R103). -/
def Ctx.inHandler (x : Ctx) : Bool := x.ebits.getLsbD 3

/-- ctl.cause of a trap (04 R103). -/
def causeWord (t : Trap) (frz nest : Bool) : Word :=
  BitVec.ofNat 64 (t.cause + t.eng * 256 + (if frz then 4096 else 0) + (if nest then 8192 else 0))

/-- The context with ctl.cause and the info registers of a trap. -/
def Ctx.noteTrap (x : Ctx) (t : Trap) (frz nest : Bool) : Ctx :=
  { x with cause := causeWord t frz nest, info0 := t.i0, info1 := t.i1, info2 := t.i2, info3 := t.i3 }

/-- Word 1 of a KIND 5 trace entry (14 R408). -/
def trapTrace (t : Trap) : Word := BitVec.ofNat 64 (t.pos.toNat * 2 ^ 24 + t.eng * 256 + t.cause)

/-- TAKING AN EXCEPTION with disposition HANDLE (04 R109): the saved positions and annul bits from the queue, UST 0, INH 1,
cause and info as the cause states, the queue refilled from ctl.tvec. -/
def State.enterHandler (s : State) (u : Nat) (c : Bool) (t : Trap) : State :=
  let x := s.ctx u c
  let q := x.queue
  let target : Pos := x.tvec.extractLsb' 0 23
  let s := s.traceEvent u 5 t.eng c (trapTrace t)
  let s := s.traceEvent u 1 0 c (BitVec.ofNat 64 ((q.f0.word.extractLsb' 0 23).toNat * 2 ^ 23 + target.toNat))
  let queue := s.queueAt u c target
  s.modCtx u c fun x => { x.noteTrap t false false with
    epc := q.f0.word, enpc := q.f1.word, ennpc := q.f2.word
    ebits := q.annulBits ||| 8
    queue := queue, ust := 0, unchecked := false, late := none, hold := none, told := false, since := none, sources := none
    spoiled := false, stall := 0, wait := 0, atPhend := false }

/-- A trap taken by freezing (14 R390): cause and info with FRZ, NEST if a handler runs; the context stops; a steward
halts alone and writes a notice; a tile context originates a whistle for its job. DESIGN CHOICE (log entry 52): a steward
halted so keeps its queue in place and captures nothing; it restarts from that queue. -/
def State.freezeTrap (s : State) (u : Nat) (c : Bool) (t : Trap) : State :=
  let x := s.ctx u c
  let s := s.traceEvent u 5 t.eng c (trapTrace t)
  let s := s.modCtx u c fun x => { x.noteTrap t true x.inHandler with stopped := true }
  if isSteward u then
    (s.mod u fun h => { h with halted := true }).notice (dieOf u) (3 + (u - 768) * 256)
  else if x.frozen then s
  else match s.slotOf u c with
    | none => s
    | some j => s.originate j u t.eng t.cause t.i0 (rowOfTile u) (colOfTile u)

/-- A report (14 R391): the record is written; nothing else changes. -/
def State.reportTrap (s : State) (u : Nat) (c : Bool) (t : Trap) : State :=
  let s := s.traceEvent u 5 t.eng c (trapTrace t)
  s.modCtx u c fun x =>
    let n := cap32 (((x.report.look 0 0).extractLsb' 32 32).toNat + 1)
    let r := x.report.put 0 (BitVec.ofNat 64 (n * 2 ^ 32 + t.eng * 256 + t.cause))
    let r := r.put 1 (BitVec.ofNat 64 (t.ust * 2 ^ 32 + t.pos.toNat))
    let r := (((r.put 2 t.i0).put 3 t.i1).put 4 t.i2).put 5 t.i3
    { x with report := r.put 6 (BitVec.ofNat 64 s.cycle) }

/-- A trap that the control core's own instruction raises, with disposition HANDLE or FREEZE: a second one inside a handler
is taken by freezing (04 R109). -/
def State.takePrecise (s : State) (u : Nat) (c : Bool) (t : Trap) : State :=
  let x := s.ctx u c
  match x.disposition t.cause with
  | .handle => if x.inHandler then s.freezeTrap u c t else s.enterHandler u c t
  | _ => s.freezeTrap u c t

/-- A trap becomes pending for the control core of a context (14 R393, R394). -/
def State.pend (s : State) (u : Nat) (c : Bool) (t : Trap) : State := s.modCtx u c fun x => { x with traps := x.traps ++ [t] }

/-- Whether a pending trap may be delivered: one to be handled waits while a handler runs (14 R394). -/
def Ctx.deliverable (x : Ctx) (t : Trap) : Bool := x.disposition t.cause != .handle || !x.inHandler

/-- The pending trap that is delivered next (14 R394). -/
def Ctx.nextTrap (x : Ctx) : Option Trap :=
  (x.traps.filter x.deliverable).foldl (fun best t => match best with
    | none => some t
    | some b => if t.rank < b.rank then some t else some b) none

/-- Deliver the pending trap that comes first, if one may be (14 R393, R394). -/
def State.deliver (s : State) (u : Nat) (c : Bool) : State :=
  let x := s.ctx u c
  match x.nextTrap with
  | none => s
  | some t =>
    let s := s.modCtx u c fun x => { x with traps := x.traps.erase t }
    match x.disposition t.cause with
    | .handle => s.enterHandler u c t
    | .freeze => s.freezeTrap u c t
    | .report => s.reportTrap u c t

/-- RETURN FROM AN EXCEPTION (04 R109, 14 R396): the queue and annul bits from the saved registers, INH cleared, the
instruction at F0 resumed from micro-step UST. -/
def State.returnFromTrap (s : State) (u : Nat) (c : Bool) : State :=
  let x := s.ctx u c
  let q := s.reloadQueue u c x.epc x.enpc x.ennpc x.ebits
  s.modCtx u c fun x => { x with
    queue := q, ust := (x.ebits.extractLsb' 8 8).toNat, ebits := x.ebits &&& ~~~8#64
    partial0 := x.ustate0, partial1 := x.ustate1, unchecked := true, late := none, hold := none, told := false, since := none
    checked := x.checked && !x.tend }

/-! ### Timeline order (08 R245, 13 R374, R375) -/

/-- One pass over the operations of a context in issue order: those that remain, and the counters that gain one. An
operation with a counter waits for every earlier increment to it; a release waits for all earlier work, stores included. An
instruction that has not yet sent all its parts has not issued, and stands before nothing. -/
def settleOps : List Op → List Nat → Bool → List Op × List Nat
  | [], _, _ => ([], [])
  | o :: rest, blocked, durable =>
    let complete := o.left == 0 && o.stores == 0 && (!o.rel || durable)
    if !o.closed then
      let (keep, hits) := settleOps rest blocked durable
      (o :: keep, hits)
    else match o.sig with
    | none =>
      let (keep, hits) := settleOps rest blocked (durable && complete)
      (if complete then keep else o :: keep, hits)
    | some k =>
      if complete && !blocked.contains k then
        let (keep, hits) := settleOps rest blocked durable
        (keep, k :: hits)
      else
        let (keep, hits) := settleOps rest (k :: blocked) (durable && complete)
        (o :: keep, hits)

/-- A store, as against a load. -/
def CoreAccess.isStore : CoreAccess → Bool
  | .store .. => true
  | .load .. => false

/-- The stores of a context's control core that wait for their grants. -/
def Ctx.storesOut (x : Ctx) : Nat := (x.accesses.filter (·.isStore)).length

/-- Complete what can be completed: each completed operation that names a counter makes its increment due, and a completed
stream frees its entry (09 R278). -/
def State.drainOps (s : State) (u : Nat) (c : Bool) : State :=
  let x := s.ctx u c
  if x.ops.isEmpty then s
  else
    let (keep, hits) := settleOps x.ops [] true
    let s := s.modCtx u c fun x => { x with
      ops := keep, streams := x.streams.filter fun e => e.2.state != 2 || keep.any (·.id == e.2.op) }
    hits.foldl (fun s k => s.due (.timelineIncrement u c k)) s

/-- A new operation of a context, and its number. -/
def State.newOp (s : State) (u : Nat) (c : Bool) (left : Nat) (sig : Option Nat) (rel stream closed : Bool)
    (ord : Bool := false) (stores : Nat := 0) : State × Nat :=
  let id := (s.tile u).nextOp + 1
  let s := s.mod u fun t => { t with nextOp := id }
  let o : Op :=
    { id := id, left := left, sig := sig, rel := rel, stream := stream, closed := closed, ord := ord, stores := stores }
  (s.modCtx u c fun x => { x with ops := x.ops ++ [o] }, id)

/-- An operation changed. -/
def State.modOp (s : State) (u : Nat) (c : Bool) (id : Nat) (f : Op → Op) : State :=
  s.modCtx u c fun x => { x with ops := x.ops.map fun o => if o.id = id then f o else o }

/-- One more part of an operation is to become durable. -/
def State.opPart (s : State) (u : Nat) (c : Bool) (id : Nat) (n : Nat := 1) : State :=
  s.modOp u c id fun o => { o with left := o.left + n }

/-- A part of an operation is durable. -/
def State.opDone (s : State) (u : Nat) (c : Bool) (id : Nat) (n : Nat := 1) : State :=
  (s.modOp u c id fun o => { o with left := o.left - n }).drainOps u c

/-- An instruction has sent all its parts: it issues, after every operation that has issued before (13 R374). -/
def State.opClosed (s : State) (u : Nat) (c : Bool) (id : Nat) : State :=
  (s.modCtx u c fun x => { x with
    ops := x.ops.filter (·.id != id) ++ (x.ops.filter (·.id == id)).map fun o => { o with closed := true } }).drainOps u c

/-- The access strip is given another instruction in the middle of a transfer: the transfer sends no more parts and adds
nothing to its counter. -/
def State.abandon (s : State) (u : Nat) (c : Bool) : State :=
  match (s.ctx u c).access.op with
  | none => s
  | some id => (s.modOp u c id fun o => { o with closed := true, sig := none }).drainOps u c

/-! ### Flags and counts (03 R93) -/

/-- The flags that land in or before cycle `now` join the pending set, with their counts (03 R94, 04 R125). -/
def Ctx.landFlags (x : Ctx) (now : Nat) : Ctx :=
  if x.flagsDue.isEmpty then x
  else
    (x.flagsDue.filter fun d => decide (d.at_ ≤ now)).foldl (fun x d => { x with
      fpend := x.fpend ||| d.fl, nanPending := cap32 (x.nanPending + d.nan), infPending := cap32 (x.infPending + d.inf)
      satPending := cap32 (x.satPending + d.sat) })
      { x with flagsDue := x.flagsDue.filter fun d => decide (now < d.at_) }

/-- Raise pending flags of a context. -/
def Ctx.raise (x : Ctx) (f : BitVec 7) : Ctx := { x with fpend := x.fpend ||| f }

/-- Add to the pending saturation count (03 R93). -/
def Ctx.saturated (x : Ctx) (n : Nat) : Ctx := { x with satPending := cap32 (x.satPending + n) }

/-- Flags and counts that a strip instruction of the acting context raises as it completes, `after` cycles from now (04 R125). -/
def State.owes (s : State) (after : Nat) (fl : BitVec 7) (nan inf sat : Nat) : State :=
  if fl = 0 ∧ nan = 0 ∧ inf = 0 ∧ sat = 0 then s
  else
    let d : FlagsDue := { at_ := s.cycle + after, fl := fl, nan := nan, inf := inf, sat := sat }
    s.modMe fun x =>
      let x := { x with flagsDue := x.flagsDue ++ [d] }
      if after = 0 then x.landFlags s.cycle else x

end Sys2Proof.Machine
end

