-- ==== Sys2Proof/Machine/Operands.lean ====
section
/-!
DEFINITION. How a control-core instruction issues: its source and destination registers, guard, interlock, dead-register
reads, last-use marks, the stack-limit check, and what its end does to the fetch queue (02 R52, R64; 04 R97 to R102, R107,
R115).
-/
namespace Sys2Proof.Machine

/-! ### Registers -/

/-- The value of s`n`; s0 reads zero (04 R97). -/
def Ctx.readS (x : Ctx) (n : Nat) : Word := if n = 0 then 0 else x.s.look 0 n

/-- The context after a write of s`n` has landed: s0 ignores it; the dead bit clears (04 R97, R99). -/
def Ctx.writeS (x : Ctx) (n : Nat) (v : Word) : Ctx :=
  if n = 0 then x else { x with s := x.s.put n v, dead := x.dead &&& ~~~BitVec.twoPow 32 n }

/-- The value of predicate p`n`. -/
def Ctx.readP (x : Ctx) (n : Nat) : Bool := x.p.getLsbD n

/-- The context with p`n` written. -/
def Ctx.writeP (x : Ctx) (n : Nat) (v : Bool) : Ctx :=
  { x with p := (x.p &&& ~~~BitVec.twoPow 16 n) ||| (if v then BitVec.twoPow 16 n else 0) }

/-- The context with a last-use bit taken: s0 is never dead (04 R97, R99). -/
def Ctx.mark (x : Ctx) (n : Nat) (last : Bool) : Ctx :=
  if last && n != 0 then { x with dead := x.dead ||| BitVec.twoPow 32 n } else x

/-- Physical address of s`n` in the window of its unit (04 R106). -/
def scalarPA (u : Nat) (c : Bool) (n : Nat) : Nat := windowPA u (0x2B0000 + c.toNat * 0x10000 + 8 * n)

/-- The state in which s`n` of a context has been written: `v` stands in it unless it is s0, its dead bit is clear and its
stored word without error (04 R97, R99; 07 R220). -/
def State.writeReg (s : State) (u : Nat) (c : Bool) (n : Nat) (v : Word) : State :=
  (s.modCtx u c fun x => x.writeS n v).clearPoison (scalarPA u c n)

/-- The same for a register of the acting context. -/
def State.wroteS (s : State) (n : Nat) (v : Word) : State := s.writeReg s.cur.unit s.bank n v

/-! ### The declaration of an instruction -/

/-- What a control-core instruction reads and writes before its own work. -/
structure CoreSpec where
  /-- only stewards run it (02 R61) -/
  privileged : Bool := false
  /-- legal in compute phases only -/
  compute : Bool := false
  /-- scalar registers read, with their last-use bits -/
  reads : List (Nat × Bool) := []
  /-- predicates read besides the guard -/
  preds : List Nat := []
  /-- registers and predicates written -/
  writes : List CoreDest := []
  /-- latency (02 R66) -/
  lat : Nat := 1
  /-- multi-cycle: traps are decided in micro-step 1 (04 R102) -/
  multi : Bool := false

/-- How an instruction's work ends. -/
inductive CoreRes where
  /-- it completes -/
  | done (s : State)
  /-- it completes and the queue takes `target` behind its two entries, which are annulled if `annul` -/
  | branch (s : State) (target : Option Pos) (annul : Bool)
  /-- it holds issue with a wait code of 09 R289 -/
  | wait (code : Nat) (s : State)
  /-- a micro-step that is not its last -/
  | micro (s : State)
  /-- it has replaced the queue itself -/
  | moved (s : State)
  /-- it completes and then raises a trap (14 R395) -/
  | after (s : State) (t : Trap)
  /-- it raises a trap; `report` is the state in which it would complete under REPORT -/
  | trap (t : Trap) (report : Option State)
  /-- it raises a trap in a state that differs by what its own read of memory has found (07 R219) -/
  | fail (s : State) (t : Trap)
  /-- it has issued, and its result into s2 comes later (04 R102) -/
  | late (m : State) (r : Late)

/-- The slot at F0. -/
def Ctx.slotWord (x : Ctx) : Word :=
  match x.queue.f0.slot with
  | some (w, _) => w.setWidth 64
  | none => 0

/-- The position at F0. -/
def Ctx.pc (x : Ctx) : Pos := x.queue.f0.pos.getD noPos

/-! ### The end of an instruction -/

/-- If a trap is pending that may be delivered, it is delivered at the core's completion or wait (14 R393). -/
def State.offerTrap (s : State) : State :=
  if s.me.nextTrap.isSome then s.due (.asyncTrapDelivery s.cur.unit s.bank) else s

/-- The entry at F0 has issued (04 R107): the queue moves on; a branch annuls the two entries behind it. -/
def State.retire (s : State) (target : Option Pos := none) (annul : Bool := false) : State :=
  let u := s.cur.unit
  let c := s.bank
  let q := s.refresh u c s.me.queue
  let last := match target with
    | some t => s.entryAt u c t
    | none => s.entryAfter u c q.f2
  let queue : Queue :=
    { f0 := { q.f1 with annul := q.f1.annul || annul }, f1 := { q.f2 with annul := q.f2.annul || annul }, f2 := last }
  s.modMe fun x => { x with
    queue := queue, ust := 0, unchecked := false, late := none, hold := none, told := false, since := none, sources := none
    spoiled := false, stall := 0, wait := 0 }

/-- A cycle of waiting with a code of 09 R289: the stall count of a tile context, which pauses while it is frozen, and the hang fault
at STALLTO (09 R291). -/
def State.stalled (s : State) (code : Nat) : State :=
  let u := s.cur.unit
  let frozen := s.me.frozen
  let s := s.modMe fun x => { x with
    wait := code, stall := if frozen then x.stall else x.stall + 1, since := some (x.since.getD s.cycle) }
  if !isSteward u && !frozen && s.me.stall == s.stallLimit u s.bank then s.due (.hangFault u s.bank 0) else s

/-- Whether a trap of the acting context is taken by a report that lets the instruction complete. -/
def State.reports (s : State) (cause : Nat) : Bool := s.me.disposition cause == .report

/-- A trap of the core's own instruction, with its position. -/
def State.raise (s : State) (t : Trap) (report : Option State) : State :=
  let u := s.cur.unit
  let c := s.bank
  let t := { t with pos := s.me.pc }
  match report with
  | some m => if s.reports t.cause then ((m.reportTrap u c t).retire).offerTrap else s.takePrecise u c t
  | none => s.takePrecise u c t

/-- Whether a value may not be written to s2 (04 R115). -/
def Ctx.belowLimit (x : Ctx) (n : Nat) (v : Word) : Bool := n == 2 && x.slim != 0 && decide (v.toNat < x.slim.toNat)

/-- An instruction whose result into s2 is late (04 R102): its other effects are made, but for the dead marks and the generator,
which wait with the result; none of them where the result is to be refused. -/
def State.holdsResult (s m : State) (r : Late) : State :=
  let refused := r.at_.isSome && s.me.belowLimit 2 r.v && !s.reports 0x06
  (if refused then s else m).modMe fun x => { x with
    late := some { r with dead := m.me.dead &&& ~~~s.me.dead, gen := m.me.gen }
    dead := s.me.dead, gen := s.me.gen, stall := 0, wait := 6 }

/-- The core waits for a result into s2; when it is ready the stack limit is checked, and the instruction is complete or
traps (04 R102, R115). -/
def State.finishLate (s : State) (r : Late) : State :=
  match r.at_ with
  | none => s.stalled 6
  | some t =>
    if s.cycle < t then s.stalled 6
    else
      let m := s.modMe fun x => ({ x with late := none, dead := x.dead ||| r.dead, gen := r.gen }.raise r.fl).saturated r.sat
      let m := match r.second with
        | some v => m.wroteS 3 v
        | none => m
      if s.me.belowLimit 2 r.v then
        (s.modMe fun x => { x with late := none }).raise { cause := 0x06, i0 := r.v, i1 := s.me.slim } (some m)
      else (m.wroteS 2 r.v).retire.offerTrap

/-- The state after an instruction's work. -/
def CoreRes.finish (s : State) : CoreRes → State
  | .done m => m.retire.offerTrap
  | .branch m target annul =>
    let m := match target with
      | some t => m.traceEvent s.cur.unit 1 0 s.bank (BitVec.ofNat 64 (s.me.pc.toNat * 2 ^ 23 + t.toNat))
      | none => m
    (m.retire target annul).offerTrap
  | .wait code m => let m := m.stalled code; if code = 8 then m.offerTrap else m
  | .micro m => m.modMe fun x => { x with ust := x.ust + 1, stall := 0, wait := 0 }
  | .moved m => (m.modMe fun x => { x with stall := 0, wait := 0 }).offerTrap
  | .after m t =>
    let t := { t with pos := s.me.pc }
    let m := m.retire
    if s.reports t.cause then (m.reportTrap s.cur.unit s.bank t).offerTrap else (m.takePrecise s.cur.unit s.bank t).offerTrap
  | .trap t report => s.raise t report
  | .fail s t => s.raise t none
  | .late m r => s.holdsResult m r

/-! ### Issue -/

/-- Registers whose earlier write has not landed (04 R100). -/
def Ctx.pendingWrite (x : Ctx) (r : CoreDest) : Bool := x.busy.contains r

/-- Whether an instruction waits for a register it reads or writes (04 R100). -/
def Ctx.interlocked (x : Ctx) (p : CoreSpec) : Bool :=
  p.reads.any (fun r => x.pendingWrite (.sreg r.1)) || p.preds.any (fun n => x.pendingWrite (.preg n))
    || p.writes.any x.pendingWrite

/-- The first source that is dead (04 R99). -/
def Ctx.firstDead (x : Ctx) (p : CoreSpec) : Option Nat :=
  (p.reads.find? fun r => r.1 != 0 && x.dead.getLsbD r.1).map (·.1)

/-- The value of a source: a dead one returns its old value or zero (04 R99). -/
def State.readSource (s : State) (n : Nat) : State × Word :=
  let v := s.me.readS n
  if n != 0 && s.me.dead.getLsbD n then (s.used, if Config.freeBit s.fresh then v else 0) else (s, v)

/-- The values of sources, in order. -/
def State.readSources : State → List (Nat × Bool) → State × List Word
  | s, [] => (s, [])
  | s, r :: rs =>
    let (s, v) := s.readSource r.1
    let (s, vs) := s.readSources rs
    (s, v :: vs)

/-- The context with the last-use bits of the sources taken (04 R99). -/
def Ctx.markAll (x : Ctx) : List (Nat × Bool) → Ctx
  | [] => x
  | r :: rs => (x.mark r.1 r.2).markAll rs

/-- A data error of the core (07 R220). -/
def dataError (eng off : Nat) (info2 : Nat := 0) : Trap :=
  { cause := 0x13, eng := eng, i0 := BitVec.ofNat 64 eng, i1 := BitVec.ofNat 64 off, i2 := BitVec.ofNat 64 info2 }

/-- Physical address of the word of the predicates (04 R106). -/
def predicatePA (u : Nat) (c : Bool) : Nat := windowPA u (0x2B0100 + c.toNat * 0x10000)

/-- The stored words of the sources: of scalar registers, and of the predicates where some are read. -/
def State.sourceWords (s : State) (rs : List (Nat × Bool)) (preds : Bool) : List Nat :=
  let u := s.cur.unit
  (rs.filter fun r => r.1 != 0).map (fun r => scalarPA u s.bank r.1) ++ if preds then [predicatePA u s.bank] else []

/-- Registers and predicates are checked as they are read (04 R127, 07 R219). -/
def State.scrubSources (s : State) (rs : List (Nat × Bool)) (preds : Bool := false) : State :=
  if s.flips.isEmpty then s
  else (s.sourceWords rs preds).foldl (fun s a => s.scrub (agentOf s.cur.unit s.bank) a 8) s

/-- The data error of the first source that is uncorrectable (04 R127). -/
def State.badSource (s : State) (rs : List (Nat × Bool)) (preds : Bool := false) : Option Trap :=
  if s.poison.isEmpty then none
  else ((s.sourceWords rs preds).find? s.poisoned).map fun a => dataError 0 (a % 2 ^ 22)

/-- The guard value p[P] XOR N; true without a guard (02 R52). -/
def Ctx.guardTrue (x : Ctx) (o : CoreForm) : Bool := !o.g || x.readP o.p.toNat != o.n

/-- The work of an instruction whose sources are read: `body` gets the state, the state with the last-use bits taken, and
the values. -/
def coreWork (p : CoreSpec) (body : State → State → List Word → CoreRes) (s : State) : CoreRes :=
  let (s, vs) := s.readSources p.reads
  body s (s.modMe fun x => x.markAll p.reads) vs

/-- The issue of an instruction whose guard is true: interlock, data errors, dead-register reads, then its work. -/
def coreIssue (p : CoreSpec) (body : State → State → List Word → CoreRes) (s : State) : State :=
  let x := s.me
  if x.interlocked p then (CoreRes.wait 6 s).finish s
  else if p.multi && x.ust != 0 then (coreWork p body s).finish s
  else
    let s := s.scrubSources p.reads (!p.preds.isEmpty)
    match s.badSource p.reads (!p.preds.isEmpty) with
    | some t => s.raise t none
    | none =>
      match (if s.me.mode.getLsbD 0 then s.me.firstDead p else none) with
      | some n =>
        let t : Trap := { cause := 0x09, i0 := BitVec.ofNat 64 n, pos := s.me.pc }
        if s.reports 0x09 then
          let s := if x.told then s else (s.reportTrap s.cur.unit s.bank t).modMe fun x => { x with told := true }
          (coreWork p body s).finish s
        else s.raise t none
      | none => (coreWork p body s).finish s

/-- A control-core instruction: privilege, phase, guard, whose word is checked as it is read, then its issue (02 R52, R64). `skip` is what a false guard does. -/
def coreInstr (o : CoreForm) (p : CoreSpec) (body : State → State → List Word → CoreRes) (s : State)
    (skip : State → CoreRes := .done) : Host.Outcome State Fault Refusal :=
  let x := s.me
  .next <|
    if p.privileged && !isSteward s.cur.unit then s.raise { cause := 0x03, i1 := x.slotWord } none
    else if p.compute && s.inExchange then s.raise { cause := 0x04, i1 := x.slotWord } none
    else if o.g && x.pendingWrite (.preg o.p.toNat) then (CoreRes.wait 6 s).finish s
    else
      let s := s.scrubSources [] o.g
      match s.badSource [] o.g with
      | some t => s.raise t none
      | none => if !x.guardTrue o then (skip s).finish s else coreIssue p body s

/-! ### Results -/

/-- Two source values of a list. -/
def nth (vs : List Word) (i : Nat) : Word := (vs[i]?).getD 0

/-- A result refused by the stack limit (04 R115). -/
def stackLimit (m : State) (v : Word) : CoreRes :=
  .trap { cause := 0x06, i0 := v, i1 := m.me.slim } (some m)

/-- A result of latency 1 into s`n`. -/
def State.result (m : State) (n : Nat) (v : Word) : CoreRes :=
  if m.me.belowLimit n v then stackLimit m v
  else .done (m.wroteS n v)

/-- A result of latency `lat` above 1 with flags and clamped elements, which join the pending set when it lands
(04 R100, R125); one into s2 holds the core until it is ready (R102). -/
def State.resultLater (m : State) (lat n : Nat) (v : Word) (fl : BitVec 7 := 0) (sat : Nat := 0) : CoreRes :=
  if n = 2 then .late m { at_ := some (m.cycle + lat - 1), v := v, fl := fl, sat := sat }
  else
    let u := m.cur.unit
    let c := m.bank
    .done ((m.modMe fun x => { x with busy := if n = 0 then x.busy else .sreg n :: x.busy }).schedule (m.cycle + lat)
      (.pipelinedResultWrite u c (.sreg n) v fl sat))

/-- A predicate of latency 1. -/
def State.resultP (m : State) (n : Nat) (v : Bool) : CoreRes := .done (m.modMe fun x => x.writeP n v)

/-- A trap that an instruction takes unless its disposition is REPORT, under which it completes as `k` says. -/
def State.unlessReported (s m : State) (t : Trap) (k : State → CoreRes) : CoreRes :=
  if s.reports t.cause then k (m.reportTrap s.cur.unit s.bank { t with pos := s.me.pc, ust := s.me.ust }) else .trap t none

/-- A run-time reserved-operand trap of the core (02 R63). -/
def State.badOperand (s : State) : CoreRes := .trap { cause := 0x02, i0 := 7, i1 := s.me.slotWord } none

/-- SEXT of the low `n` bits to 64 (00 R6). -/
def sext (v n : Nat) : Word := BitVec.ofInt 64 (signedOf v n)

/-- IMM24 sign-extended. -/
def simm (o : CoreForm) : Word := sext o.imm.toNat 24

/-- The position value of IMM24 (02 R46). -/
def targetOf (o : CoreForm) : Pos := o.imm.extractLsb' 0 23

/-- A register-register instruction of latency `lat`. -/
def usesAB (o : CoreForm) (lat : Nat := 1) : CoreSpec :=
  { reads := [(o.a.toNat, o.la), (o.b.toNat, o.lb)], writes := [.sreg o.d.toNat], lat := lat }

/-- A register instruction with one source. -/
def usesA (o : CoreForm) (lat : Nat := 1) : CoreSpec :=
  { reads := [(o.a.toNat, o.la)], writes := [.sreg o.d.toNat], lat := lat }

/-- An instruction of two sources and a result of latency 1. -/
def binary (o : CoreForm) (f : Word → Word → Word) (s : State) : Host.Outcome State Fault Refusal :=
  coreInstr o (usesAB o) (fun _ m vs => m.result o.d.toNat (f (nth vs 0) (nth vs 1))) s

/-- An instruction of one source and a result of latency 1. -/
def unary (o : CoreForm) (f : Word → Word) (s : State) : Host.Outcome State Fault Refusal :=
  coreInstr o (usesA o) (fun _ m vs => m.result o.d.toNat (f (nth vs 0))) s

end Sys2Proof.Machine
end

