-- ==== Sys2Proof/Machine/Flags.lean ====
section
/-!
DEFINITION. Conditions, rounding-mode selection, the first-NaN trap, and the end of a floating-point instruction of the
control core (03 R81, R93 to R95; 04 R120, R122).
-/
namespace Sys2Proof.Machine

/-- The conditions 0 to 11 of 04 R120. -/
def intCondition (c : Nat) (a b : Word) : Bool :=
  match c with
  | 0 => a == b
  | 1 => a != b
  | 2 => decide (a.toInt < b.toInt)
  | 3 => decide (a.toInt ≤ b.toInt)
  | 4 => decide (b.toInt < a.toInt)
  | 5 => decide (b.toInt ≤ a.toInt)
  | 6 => decide (a.toNat < b.toNat)
  | 7 => decide (a.toNat ≤ b.toNat)
  | 8 => decide (b.toNat < a.toNat)
  | 9 => decide (b.toNat ≤ a.toNat)
  | 10 => (a &&& b) != 0
  | _ => (a &&& b) == 0

/-- FMT of a scalar floating-point instruction (04 R122). -/
def fmtOf (o : CoreForm) : Fmt := if o.imm.getLsbD 0 then fp64 else fp32

/-- The operand of a format from a register (04 R98). -/
def Fmt.operand (f : Fmt) (v : Word) : Nat := v.toNat % 2 ^ f.width

/-- The rounding mode: RM, or ctl.frm if DYN (04 R122); `none` where it resolves to 5 to 7 (03 R81). -/
def Ctx.roundMode (x : Ctx) (o : CoreForm) : Option Nat :=
  let m := if o.imm.getLsbD 4 then (x.frm.extractLsb' 0 3).toNat else (o.imm.extractLsb' 1 3).toNat
  if 5 ≤ m then none else some m

/-- The first-NaN and strict-conversion trap of the control core (03 R95). -/
def State.nanTrap (s : State) : Trap := { cause := 0x0A, i1 := gridWord s.cur.unit }

/-- Whether a result raises the first-NaN trap (03 R84, R95). -/
def Ctx.nanTraps (x : Ctx) (r : Res) : Bool := r.strict || (r.made && x.mode.getLsbD 2)

/-- The control core's generator after an instruction that rounds once (03 R83). -/
def Ctx.stepCore (x : Ctx) (mode : Nat) : Ctx := { x with gen := stepGen mode x.gen }

/-- The end of a floating-point instruction that rounded once: its trap, or its result with flags and counts. -/
def roundedResult (o : CoreForm) (lat mode : Nat) (s m : State) (r : Res) (v : Word) : CoreRes :=
  let m := m.modMe fun x => x.stepCore mode
  if s.me.nanTraps r then s.unlessReported m s.nanTrap fun m => m.resultLater lat o.d.toNat v r.flags r.sat
  else m.resultLater lat o.d.toNat v r.flags r.sat

/-- A pipelined floating-point instruction: `f` gives the exact value of the operands and whether it divides by zero. -/
def floatOp (o : CoreForm) (p : CoreSpec) (lat : Nat) (f : List Val → Val) (s : State) : Host.Outcome State Fault Refusal :=
  coreInstr o { p with lat := lat } (fun s m vs =>
    match s.me.roundMode o with
    | none => s.badOperand
    | some mode =>
      let fmt := fmtOf o
      let r := fmt.round mode (stepGen mode s.me.gen) (f (vs.map fun v => fmt.value (fmt.operand v)))
      roundedResult o lat mode s m r (BitVec.ofNat 64 r.bits)) s

end Sys2Proof.Machine
end

