-- ==== Sys2Proof/Machine/Windows.lean ====
section
/-!
DEFINITION. The on-chip window of a tile or steward as 64-bit words: what each reads, what a write does to it, and who
may write it when (04 R103 to R106, 05 R130, 06 R172 to R174, 07 R208, R216 to R218, R221, R223, 09 R265, R268, R282, R290,
10 R297, R303, R319, 12 R347, 13 R373, R385, 14 R391, R402, R409).
-/
namespace Sys2Proof.Machine

/-- `old` with the bits of `mask` taken from `v`. -/
def blend (mask old v : Word) : Word := (old &&& ~~~mask) ||| (v &&& mask)

/-- 64-bit word `i` of a row. -/
def rowWord (r : Row) (i : Nat) : Word := r.extractLsb' (64 * i) 64

/-- A wide value with 64-bit word `i` replaced. -/
def putWord {n : Nat} (r : BitVec n) (i : Nat) (v : Word) : BitVec n := BitVec.ofNat n (setBits r.toNat (64 * i) 64 v.toNat)

/-! ### Control state registers (04 R103, R104) -/

/-- The word that a control state register index reads; 0 where the index is reserved. -/
def State.ctlRead (s : State) (u : Nat) (c : Bool) (i : Nat) : Word :=
  let x := s.ctx u c
  match i with
  | 0x000 => fields [(if isSteward u then 1 else 0, 2), ((s.tile u).dual.toNat, 1), (c.toNat, 0)]
  | 0x001 => tileIdentity u
  | 0x002 => x.gang
  | 0x003 => x.job
  | 0x004 => BitVec.ofNat 64 (s.phaseOf u c)
  | 0x005 => BitVec.ofNat 64 s.cycle
  | 0x006 => x.budget.setWidth 64
  | 0x007 => fields [(x.slipPending, 32), (x.slipCommitted, 0)]
  | 0x010 => x.tvec
  | 0x011 => x.epc
  | 0x012 => x.enpc
  | 0x013 => x.ennpc
  | 0x014 => x.ebits
  | 0x015 => x.cause
  | 0x016 => x.info0
  | 0x017 => x.info1
  | 0x018 => x.info2
  | 0x019 => x.info3
  | 0x01A => x.ustate0
  | 0x01B => x.ustate1
  | 0x020 => x.slim
  | 0x021 => x.dead.setWidth 64
  | 0x022 => x.mode
  | 0x023 => x.frm
  | 0x024 => x.fflags.setWidth 64
  | 0x025 => x.fpend.setWidth 64
  | 0x026 => x.srseed
  | 0x030 => x.disp
  | 0x031 => x.disphi
  | _ => 0

/-- The bits of a control state register that software may write (04 R103). -/
def ctlMask (i : Nat) : Word :=
  match i with
  | 0x010 => 0x7FFFFF
  | 0x011 => 0x7FFFFF
  | 0x012 => 0x7FFFFF
  | 0x013 => 0x7FFFFF
  | 0x014 => 0xFF0F
  | 0x015 => 0x37FF
  | 0x020 => ~~~0xF#64
  | 0x021 => 0xFFFFFFFE
  | 0x022 => 7
  | 0x023 => 7
  | 0x024 => 0x7F
  | 0x025 => 0x7F
  | 0x026 => 0xFFFFFFFF
  | 0x016 => ~~~0#64
  | 0x017 => ~~~0#64
  | 0x018 => ~~~0#64
  | 0x019 => ~~~0#64
  | 0x01A => ~~~0#64
  | 0x01B => ~~~0#64
  | 0x030 => ~~~0#64
  | 0x031 => ~~~0#64
  | _ => 0

/-- A disposition register has no field of code 3 (04 R104). -/
def dispLegal (v : Word) : Bool := (List.range 32).all fun c => v.extractLsb' (2 * c) 2 != 3

/-- A disposition register as it is held: the fields of causes that are always FREEZE, and of unassigned codes, read 1
(04 R104). -/
def dispHeld (base : Nat) (v : Word) : Word :=
  (List.range 32).foldl (fun v c =>
    if causeAlwaysFreeze (base + c) || !causeAssigned (base + c) then BitVec.ofNat 64 (setBits v.toNat (2 * c) 2 1) else v) v

/-- A write of a control state register; bits outside its mask keep their value; ctl.srseed reseeds every generator; flags that
have been committed in this cycle join those written (03 R94, 04 R103 to R105). -/
def Ctx.ctlWrite (x : Ctx) (i : Nat) (v : Word) : Ctx :=
  let b := fun (old : Word) => blend (ctlMask i) old v
  match i with
  | 0x010 => { x with tvec := b x.tvec }
  | 0x011 => { x with epc := b x.epc }
  | 0x012 => { x with enpc := b x.enpc }
  | 0x013 => { x with ennpc := b x.ennpc }
  | 0x014 => { x with ebits := b x.ebits }
  | 0x015 => { x with cause := b x.cause }
  | 0x016 => { x with info0 := v }
  | 0x017 => { x with info1 := v }
  | 0x018 => { x with info2 := v }
  | 0x019 => { x with info3 := v }
  | 0x01A => { x with ustate0 := v }
  | 0x01B => { x with ustate1 := v }
  | 0x020 => { x with slim := b x.slim }
  | 0x021 => { x with dead := (b (x.dead.setWidth 64)).setWidth 32 }
  | 0x022 => { x with mode := b x.mode }
  | 0x023 => { x with frm := b x.frm }
  | 0x024 => { x with fflags := v.setWidth 7 ||| x.flagsCommit }
  | 0x025 => { x with fpend := v.setWidth 7 }
  | 0x026 =>
    let seed := v.extractLsb' 0 32
    { x with srseed := b x.srseed, seed := seed, gen := seedOf seed 0, vgen := [], mgen := [] }
  | 0x030 => if dispLegal v then { x with disp := dispHeld 0 v } else x
  | 0x031 => if dispLegal v then { x with disphi := dispHeld 32 v } else x
  | _ => x

/-! ### Generators -/

/-- The generator of a vector lane. -/
def Ctx.vectorGen (x : Ctx) (l : Nat) : BitVec 32 := x.vgen.look (seedOf x.seed l) l
/-- The generator of a matrix lane. -/
def Ctx.matrixGen (x : Ctx) (l : Nat) : BitVec 32 := x.mgen.look (seedOf x.seed l) l

/-- A generator as a window write stores it: 0 is stored as 1 (05 R130). -/
def genStored (v : BitVec 32) : BitVec 32 := if v = 0 then 1 else v

/-! ### Reads -/

/-- Guards of a strip as a word; g0 reads 1. -/
def Strip.guardWord (t : Strip) : Word := (t.guards ||| 1).setWidth 64

/-- The status word of a strip (09 R265). -/
def Strip.statusWord (t : Strip) : Word := fields [(t.ust, 40), (t.state, 36), (t.el.toNat, 23), (t.pos.toNat, 0)]

/-- A word of the vector-strip block at block offset `o` (05 R130). -/
def Ctx.vectorWord (x : Ctx) (o : Nat) : Word :=
  if o < 0xA800 then rowWord (x.v.look 0 (o / 0x300)) (o % 0x300 / 8)
  else if o < 0xA900 then
    let i := (o - 0xA800) / 0x20
    let w := o % 0x20 / 8
    if w = 3 then 0 else if i = 0 then ~~~0#64 else (x.m.look 0 i).extractLsb' (64 * w) 64
  else if o = 0xA900 then x.vector.guardWord
  else if o = 0xA908 then x.vdead.setWidth 64
  else if o = 0xA910 then x.bind.setWidth 64
  else if 0xA940 ≤ o ∧ o < 0xA980 then x.vector.mailbox.look 0 ((o - 0xA940) / 8)
  else if 0xAA00 ≤ o ∧ o < 0xAD00 then
    let l := (o - 0xAA00) / 4
    fields [((x.vectorGen l).toNat, 0), ((x.vectorGen (l + 1)).toNat, 32)]
  else 0

/-- mc.wload in cycle `now` (06 R173, R201). -/
def WeightLoad.word (w : WeightLoad) (now : Nat) : Word :=
  fields [(w.left % 16, 8), ((w.rest && decide (w.restFrom ≤ now)).toNat, 2), (if w.busy then w.slot else 0, 1), (w.busy.toNat, 0)]

/-- A matrix control register (06 R173). -/
def State.matrixRegister (s : State) (u : Nat) (c : Bool) (i : Nat) : Word :=
  let x := s.ctx u c
  match i with
  | 0 => (x.mcA.look 0 0).setWidth 64
  | 1 => (x.mcA.look 0 1).setWidth 64
  | 2 => (x.mcA.look 0 2).setWidth 64
  | 4 => (x.mcD.look 0 0).setWidth 64
  | 5 => (x.mcD.look 0 1).setWidth 64
  | 6 => (x.mcD.look 0 2).setWidth 64
  | 8 => x.chmin.setWidth 64
  | 0x10 => fields [(x.matrix.ust, 32), (x.matrix.pos.toNat, 0)]
  | 0x11 => (s.tile u).wload.word s.cycle
  | _ => 0

/-- A word of the matrix control block (06 R172). -/
def State.matrixWord (s : State) (u : Nat) (c : Bool) (o : Nat) : Word :=
  let x := s.ctx u c
  if o < 0x100 then s.matrixRegister u c (o / 8)
  else if o < 0x140 then x.matrix.mailbox.look 0 ((o - 0x100) / 8)
  else if o = 0x200 then x.matrix.guardWord
  else if 0x400 ≤ o ∧ o < 0x700 then
    let l := (o - 0x400) / 4
    fields [((x.matrixGen l).toNat, 0), ((x.matrixGen (l + 1)).toNat, 32)]
  else 0

/-- A word of a latch slot (06 R172, R174). -/
def Latch.word (w : Latch) (o : Nat) : Word :=
  if o < 0x2400 then w.vals.extractLsb' (8 * o) 64
  else if o < 0x2D00 then w.sparse.extractLsb' (8 * (o - 0x2400)) 64
  else if o = 0x3000 then w.tag
  else 0

/-- Whether an entry has been pushed by now. -/
def FifoEntry.pushed (e : FifoEntry) (now : Nat) : Bool := e.filled && decide (e.ready ≤ now)

/-- Entries of a FIFO that have been pushed. -/
def Fifo.present (f : Fifo) (now : Nat) : Nat := (f.entries.filter fun e => e.pushed now).length

/-- A word of the FIFO diagnostic block (09 R268, R290). -/
def State.fifoWord (s : State) (u o : Nat) : Word :=
  let t := s.tile u
  if o < 0x30 then
    let f := t.fifos.look {} (o / 8)
    let n := f.present s.cycle
    fields [(n, 0), (f.head, 8), (f.entries.length - n, 16), (f.take, 24)]
  else if 0x80 ≤ o ∧ o < 0xC0 then BitVec.ofNat 64 (t.tokens.look 0 ((o - 0x40) / 8))
  else if 0x100 ≤ o ∧ o < 0x150 then t.hang.look 0 ((o - 0x100) / 8)
  else if 0x1000 ≤ o ∧ o < 0x1300 then
    let vf := (t.view.extractLsb' 0 3).toNat
    if vf < 6 then rowWord ((t.fifos.look {} vf).ring.look 0 (t.view.extractLsb' 4 4).toNat) ((o - 0x1000) / 8) else 0
  else if 0x4000 ≤ o ∧ o < 0x8000 then
    let tag := fun j => match t.tags.look none j with
      | some (c, i) => 2 ^ 31 + c.toNat * 2 ^ 30 + i
      | none => 0
    let j := (o - 0x4000) / 4
    fields [(tag j, 0), (tag (j + 1), 32)]
  else 0

/-- A word of a landing slot (10 R297). -/
def LandingSlot.word (l : LandingSlot) (w : Nat) : Word :=
  match w with
  | 0 => fields [(l.base, 0)]
  | 1 => fields [(l.space, 0), (l.perm, 8), (l.limit, 32)]
  | 2 => fields [(l.ovf, 0)]
  | _ => fields [(l.expect, 0)]

/-- A landing slot from its four words. -/
def slotOfWords (w0 w1 w2 w3 : Word) : LandingSlot where
  base := (w0.extractLsb' 0 51).toNat
  space := (w1.extractLsb' 0 8).toNat
  perm := (w1.extractLsb' 8 2).toNat
  limit := (w1.extractLsb' 32 32).toNat
  ovf := (w2.extractLsb' 0 51).toNat
  expect := (w3.extractLsb' 0 40).toNat

/-- CSTAT word 0 (10 R319). -/
def Handle.status (h : Handle) : Word :=
  fields [(h.state, 61), (h.cause, 56), (h.nslot, 40), (h.plane, 32), (h.groups, 0)]

/-- A word of a receive-fault entry (10 R303). -/
def ReceiveFault.word (r : ReceiveFault) (w : Nat) : Word :=
  match w with
  | 0 => fields [(1, 63), (r.served.toNat, 62), (r.dead.toNat, 61), (r.cause, 48), (r.sdev, 32), (r.stile, 16), (r.label, 0)]
  | 1 => fields [(r.seq, 48), (r.lslot, 0)]
  | 2 => fields [(r.va, 0)]
  | _ => 0

/-- A word of a stream-queue entry (09 R282). -/
def Stream.word (t : Stream) (w : Nat) : Word :=
  if w = 0 then
    fields [(1, 63), (t.state, 60), (t.kind % 16, 56), (t.aux, 52), (t.ds, 48), (t.cause, 40), (t.cnt, 0)]
  else fields [(t.start % 2 ^ 32, 32), (t.done % 2048, 0)]

/-- A word of the control-core block (04 R106, 09 R265, 10 R297, R303, R319, 12 R347, 13 R373). -/
def State.coreWord (s : State) (u : Nat) (c : Bool) (o : Nat) : Word :=
  let x := s.ctx u c
  if o < 0x100 then x.readS (o / 8)
  else if o = 0x100 then x.p.setWidth 64
  else if 0x8000 ≤ o then s.ctlRead u c ((o - 0x8000) / 8)
  else if 0x6400 ≤ o ∧ o < 0x6480 then
    let k := (o - 0x6400) / 8
    if isSteward u || decide (k < 4) then BitVec.ofNat 64 (x.tl.look 0 k) else 0
  else if isSteward u then 0
  else if 0x4000 ≤ o ∧ o < 0x5000 then (x.desc.look 0 ((o - 0x4000) / 0x100)).extractLsb' (64 * (o % 0x100 / 8)) 64
  else if 0x5000 ≤ o ∧ o < 0x5080 then BitVec.ofNat 64 (x.dcur.look 0 ((o - 0x5000) / 8))
  else if 0x5100 ≤ o ∧ o < 0x5140 then x.access.mailbox.look 0 ((o - 0x5100) / 8)
  else if o = 0x5180 then x.access.guardWord
  else if 0x5200 ≤ o ∧ o < 0x5300 then
    match x.streams.find ((o - 0x5200) / 16) with
    | some t => t.word (o % 16 / 8)
    | none => 0
  else if o = 0x5300 then x.tfault0
  else if o = 0x5308 then x.tfault1
  else if 0x5400 ≤ o ∧ o < 0x5600 then (x.slots.look {} ((o - 0x5400) / 0x20)).word (o % 0x20 / 8)
  else if 0x5600 ≤ o ∧ o < 0x5680 then BitVec.ofNat 64 (x.landed.look 0 ((o - 0x5600) / 8))
  else if 0x5700 ≤ o ∧ o < 0x5800 then
    let h := x.handles.look {} ((o - 0x5700) / 16)
    if o % 16 = 0 then h.status else BitVec.ofNat 64 h.lease
  else if 0x5800 ≤ o ∧ o < 0x6000 then
    match x.rfq.find ((o - 0x5800) / 0x20) with
    | some r => r.word (o % 0x20 / 8)
    | none => 0
  else if 0x6000 ≤ o ∧ o < 0x6100 then (x.wdesc.look 0 ((o - 0x6000) / 0x20)).extractLsb' (64 * (o % 0x20 / 8)) 64
  else if 0x6100 ≤ o ∧ o < 0x6140 then BitVec.ofNat 64 (x.wcur.look 0 ((o - 0x6100) / 8))
  else if 0x6200 ≤ o ∧ o < 0x6240 then x.writeback.mailbox.look 0 ((o - 0x6200) / 8)
  else if o = 0x6280 then x.writeback.guardWord
  else if 0x7008 ≤ o ∧ o < 0x7028 then (x.strip ((o - 0x7000) / 8)).statusWord
  else if o = 0x7040 ∧ c = false then (s.tile u).view
  else 0

/-- A word of an error log (07 R221). -/
def ErrorLog.word (l : ErrorLog) (w : Nat) : Word :=
  match w with
  | 0 => fields [(l.valid.toNat, 63), (l.ue.toNat, 62), (l.ovf.toNat, 61), (l.inj.toNat, 60), (l.addr, 0)]
  | 1 => l.synd.setWidth 64
  | 2 => BitVec.ofNat 64 l.agent
  | _ => fields [(l.ucnt, 32), (l.ccnt, 0)]

/-- A word of a health monitor (13 R385). -/
def Monitor.word (m : Monitor) (w : Nat) : Word :=
  if w < 32 then BitVec.ofNat 64 (m.bins.look 0 w)
  else match w with
    | 32 => BitVec.ofNat 64 m.min
    | 33 => BitVec.ofNat 64 m.max
    | 34 => BitVec.ofNat 64 m.count
    | 35 => m.config
    | _ => 0

/-- A trace register (14 R409). -/
def Trace.word (t : Trace) (w : Nat) : Word :=
  match w with
  | 0 => t.ctl
  | 1 => fields [(t.drop, 32), (t.head, 0)]
  | 2 => BitVec.ofNat 64 t.tidx
  | _ => 0

/-- Which bytes of a window are plain memory: scratchpad or data memory, the instruction store, the trace buffer. -/
def isMemoryOffset (u off : Nat) : Bool :=
  decide (off < scratchSize u) || (decide (0x200000 ≤ off) && decide (off < 0x240000))
    || (!isSteward u && decide (0x300000 ≤ off) && decide (off < 0x310000))

/-- The bytes [off, off + n) touch the spill area of a tile in dual-context mode, whose layout the spec leaves open (06 R201,
07 R203). -/
def Tile.spillsInto (t : Tile) (off n : Nat) : Bool :=
  t.dual && (List.range ((off % 65536 + n) / 65536 + 1)).any fun i =>
    let b := off / 65536 + i
    decide (b < 24) && decide (max off (b * 65536 + 0xC800) < min (off + n) (b * 65536 + 65536))

/-- The 64-bit word of a window at an offset that is a multiple of 8 (07 R216, R217); a word of the spill area reads as a free value
(log entry 56). -/
def State.windowWord (s : State) (u off : Nat) : Word :=
  let t := s.tile u
  let blk := off / 0x10000
  let o := off % 0x10000
  if off < scratchSize u ∧ inSpill t.dual off 1 then Config.freeWord (s.fresh + off)
  else if isMemoryOffset u off then BitVec.ofNat 64 (s.loadPA (windowPA u off) 8)
  else if blk = 0x2B then s.coreWord u false o
  else if blk = 0x2D then (if o < 8 * (if isSteward u then 8 else 24) then t.bankReg (o / 8) else 0)
  else if blk = 0x2E ∧ o < 0x100 then (t.elog.look {} (o / 0x20)).word (o % 0x20 / 8)
  else if blk = 0x2E ∧ 0x100 ≤ o ∧ o < 0x118 then
    match t.inject with
    | none => 0
    | some (a, mask, x) => if o = 0x100 then BitVec.ofNat 64 a else if o = 0x108 then mask else x.setWidth 64
  else if isSteward u then 0
  else if blk = 0x24 then t.ctxA.vectorWord o
  else if blk = 0x25 then t.ctxB.vectorWord o
  else if off < 0x278000 ∧ 0x260000 ≤ off then rowWord (t.acc.look 0 ((off - 0x260000) / 0x300)) ((off - 0x260000) % 0x300 / 8)
  else if off < 0x278100 ∧ 0x278000 ≤ off then
    let r := (off - 0x278000) / 2
    fields [(t.kcount.look 0 r, 0), (t.kcount.look 0 (r + 1), 16), (t.kcount.look 0 (r + 2), 32), (t.kcount.look 0 (r + 3), 48)]
  else if 0x27C000 ≤ off ∧ off < 0x27E000 then s.matrixWord u (decide (0x27D000 ≤ off)) (off % 0x1000)
  else if 0x280000 ≤ off ∧ off < 0x28C000 then rowWord (t.hs.look 0 ((off - 0x280000) / 0x300)) ((off - 0x280000) % 0x300 / 8)
  else if 0x28C000 ≤ off ∧ off < 0x290000 then Config.freeWord (s.fresh + off)
  else if 0x290000 ≤ off ∧ off < 0x294000 then t.latch0.word (off % 0x4000)
  else if 0x294000 ≤ off ∧ off < 0x298000 then t.latch1.word (off % 0x4000)
  else if blk = 0x2A then s.fifoWord u o
  else if blk = 0x2C then s.coreWord u true o
  else if blk = 0x2E ∧ 0x1000 ≤ o ∧ o < 0x1400 then (t.mon.look {} ((o - 0x1000) / 0x200)).word (o % 0x200 / 8)
  else if blk = 0x2E ∧ 0x2000 ≤ o ∧ o < 0x2018 then t.freeze.look 0 ((o - 0x2000) / 8)
  else if blk = 0x2E ∧ 0x2200 ≤ o ∧ o < 0x2238 then t.ctxA.report.look 0 ((o - 0x2200) / 8)
  else if blk = 0x2E ∧ 0x2240 ≤ o ∧ o < 0x2278 then t.ctxB.report.look 0 ((o - 0x2240) / 8)
  else if blk = 0x2E ∧ 0x3000 ≤ o ∧ o < 0x3018 then t.trace.word ((o - 0x3000) / 8)
  else 0

/-- The little-endian value of `n` bytes of a window. -/
def State.windowRead (s : State) (u off n : Nat) : Nat :=
  if isMemoryOffset u off && !(s.tile u).spillsInto off n then s.loadPA (windowPA u off) n
  else
    let first := off / 8 * 8
    let words := (List.range ((off + n + 7) / 8 - off / 8)).map fun i => (s.windowWord u (first + 8 * i)).toNat
    (words.foldr (fun w acc => w + 2 ^ 64 * acc) 0) / 2 ^ (8 * (off - first)) % 2 ^ (8 * n)

/-! ### Writes -/

/-- A write of `mask`ed bits to a word of the vector-strip block; RO words keep their value. -/
def Ctx.vectorPut (x : Ctx) (o : Nat) (mask v : Word) : Ctx :=
  let w := blend mask (x.vectorWord o) v
  if o < 0xA800 then { x with v := x.v.put (o / 0x300) (putWord (x.v.look 0 (o / 0x300)) (o % 0x300 / 8) w) }
  else if o < 0xA900 then
    let i := (o - 0xA800) / 0x20
    if i = 0 ∨ o % 0x20 / 8 = 3 then x else { x with m := x.m.put i (putWord (x.m.look 0 i) (o % 0x20 / 8) w) }
  else if o = 0xA908 then { x with vdead := w.setWidth 56 }
  else if 0xA940 ≤ o ∧ o < 0xA980 then
    { x with vector := { x.vector with mailbox := x.vector.mailbox.put ((o - 0xA940) / 8) w } }
  else if 0xAA00 ≤ o ∧ o < 0xAD00 then
    let l := (o - 0xAA00) / 4
    { x with vgen := (x.vgen.put l (genStored (w.extractLsb' 0 32))).put (l + 1) (genStored (w.extractLsb' 32 32)) }
  else x

/-- A write to a word of the matrix control block. -/
def State.matrixPut (s : State) (u : Nat) (c : Bool) (o : Nat) (mask v : Word) : State :=
  let w := blend mask (s.matrixWord u c o) v
  s.modCtx u c fun x =>
    if o < 0x18 then { x with mcA := x.mcA.put (o / 8) (w.extractLsb' 0 32) }
    else if 0x20 ≤ o ∧ o < 0x38 then { x with mcD := x.mcD.put (o / 8 - 4) (w.extractLsb' 0 32) }
    else if o = 0x40 then { x with chmin := if w.extractLsb' 0 7 ≤ 64#7 then w.extractLsb' 0 7 else x.chmin }
    else if 0x100 ≤ o ∧ o < 0x140 then
      { x with matrix := { x.matrix with mailbox := x.matrix.mailbox.put ((o - 0x100) / 8) w } }
    else if 0x400 ≤ o ∧ o < 0x700 then
      let l := (o - 0x400) / 4
      { x with mgen := (x.mgen.put l (genStored (w.extractLsb' 0 32))).put (l + 1) (genStored (w.extractLsb' 32 32)) }
    else x

/-- A write to a word of a latch slot; KIND 3 is stored as 0. -/
def Latch.put (l : Latch) (o : Nat) (mask v : Word) : Latch :=
  let w := blend mask (l.word o) v
  if o < 0x2400 then { l with vals := putWord l.vals (o / 8) w }
  else if o < 0x2D00 then { l with sparse := putWord l.sparse ((o - 0x2400) / 8) w }
  else if o = 0x3000 then
    let t := w &&& 0xFFD
    { l with tag := if t.extractLsb' 2 2 = 3 then t &&& ~~~0xC#64 else t }
  else l

/-- A write of a strip's status word (09 R265): POS, UST and EL. One that keeps POS and changes UST leaves the results open. -/
def Strip.statusPut (t : Strip) (w : Word) : Strip :=
  let pos : Pos := w.extractLsb' 0 23
  let ust := (w.extractLsb' 40 16).toNat
  let el := w.getLsbD 23
  if pos != t.pos || ust == 0 then
    { t.clean with pos := pos, el := el }
  else { t with ust := ust, el := el, loose := t.loose || ust != t.ust }

/-- A write that would lower a timeline counter is ignored (13 R373). -/
def Ctx.timelinePut (x : Ctx) (k : Nat) (v : Word) : Ctx :=
  if x.tl.look 0 k ≤ v.toNat then { x with tl := x.tl.put k v.toNat } else x

/-- The bits that word `i` of an access descriptor has: BASE above bit 50, SIB above bit 3, bytes 14 and 15 and 208 to 255 are
reserved in every space and read zero (00 R4, 04 R106, 09 R271). -/
def descMask (i : Nat) : Word :=
  if i = 0 then 0x7FFFFFFFFFFFF else if i = 1 then 0xFFFFFF0FFFFF else if i < 26 then ~~~0#64 else 0

/-- The bits that word `i` of a writeback descriptor has (00 R4, 04 R106, 07 R226). -/
def wdescMask (i : Nat) : Word := if i = 0 then 0xFFFFFFFF001FFFFF else if i = 1 then ~~~0#64 else 0

/-- A write to a word of the control-core block. -/
def State.corePut (s : State) (u : Nat) (c : Bool) (o : Nat) (mask v : Word) : State :=
  let w := blend mask (s.coreWord u c o) v
  if o < 0x100 then s.modCtx u c fun x => x.writeS (o / 8) w
  else if o = 0x100 then s.modCtx u c fun x => { x with p := w.setWidth 16 }
  else if 0x8000 ≤ o then s.modCtx u c fun x => x.ctlWrite ((o - 0x8000) / 8) w
  else if 0x6400 ≤ o ∧ o < 0x6480 then
    let k := (o - 0x6400) / 8
    if isSteward u || decide (k < 4) then s.modCtx u c fun x => x.timelinePut k w else s
  else if isSteward u then s
  else if 0x4000 ≤ o ∧ o < 0x5000 then
    let k := (o - 0x4000) / 0x100
    let i := o % 0x100 / 8
    s.modCtx u c fun x => { x with desc := x.desc.put k (putWord (x.desc.look 0 k) i (w &&& descMask i)) }
  else if 0x5000 ≤ o ∧ o < 0x5080 then s.modCtx u c fun x => { x with dcur := x.dcur.put ((o - 0x5000) / 8) w.toNat }
  else if 0x5100 ≤ o ∧ o < 0x5140 then
    s.modCtx u c fun x => { x with access := { x.access with mailbox := x.access.mailbox.put ((o - 0x5100) / 8) w } }
  else if o = 0x5300 then
    if (v &&& mask).getLsbD 63 then s.modCtx u c fun x => { x with tfault0 := x.tfault0 &&& 0x7FFFFFFFFFFFFFFF } else s
  else if 0x5400 ≤ o ∧ o < 0x5600 then
    let k := (o - 0x5400) / 0x20
    let i := o % 0x20 / 8
    s.modCtx u c fun x =>
      let l := x.slots.look {} k
      let pick := fun j => if i = j then w else l.word j
      { x with slots := x.slots.put k (slotOfWords (pick 0) (pick 1) (pick 2) (pick 3)) }
  else if 0x6000 ≤ o ∧ o < 0x6100 then
    let k := (o - 0x6000) / 0x20
    let i := o % 0x20 / 8
    s.modCtx u c fun x => { x with wdesc := x.wdesc.put k (putWord (x.wdesc.look 0 k) i (w &&& wdescMask i)) }
  else if 0x6100 ≤ o ∧ o < 0x6140 then s.modCtx u c fun x => { x with wcur := x.wcur.put ((o - 0x6100) / 8) w.toNat }
  else if 0x6200 ≤ o ∧ o < 0x6240 then
    s.modCtx u c fun x => { x with writeback := { x.writeback with mailbox := x.writeback.mailbox.put ((o - 0x6200) / 8) w } }
  else if 0x7008 ≤ o ∧ o < 0x7028 then
    let s := if o = 0x7008 ∧ (w.extractLsb' 0 23 ≠ (s.ctx u c).access.pos ∨ w.extractLsb' 40 16 = 0) then s.abandon u c else s
    let s := if o = 0x7010 ∧ (w.extractLsb' 0 23 ≠ (s.ctx u c).matrix.pos ∨ w.extractLsb' 40 16 = 0) then
        s.mod u fun t => { t with scan := none } else s
    s.modStrip u c ((o - 0x7000) / 8) fun t => t.statusPut w
  else if o = 0x7040 ∧ c = false then s.mod u fun t => { t with view := w &&& 0xF7 }
  else s

/-- Clearing VALID of an error log; for array 6 the hang record clears too (07 R221, 09 R290). -/
def State.clearLog (s : State) (u a : Nat) : State :=
  s.mod u fun t => { t with
    elog := t.elog.put a { t.elog.look {} a with valid := false, ue := false, ovf := false, inj := false }
    hang := if a = 6 then t.hang.put 0 ((t.hang.look 0 0) &&& 0x3FFFFFFFFFFFFFFF) else t.hang }

/-- A write of trace word 0x00 (14 R409). -/
def Trace.control (t : Trace) (v : Word) : Trace :=
  { t with ctl := v &&& 0x9FFF0F00FFFFFFFE, drop := 0, head := 0, tidx := 0, post := none }

/-- A write of a monitor's configuration clears it (13 R385). -/
def Monitor.configure (v : Word) : Monitor :=
  { bins := [], count := 0, min := 0xFFFFFFFF, max := 0, config := v &&& 0xFFFFFFFF00F0FF0F }

/-- A role that a bank may have: a steward's banks are CORE or STACK (07 R207, R217). -/
def roleLegal (steward : Bool) (r : Nat) : Bool := if steward then r == 0 || r == 2 else decide (r ≤ 4)

/-- A window write of a bank register: `whole` may set ROLE too, else FMT, AUTO, NEXT and EVERY alone (07 R208, R218). A
steward's bank keeps a role that is CORE or STACK where the write names another (07 R217). -/
def Tile.bankPut (t : Tile) (steward : Bool) (b : Nat) (whole : Bool) (v : Word) : Tile :=
  let role : Word := if whole && (!steward || roleLegal true (v.extractLsb' 4 3).toNat) then 0x70 else 0
  let next : Word := if !steward || roleLegal true (v.extractLsb' 8 3).toNat then 0x700 else 0
  { t with banks := t.banks.put b (blend (0xF880 ||| role ||| next) (t.banks.look 0 b) v) }

/-- A write of `mask`ed bits to the window word at `off`, its fields by their access. `whole`: a bank register's ROLE too. -/
def State.windowPut (s : State) (u off : Nat) (whole : Bool) (mask v : Word) : State :=
  let blk := off / 0x10000
  let o := off % 0x10000
  let old := s.windowWord u off
  let w := blend mask old v
  if off < scratchSize u ∨ (0x200000 ≤ off ∧ off < 0x240000) then s.storePA (windowPA u off) 8 w.toNat
  else if blk = 0x2B then s.corePut u false o mask v
  else if blk = 0x2D then (if o < 8 * (if isSteward u then 8 else 24) then s.mod u fun t => t.bankPut (isSteward u) (o / 8) whole w else s)
  else if blk = 0x2E ∧ o < 0x100 then
    if o % 0x20 = 0 then (if (v &&& mask).getLsbD 63 then s.clearLog u (o / 0x20) else s)
    else if o % 0x20 = 0x18 then
      s.mod u fun t => { t with elog := t.elog.put (o / 0x20) { t.elog.look {} (o / 0x20) with
        ucnt := (w.extractLsb' 32 32).toNat, ccnt := (w.extractLsb' 0 32).toNat } }
    else s
  else if isSteward u then s
  else if blk = 0x24 then s.modCtx u false fun x => x.vectorPut o mask v
  else if blk = 0x25 then s.modCtx u true fun x => x.vectorPut o mask v
  else if off < 0x278000 ∧ 0x260000 ≤ off then
    let r := (off - 0x260000) / 0x300
    s.mod u fun t => { t with acc := t.acc.put r (putWord (t.acc.look 0 r) ((off - 0x260000) % 0x300 / 8) w) }
  else if off < 0x278100 ∧ 0x278000 ≤ off then
    let r := (off - 0x278000) / 2
    let ks := (List.range 4).map fun i => (w.extractLsb' (16 * i) 16).toNat
    s.mod u fun t => { t with kcount := t.kcount.putAll r ks }
  else if 0x27C000 ≤ off ∧ off < 0x27E000 then s.matrixPut u (decide (0x27D000 ≤ off)) (off % 0x1000) mask v
  else if 0x280000 ≤ off ∧ off < 0x28C000 then
    let r := (off - 0x280000) / 0x300
    s.mod u fun t => { t with hs := t.hs.put r (putWord (t.hs.look 0 r) ((off - 0x280000) % 0x300 / 8) w) }
  else if 0x290000 ≤ off ∧ off < 0x294000 then s.mod u fun t => { t with latch0 := t.latch0.put (off % 0x4000) mask v }
  else if 0x294000 ≤ off ∧ off < 0x298000 then s.mod u fun t => { t with latch1 := t.latch1.put (off % 0x4000) mask v }
  else if blk = 0x2C then s.corePut u true o mask v
  else if blk = 0x2E ∧ 0x1000 ≤ o ∧ o < 0x1400 then
    if o % 0x200 / 8 = 35 then s.mod u fun t => { t with mon := t.mon.put ((o - 0x1000) / 0x200) (Monitor.configure w) } else s
  else if blk = 0x2E ∧ (o = 0x2200 ∨ o = 0x2240) then
    s.modCtx u (decide (o = 0x2240)) fun x =>
      { x with report := x.report.put 0 (blend 0xFFFFFFFF00000000 (x.report.look 0 0) w) }
  else if off = 0x2E3000 then s.mod u fun t => { t with trace := t.trace.control w }
  else s

/-- The byte-enable mask of bytes [lo, hi) of a word. -/
def byteMask (lo hi : Nat) : Word := BitVec.ofNat 64 (2 ^ (8 * hi) - 2 ^ (8 * lo))

/-- A write into the spill area of a context whose matrix state stands there leaves that state unknown (log entry 56). -/
def State.spoilSpill (s : State) (u off n : Nat) : State :=
  if !isSteward u && (s.tile u).spillsInto off n then
    let c := (s.tile u).bankOwner (bankOf off)
    match (s.ctx u c).spill with
    | none => s
    | some _ =>
      let row := fun (k : Nat) => Config.freeRow (s.fresh + k)
      let latch := fun (k : Nat) => ({ vals := BitVec.ofNat 73728 (Config.freeNat (s.fresh + k))
                                       sparse := BitVec.ofNat 18432 (Config.freeNat (s.fresh + k + 2)), tag := Config.freeWord (s.fresh + k) &&& 0xFFD } : Latch)
      (s.modCtx u c fun x => { x with
        spill := some { acc := (List.range 128).map fun r => (r, row r), hs := (List.range 64).map fun r => (r, row (128 + r))
                        kcount := (List.range 128).map fun r => (r, Config.freeNat (s.fresh + r) % 65536), latch0 := latch 0, latch1 := latch 1 } }).used 192
  else s

/-- Write the low `n` bytes of `v` into a window. -/
def State.windowWrite (s : State) (u off n : Nat) (whole : Bool) (v : Nat) : State :=
  let s := s.spoilSpill u off n
  if off + n ≤ scratchSize u ∨ (0x200000 ≤ off ∧ off + n ≤ 0x240000) then s.storePA (windowPA u off) n v
  else
    let first := off / 8 * 8
    let shifted := v % 2 ^ (8 * n) * 2 ^ (8 * (off - first))
    (List.range ((off + n + 7) / 8 - off / 8)).foldl (fun s i =>
      let a := first + 8 * i
      let lo := if a < off then off - a else 0
      let hi := if off + n < a + 8 then off + n - a else 8
      s.windowPut u a whole (byteMask lo hi) (BitVec.ofNat 64 (shifted / 2 ^ (64 * i))))
      (((wordsWithin (windowPA u off) n).foldl State.clearPoison s).fireInjection (windowPA u off) n)

/-! ### Samples of the health monitors (13 R385) -/

/-- A monitor after a sample v. -/
def Monitor.sample (m : Monitor) (v : Nat) : Monitor :=
  let v := Nat.min v 4294967295
  let b := Nat.min 31 ((v - (m.config.extractLsb' 32 32).toNat) / 2 ^ (m.config.extractLsb' 20 4).toNat)
  { m with
    bins := m.bins.put b (cap32 (m.bins.look 0 b + 1)), min := Nat.min m.min v, max := Nat.max m.max v, count := cap32 (m.count + 1) }

/-- A sample taken by each tile monitor of unit `u` that is set to the source; those of a frozen job take none (13 R388). -/
def State.sample (s : State) (u src v : Nat) : State :=
  if isSteward u || ((s.tile u).ctx (s.tile u).run).frozen then s
  else s.mod u fun t => { t with mon := t.mon.map fun e =>
    if (e.2.config.extractLsb' 0 4).toNat = src then (e.1, e.2.sample v) else e }

/-- A sample taken by each monitor of a die that is set to the source and instance. -/
def State.dieSample (s : State) (die src sel v : Nat) : State :=
  if s.dieMon.isEmpty then s
  else { s with dieMon := s.dieMon.map fun e =>
    if e.1 / 8 = die ∧ (e.2.config.extractLsb' 0 4).toNat = src ∧ (e.2.config.extractLsb' 8 8).toNat = sel then (e.1, e.2.sample v)
    else e }

/-! ### Permission (07 R218) -/

/-- A context is quiet: frozen, not resident, or of a job not yet started; one that is parked does not reside in its tile
(log entry 38). -/
def State.quiet (s : State) (u : Nat) (c : Bool) : Bool :=
  let x := s.ctx u c
  if isSteward u then (s.tile u).halted || !(s.tile u).started
  else x.frozen || x.life == .free || x.life == .placed || x.life == .parked
    || (match s.slotOf u c with
        | some j => !(s.job j).begun
        | none => true)

/-- The context that a window offset belongs to: banks to their owners, blocks to their contexts, the rest to the running
one. -/
def Tile.targetContext (t : Tile) (off : Nat) : Bool :=
  let blk := off / 0x10000
  if off < 0x180000 then t.bankOwner (bankOf off)
  else if blk = 0x25 ∨ blk = 0x2C ∨ 0x27D000 ≤ off ∧ off < 0x27E000 then true
  else if blk = 0x24 ∨ blk = 0x2B ∨ 0x27C000 ≤ off ∧ off < 0x27D000 then false
  else if blk = 0x2D then t.bankOwner (off % 0x10000 / 8)
  else t.run

/-- Physical address of mailbox `k` of the strip of engine `e` (05 R130, 06 R172, 09 R265). -/
def mailboxPA (u : Nat) (c : Bool) (e k : Nat) : Nat :=
  windowPA u ((match e with
    | 1 => 0x2B5100 + c.toNat * 0x10000
    | 2 => 0x27C100 + c.toNat * 0x1000
    | 3 => 0x24A940 + c.toNat * 0x10000
    | _ => 0x2B6200 + c.toNat * 0x10000) + 8 * k)

/-- Whether a window write is accepted, ignored or refused. -/
inductive Acceptance where
  | accepted
  | ignored
  | refused
deriving DecidableEq, Repr

/-- Mailbox words of a window (05 R130, 06 R172, 09 R265). -/
def isMailbox (u off : Nat) : Bool :=
  let o := off % 0x10000
  let blk := off / 0x10000
  !isSteward u && (((blk == 0x24 || blk == 0x25) && decide (0xA940 ≤ o) && decide (o < 0xA980))
    || (blk == 0x27 && (o / 0x1000 == 0xC || o / 0x1000 == 0xD) && decide (0x100 ≤ o % 0x1000) && decide (o % 0x1000 < 0x140))
    || ((blk == 0x2B || blk == 0x2C) && ((decide (0x5100 ≤ o) && decide (o < 0x5140)) || (decide (0x6200 ≤ o) && decide (o < 0x6240)))))

/-- The words that the maps list in a control-core block, at block offset `o` (04 R103, R106; 09 R265, R282; 10 R297, R303,
R319; 12 R347; 13 R373). -/
def coreListed (steward c : Bool) (o : Nat) : Bool :=
  let within := fun (lo hi : Nat) => decide (lo ≤ o) && decide (o < hi)
  let index := (o - 0x8000) / 8
  within 0 0x108 || within 0x6400 (if steward then 0x6480 else 0x6420)
    || (decide (0x8000 ≤ o) && (decide (index < 8) || (decide (0x10 ≤ index) && decide (index < 0x1C))
      || (decide (0x20 ≤ index) && decide (index < 0x27)) || index == 0x30 || index == 0x31))
    || (!steward && (within 0x4000 0x5080 || within 0x5100 0x5140 || within 0x5180 0x5188 || within 0x5200 0x5310
      || within 0x5400 0x5680 || within 0x5700 0x6140 || within 0x6200 0x6240 || within 0x6280 0x6288
      || within 0x7008 0x7028 || (!c && within 0x7040 0x7048)))

/-- The words that the maps list in the state of the strips, from window offset 0x24_0000 to 0x29_FFFF (05 R130, 06 R172). -/
def stripListed (off : Nat) : Bool :=
  let within := fun (lo hi : Nat) => decide (lo ≤ off) && decide (off < hi)
  let o := off % 0x10000
  let k := off % 0x1000
  let l := off % 0x4000
  if off < 0x260000 then o < 0xA918 || (0xA940 ≤ o && o < 0xA980) || (0xAA00 ≤ o && o < 0xAD00)
  else if off < 0x27C000 then off < 0x278100
  else if off < 0x27E000 then
    decide (k < 0x48) || (decide (0x80 ≤ k) && decide (k < 0x90)) || (decide (0x100 ≤ k) && decide (k < 0x140)) || k / 8 == 0x40
      || (decide (0x400 ≤ k) && decide (k < 0x700))
  else within 0x280000 0x290000 || (within 0x290000 0x298000 && (decide (l < 0x2D00) || l / 8 == 0x600))

/-- The words that the maps of a window list; every other reads zero and ignores writes (07 R216, R217). -/
def windowListed (u off : Nat) : Bool :=
  let st := isSteward u
  let o := off % 0x10000
  match off / 0x10000 with
  | 0x2B => coreListed st false o
  | 0x2C => !st && coreListed false true o
  | 0x2D => decide (o < 8 * (if st then 8 else 24))
  | 0x2E => o < 0x118 || (!st && ((0x1000 ≤ o && o < 0x1400) || (0x2000 ≤ o && o < 0x2018) || (0x2200 ≤ o && o < 0x2280)
      || (0x3000 ≤ o && o < 0x3018)))
  | 0x2A => !st
  | _ => isMemoryOffset u off || (!st && 0x240000 ≤ off && off < 0x2A0000 && stripListed off)

/-- The rule of 07 R218 for a write of a word at `off`; `steward`: by a steward, or with its rights. The words of the error logs, the
monitors, the report records and the trace belong to no context, and are written at any time (log entry 54). -/
def State.acceptance (s : State) (u off : Nat) (steward : Bool) : Acceptance :=
  let blk := off / 0x10000
  let quiet := s.quiet u ((s.tile u).targetContext off)
  let when := fun (b : Bool) => if b then Acceptance.accepted else .refused
  if blk = 0x2A ∨ windowListed u off = false ∨ 0x300000 ≤ off then .ignored
  else if isMailbox u off ∨ blk = 0x2E then .accepted
  else when (quiet || (blk == 0x2D && steward))

end Sys2Proof.Machine
end

