-- ==== Sys2Proof/Machine/Strip.lean ====
section
/-!
DEFINITION. How a strip instruction issues: phase, tokens, guard, waits, traps, micro-steps; the data and token FIFOs
(02 R54 to R56; 05 R134, R138; 09 R266, R267, R289; 01 R30).
-/
namespace Sys2Proof.Machine

/-! ### FIFOs (09 R266, R267) -/

/-- Numbers of the token FIFOs of engine `e`: from the left, from the right, to the left, to the right (09 R266). -/
def tokenFifos (e : Nat) : Nat × Nat × Nat × Nat :=
  match e with
  | 1 => (14, 9, 15, 8)
  | 2 => (8, 11, 9, 10)
  | 3 => (10, 13, 11, 12)
  | _ => (12, 15, 13, 14)

/-- A data FIFO of a tile. -/
def State.fifo (s : State) (u f : Nat) : Fifo := (s.tile u).fifos.look {} f

/-- A data FIFO changed. -/
def State.modFifo (s : State) (u f : Nat) (g : Fifo → Fifo) : State :=
  s.mod u fun t => { t with fifos := t.fifos.put f (g (t.fifos.look {} f)) }

/-- Whether the entry at place `i` may be popped now: it and those before it have been pushed. -/
def Fifo.canPop (f : Fifo) (now i : Nat) : Bool :=
  decide (i < f.entries.length) && (f.entries.take (i + 1)).all (·.pushed now)

/-- Room for one more entry: 16, counting the reserved ones and those taken in this cycle (09 R267, 05 R169). -/
def Fifo.hasRoom (f : Fifo) (now : Nat) : Bool :=
  decide (f.entries.length + (if f.goneAt = now then f.gone else 0) < 16)

/-- The first entry taken out. -/
def Fifo.pop (f : Fifo) (now : Nat) : Option (FifoEntry × Fifo) :=
  match f.entries with
  | [] => none
  | e :: es => some (e, { f with
      entries := es, head := (f.head + 1) % 16, goneAt := now, gone := (if f.goneAt = now then f.gone else 0) + 1 })

/-- An entry put behind the others; its slot shows it from then on. -/
def Fifo.push (f : Fifo) (e : FifoEntry) : Fifo :=
  { f with entries := f.entries ++ [e], ring := if e.filled then f.ring.put ((f.head + f.entries.length) % 16) e.row else f.ring }

/-- Fill the reserved entry that lands at cycle `now`. -/
def fillFirst (now : Nat) (row : Row) (bad : BitVec 96) : List FifoEntry → List FifoEntry
  | [] => []
  | e :: es =>
    if !e.filled && e.ready == now then { e with row := row, bad := bad, filled := true } :: es
    else e :: fillFirst now row bad es

/-- Place of the reserved entry that lands at cycle `now`. -/
def firstPending (now : Nat) : List FifoEntry → Nat
  | [] => 0
  | e :: es => if !e.filled && e.ready == now then 0 else firstPending now es + 1

/-- The FIFO after a reserved entry has landed. -/
def Fifo.fill (f : Fifo) (now : Nat) (row : Row) (bad : BitVec 96) : Fifo :=
  { f with entries := fillFirst now row bad f.entries, ring := f.ring.put ((f.head + firstPending now f.entries) % 16) row }

/-- Pop the first entry of FIFO `f` of the acting tile. -/
def State.popFifo (s : State) (f : Nat) : FifoEntry × State :=
  match (s.fifo s.cur.unit f).pop s.cycle with
  | none => ({ row := 0 }, s)
  | some (e, g) => (e, s.modFifo s.cur.unit f fun _ => g)


/-- An entry whose inverted bits are found: corrected, or its words are poisoned (07 R219). -/
def FifoEntry.checked (e : FifoEntry) : FifoEntry :=
  { e with
    errs := []
    bad := e.errs.foldl (fun b x => if x.2.uncorrectable then b ||| BitVec.twoPow 96 x.1 else b) e.bad }

/-- The first entries of FIFO `f` of a unit are checked before they are taken; each error found is logged (07 R219, R221). -/
def State.checkFifoOf (s : State) (u f : Nat) : State :=
  let es := (s.fifo u f).entries.take 2
  if es.all fun e => e.errs.isEmpty then s
  else
    let found := es.flatMap (·.errs)
    let s := found.foldl (fun s x =>
      s.logError (windowPA u (0x2A1000 + 8 * x.1)) x.2.uncorrectable x.2.injected (Config.syndrome x.2.mask x.2.check) (agentOf u (s.tile u).run)) s
    s.modFifo u f fun q => { q with entries := (q.entries.take 2).map FifoEntry.checked ++ q.entries.drop 2 }

/-- The same of the acting tile. -/
def State.checkFifo (s : State) (f : Nat) : State := s.checkFifoOf s.cur.unit f

/-- Bits inverted in a table of inverted bits, by ERRINJ or by an upset. -/
def invertIn (t : Tab Flip) (k : Nat) (mask : Word) (check injected : Bool) : Tab Flip :=
  let f := (t.find k).getD { mask := 0, check := false, injected := false }
  let g : Flip := { mask := f.mask ^^^ mask, check := f.check != check, injected := f.injected || injected }
  if g.mask = 0 ∧ g.check = false then t.del k else t.put k g

/-- The FIFO and the entry that the entry view of a tile shows, if its slot holds one (09 R268). -/
def Tile.viewed (t : Tile) : Option (Nat × Nat) :=
  let f := (t.view.extractLsb' 0 3).toNat
  let q := t.fifos.look {} f
  let i := ((t.view.extractLsb' 4 4).toNat + 16 - q.head) % 16
  if f < 6 ∧ (q.entries[i]?).any (·.filled) then some (f, i) else none

/-- The physical address names a word of the entry view. -/
def isEntryView (pa : Nat) : Bool := decide (0x2A1000 ≤ pa % 2 ^ 22) && decide (pa % 2 ^ 22 < 0x2A1300)

/-- Bits inverted in the entry that the view of unit `u` shows. -/
def State.invertEntry (s : State) (u pa : Nat) (mask : Word) (check injected : Bool) : State :=
  match (s.tile u).viewed with
  | none => s
  | some (f, i) => s.modFifo u f fun q => { q with
      entries := q.entries.modify i fun e => { e with errs := invertIn e.errs ((pa % 2 ^ 22 - 0x2A1000) / 8) mask check injected } }

/-- An entry of FIFO `f` has been stored: an injection that waits for it, where the view shows it, fires (07 R222). -/
def State.entryStored (s : State) (u f : Nat) (i : Nat) : State :=
  match (s.tile u).inject with
  | some (a, mask, x) =>
    if isEntryView a && (s.tile u).viewed == some (f, i) then
      (s.mod u fun t => { t with inject := none }).invertEntry u a mask (x.getLsbD 1) true
    else s
  | none => s

/-- Push an entry into FIFO `f` of the acting tile, to be popped from cycle `ready` on. -/
def State.pushFifo (s : State) (f : Nat) (row : Row) (bad : BitVec 96) (ready : Nat) : State :=
  let n := (s.fifo s.cur.unit f).entries.length
  (s.modFifo s.cur.unit f fun g => g.push { row := row, bad := bad, ready := ready }).entryStored s.cur.unit f n

/-! ### Results of a strip instruction -/

/-- How a strip instruction's issue or micro-step ends. -/
inductive StripRes where
  /-- it issues, or ends with this micro-step, which takes `extra` more cycles -/
  | done (s : State) (extra : Nat := 0)
  /-- it waits with a code of 09 R289, on a FIFO where the code says so -/
  | wait (code : Nat) (fifo : Nat) (s : State)
  /-- a micro-step of `cycles` cycles that is not its last -/
  | micro (s : State) (cycles : Nat)
  /-- a cycle of a micro-step passes that does not end it -/
  | part (s : State)
  /-- it raises a trap in state `s`; `report` is how it goes on under REPORT -/
  | trap (s : State) (t : Trap) (report : Option State)

/-- The acting strip. -/
def State.strip (s : State) : Strip := s.me.strip s.cur.eng

/-- The acting strip changed. -/
def State.modMyStrip (s : State) (f : Strip → Strip) : State := s.modStrip s.cur.unit s.bank s.cur.eng f

/-- Tokens present in a token FIFO. -/
def State.tokens (s : State) (f : Nat) : Nat := s.here.tokens.look 0 f

/-- Room for a token, counting those pushed or popped in this cycle and those on their way. -/
def State.tokenRoom (s : State) (f : Nat) : Bool :=
  decide (s.here.tokens.look 0 f + s.here.newTokens.look 0 f + s.here.goneTokens.look 0 f
    + (s.here.tokensDue.filter fun e => e.2 == f).length < 8)

/-- Pop a token. -/
def State.popToken (s : State) (f : Nat) : State :=
  s.modHere fun t => { t with
    tokens := t.tokens.put f (t.tokens.look 0 f - 1), goneTokens := t.goneTokens.put f (t.goneTokens.look 0 f + 1) }

/-- Push a token, visible from the next cycle (02 R54). -/
def State.pushToken (s : State) (f : Nat) : State :=
  s.modHere fun t => { t with newTokens := t.newTokens.put f (t.newTokens.look 0 f + 1) }

/-- The first token that an instruction lacks: wait code and FIFO. -/
def State.lacksToken (s : State) (h : StripHead) : Option (Nat × Nat) :=
  let (l, r, _, _) := tokenFifos s.cur.eng
  if h.pl && s.tokens l == 0 then some (1, l)
  else if h.pr && s.tokens r == 0 then some (2, r)
  else none

/-- The first token FIFO that has no room for a push. -/
def State.lacksRoom (s : State) (h : StripHead) : Option Nat :=
  let (_, _, l, r) := tokenFifos s.cur.eng
  if h.hl && !s.tokenRoom l then some l else if h.hr && !s.tokenRoom r then some r else none

/-- Take the tokens of an instruction. -/
def State.takeTokens (s : State) (h : StripHead) : State :=
  let (l, r, _, _) := tokenFifos s.cur.eng
  let s := if h.pl then s.popToken l else s
  if h.pr then s.popToken r else s

/-- Push the tokens of an instruction at the end of its last micro-step, `extra` cycles from now (02 R55). -/
def State.giveTokens (s : State) (h : StripHead) (extra : Nat := 0) : State :=
  let (_, _, l, r) := tokenFifos s.cur.eng
  let give := fun (s : State) (f : Nat) =>
    if extra = 0 then s.pushToken f else s.modHere fun t => { t with tokensDue := t.tokensDue ++ [(s.cycle + extra, f)] }
  let s := if h.hl then give s l else s
  if h.hr then give s r else s

/-- The tokens whose micro-step ends in cycle `now` are pushed. -/
def Tile.landTokens (t : Tile) (now : Nat) : Tile :=
  if t.tokensDue.isEmpty then t
  else (t.tokensDue.filter fun e => decide (e.1 ≤ now)).foldl (fun t e =>
    { t with newTokens := t.newTokens.put e.2 (t.newTokens.look 0 e.2 + 1) })
    { t with tokensDue := t.tokensDue.filter fun e => decide (now < e.1) }

/-- The guard g[GI] XOR GN of the acting strip; g0 is true (02 R53, R56). -/
def State.guardTrue (s : State) (h : StripHead) : Bool := (h.gi == 0 || s.strip.guards.getLsbD h.gi.toNat) != h.gn

/-- The slot of the strip's instruction: in progress as it was fetched, else the one at its position (02 R72). -/
def State.stripFetched (s : State) : Option (Slot × Option Slot) :=
  match s.strip.slot with
  | some x => some x
  | none => s.fetch s.cur.unit s.bank s.strip.pos

/-- That slot as ctl.info1 holds it. -/
def State.stripSlot (s : State) : Word :=
  match s.stripFetched with
  | some (w, _) => w.setWidth 64
  | none => 0

/-! ### The ends -/

/-- The position after the strip's instruction; past the end of a chain it is `noPos` (02 R44, R45). -/
def State.nextPos (s : State) : Pos :=
  (match s.strip.slot with
    | some (w, _) => successorOf s.cur.eng s.strip.link w s.strip.pos
    | none => s.successor s.cur.unit s.bank s.cur.eng s.strip.pos).getD noPos

/-- A strip trap (05 R138, 14 R393): the strip stops TRAPPED at its slot and micro-step, the trap is pending for the core. -/
def State.trapStrip (s : State) (t : Trap) : State :=
  let e := s.cur.eng
  let t := { t with eng := e, pos := s.strip.pos, ust := s.strip.ust, rank := e }
  (s.modMyStrip fun p => { p with state := 5, stall := 0, wait := 0 }).pend s.cur.unit s.bank t

/-- A waiting cycle of a strip: its code, its stall count, the hang fault at STALLTO; the count pauses while the context is frozen
(09 R289, R291). -/
def State.stripWaits (s : State) (code fifo : Nat) : State :=
  let u := s.cur.unit
  let e := s.cur.eng
  let frozen := s.me.frozen
  let s := s.modMyStrip fun p => { p with wait := code, waitFifo := fifo, stall := if frozen then p.stall else p.stall + 1 }
  if !frozen && s.strip.stall == s.stallLimit u s.bank then s.due (.hangFault u s.bank e) else s

/-- An instruction ends: the next position, and the first cycle of the next issue (02 R55). -/
def State.stripEnds (s : State) (h : StripHead) (extra : Nat) : State :=
  let p := s.nextPos
  s.modMyStrip fun t => { t.clean with pos := p, next := s.cycle + extra + 1 + h.idle.toNat }

/-- A trap of a strip, or its report (14 R390, R391). -/
def State.stripRaises (s : State) (t : Trap) (go : Option State) (k : State → State) : State :=
  match go with
  | some m =>
    if s.me.disposition t.cause == .report then
      k (m.reportTrap s.cur.unit s.bank { t with eng := s.cur.eng, pos := s.strip.pos, ust := s.strip.ust })
    else s.trapStrip t
  | none => s.trapStrip t

/-- A table after a work whose values are open: an entry that the work has changed is free. -/
def freed {α : Type} [BEq α] (free : Nat → α) (old new : Tab α) : Tab α :=
  new.map fun e => if old.find e.1 == some e.2 then e else (e.1, free e.1)

/-- What a work of the acting strip has made of its FIFOs and arrays, of the bytes of memory and of what lands later, open (09 R265). -/
def Tile.loosened (old new : Tile) (n : Nat) : Tile :=
  { new with
    acc := freed (fun k => Config.freeRow (n + k)) old.acc new.acc
    rowsDue := new.rowsDue.map fun r => if old.rowsDue.contains r then r else { r with data := Config.freeNat (n + r.addr) % 2 ^ (8 * r.len) }
    fifos := new.fifos.map fun e =>
      let was := (old.fifos.look {} e.1).entries
      (e.1, { e.2 with entries := e.2.entries.map fun q => if was.contains q then q else { q with row := Config.freeRow (n + e.1) } }) }

/-- The results of an instruction that the debugger has made go on elsewhere are free values where they differ from what stood: registers,
mailboxes, FIFO entries, accumulators, bytes of memory, results that land later, and flags (09 R265, log entry 2). -/
def State.loosen (s m : State) : State :=
  let n := m.fresh
  let lands := fun (e : Nat × Event) => match e.2 with
    | .vectorResultLands u c r on _ bad fl sat =>
      if s.agenda.contains e then e else (e.1, .vectorResultLands u c r on (Config.freeRow n) bad fl sat)
    | _ => e
  let changed := (m.mem.filter fun e => !s.mem.contains e).map (·.1) ++ (s.mem.filter fun e => !m.mem.contains e).map (·.1)
  let x := s.me
  let m := m.modMe fun y => { y with
    v := freed (fun k => Config.freeRow (n + k)) x.v y.v, m := freed (fun k => Config.freeMask (n + k)) x.m y.m
    fpend := y.fpend ||| (Config.freeWord n).setWidth 7 }
  let m := m.modMyStrip fun t => { t with mailbox := freed (fun k => Config.freeWord (n + k)) s.strip.mailbox t.mailbox }
  ({ m with
    agenda := m.agenda.map lands
    mem := changed.eraseDups.foldl (fun mem a => writeByte mem a (Config.freeByte n a)) m.mem }.modHere (s.here.loosened · n)).used

/-- The outcome of a strip's work, its results open where they are (09 R265). -/
def StripRes.opened (s : State) (r : StripRes) : StripRes :=
  if !s.strip.loose then r
  else match r with
    | .done m extra => .done (s.loosen m) extra
    | .wait code fifo m => .wait code fifo m
    | .micro m cycles => .micro (s.loosen m) cycles
    | .part m => .part (s.loosen m)
    | .trap m t report => .trap m t (report.map s.loosen)

/-- The state after a strip's work; `s` is the state before the instruction or micro-step. -/
def StripRes.finish (h : StripHead) (s : State) (r : StripRes) : State :=
  match r.opened s with
  | .done m extra => (m.giveTokens h extra).stripEnds h extra
  | .wait code fifo m => m.stripWaits code fifo
  | .micro m cycles =>
    m.modMyStrip fun t => { t with ust := t.ust + 1, next := s.cycle + cycles, stall := 0, wait := 0, spent := 0 }
  | .part m => m.modMyStrip fun t => { t with next := s.cycle + 1, stall := 0, wait := 0 }
  | .trap m t report => m.stripRaises t report fun m => (m.giveTokens h).stripEnds h 0

/-- The end of a single-cycle instruction, which takes its tokens as it issues (02 R54). -/
def StripRes.finishOnce (h : StripHead) (s : State) : StripRes → State
  | .done m extra => (StripRes.done (m.takeTokens h) extra).finish h s
  | .trap m t report => (StripRes.trap m t (report.map (·.takeTokens h))).finish h s
  | .wait code fifo m => (StripRes.wait code fifo m).finish h s
  | .micro m cycles => (StripRes.micro m cycles).finish h s
  | .part m => (StripRes.part m).finish h s

/-! ### Issue -/

/-- A phase-illegal trap of a strip (02 R63). -/
def State.phaseTrap (s : State) : Trap := { cause := 0x04, i1 := s.stripSlot }

/-- A reserved-operand trap of a strip, found as it issues. -/
def State.operandTrap (s : State) (info0 : Nat := 7) : Trap := { cause := 0x02, i0 := BitVec.ofNat 64 info0, i1 := s.stripSlot }

/-- A false guard: the tokens move and one cycle passes (02 R56). -/
def State.stripSkips (s : State) (h : StripHead) : State :=
  match s.lacksToken h with
  | some (code, f) => s.stripWaits code f
  | none =>
    match s.lacksRoom h with
    | some f => s.stripWaits 4 f
    | none => ((s.takeTokens h).giveTokens h).stripEnds h 0

/-- A single-cycle strip instruction: `legal` in this phase; its tokens present and with room; then `work`. -/
def stripOnce (h : StripHead) (legal : State → Bool) (work : State → StripRes) (s : State) :
    Host.Outcome State Fault Refusal :=
  .next <|
    if !legal s then s.trapStrip s.phaseTrap
    else if !s.guardTrue h then s.stripSkips h
    else match s.lacksToken h with
      | some (code, f) => s.stripWaits code f
      | none =>
        match s.lacksRoom h with
        | some f => s.stripWaits 4 f
        | none => (work s).finishOnce h s

/-- A multi-cycle strip instruction has begun or goes on: its tokens are taken once, and it runs on as it was fetched (02 R55,
R72). -/
def State.begun (s m : State) (h : StripHead) : State :=
  let m := if m.strip.popped then m else m.takeTokens h
  m.modMyStrip fun t =>
    { t with popped := true, slot := s.stripFetched
             link := if t.slot.isSome then t.link else s.linkWord s.cur.unit (posLine s.strip.pos) }

/-- A multi-cycle strip instruction of `last` micro-steps, its next one being number UST + 1: it begins, and takes its tokens, as
soon as they are there and its registers are ready, whatever its micro-step then waits for, and gives tokens with the last one,
which waits for room (02 R55). -/
def stripMany (h : StripHead) (legal : State → Bool) (last : State → Nat) (work : State → StripRes) (s : State) :
    Host.Outcome State Fault Refusal :=
  .next <|
    if !legal s then s.trapStrip s.phaseTrap
    else if s.strip.ust = 0 && !s.strip.popped && !s.guardTrue h then s.stripSkips h
    else match (if s.strip.popped then none else s.lacksToken h) with
      | some (code, f) => s.stripWaits code f
      | none =>
        match (if s.strip.ust + 1 < last s then none else s.lacksRoom h), work s with
        | _, .wait 6 f m => (StripRes.wait 6 f m).finish h s
        | some f, _ => (s.begun s h).stripWaits 4 f
        | none, r =>
          match r with
          | .done m extra =>
            let m := if m.strip.popped then m else m.takeTokens h
            (StripRes.done m extra).finish h s
          | .micro m cycles => (StripRes.micro (s.begun m h) cycles).finish h s
          | .part m => (StripRes.part (s.begun m h)).finish h s
          | .wait code f m => (StripRes.wait code f (s.begun m h)).finish h s
          | .trap m t report => (StripRes.trap m t report).finish h s

/-- Legal in a compute phase. -/
def inCompute (s : State) : Bool := !s.inExchange

/-- Legal in an exchange phase. -/
def inExchangeOnly (s : State) : Bool := s.inExchange

/-- Legal in both phases. -/
def anyPhase (_ : State) : Bool := true

/-- Everything the strip has issued completes no later than this cycle (09 R287). -/
def State.drainsAt (s : State) (cycle : Nat) : State := s.modMyStrip fun t => { t with drained := max t.drained cycle }

/-- A micro-step that fails keeps its popped entries (06 R184, 07 R227). -/
def State.holds (s : State) (es : List FifoEntry) : State := s.modMyStrip fun t => { t with held := es }

end Sys2Proof.Machine
end

