-- ==== Sys2Proof/Machine/Lanes.lean ====
section
/-!
DEFINITION. How a vector instruction reads its operands, computes lane by lane, traps and writes its result (05 R131 to
R139, R141).
-/
namespace Sys2Proof.Machine

/-! ### Operands -/

/-- A source of a vector instruction. -/
inductive VectorSource where
  | reg (n : Nat) (last : Bool)
  | port (q : Nat)
  | mask (n : Nat)
  | mailbox (k : Nat)
deriving DecidableEq, Repr

/-- A destination of a vector instruction. -/
inductive VectorTarget where
  | reg (n : Nat)
  | mask (n : Nat)
  | port (q : Nat)
  | mailbox (k : Nat)
deriving DecidableEq, Repr

/-- The source that a register code names: 0x38 and up are ports (02 R57). -/
def sourceOf (x : BitVec 6) (last : Bool) : VectorSource :=
  if 0x38 ≤ x.toNat then .port (x.toNat - 0x38) else .reg x.toNat last

/-- The destination that a register code names. -/
def targetOfCode (x : BitVec 6) : VectorTarget := if 0x38 ≤ x.toNat then .port (x.toNat - 0x38) else .reg x.toNat

/-- What a vector instruction reads, writes and rounds by. -/
structure VectorSpec where
  sources : List VectorSource
  target : VectorTarget
  /-- number of its mask -/
  m : Nat
  lat : Nat := 4
  /-- its rounding code: 5 takes ctl.frm (05 R141) -/
  round : Nat := 0
  /-- the lanes of a register source that it consumes, by the operand rows, the active lanes and the number of the source -/
  consumed : List Row → LaneMask → Nat → LaneMask := fun _ on _ => on

/-- Mask `n`; m0 reads all ones (05 R129). -/
def Ctx.mask (x : Ctx) (n : Nat) : LaneMask := if n = 0 then BitVec.allOnes 192 else x.m.look 0 n

/-- The data FIFO bound to a port (05 R133). -/
def Ctx.bound (x : Ctx) (q : Nat) : Option Nat :=
  match (x.bind.extractLsb' (4 * q) 4).toNat with
  | 1 => some 1
  | 2 => some 3
  | 3 => some 2
  | 4 => some 5
  | _ => none

/-- The first port, of sources and destination in order, that is unbound (05 R134). -/
def Ctx.unbound (x : Ctx) (p : VectorSpec) : Option Nat :=
  let ports := p.sources.filterMap fun o => match o with
    | .port q => some q
    | _ => none
  let ports := match p.target with
    | .port q => ports ++ [q]
    | _ => ports
  ports.find? fun q => (x.bound q).isNone

/-- The FIFOs that the sources pop, in order, each with its place among the pops of that FIFO. -/
def Ctx.pops (x : Ctx) : List VectorSource → List Nat → List (Nat × Nat)
  | [], _ => []
  | .port q :: rest, seen =>
    let f := (x.bound q).getD 0
    (f, (seen.filter (· == f)).length) :: x.pops rest (f :: seen)
  | _ :: rest, seen => x.pops rest seen

/-- The first input FIFO that lacks an entry. -/
def State.emptyInput (s : State) (p : VectorSpec) : Option Nat :=
  ((s.me.pops p.sources []).find? fun e => !(s.fifo s.cur.unit e.1).canPop s.cycle e.2).map (·.1)

/-- The output FIFO, if it has no room. -/
def State.fullOutput (s : State) (p : VectorSpec) : Option Nat :=
  match p.target with
  | .port q =>
    let f := (s.me.bound q).getD 0
    if (s.fifo s.cur.unit f).hasRoom s.cycle then none else some f
  | _ => none

/-- Whether a register or mask that the instruction reads or writes has a result to come (05 R137). -/
def Ctx.vectorBusy (x : Ctx) (p : VectorSpec) : Bool :=
  x.vbusy.contains (.mask p.m)
    || (p.sources.any fun o => match o with
      | .reg n _ => x.vbusy.contains (.vreg n)
      | .mask n => x.vbusy.contains (.mask n)
      | _ => false)
    || (match p.target with
      | .reg n => x.vbusy.contains (.vreg n)
      | .mask n => x.vbusy.contains (.mask n)
      | _ => false)

/-! ### Dead registers (05 R136) -/

/-- The registers whose dead bits matter: the sources, and a destination written under a mask other than m0. -/
def VectorSpec.readRegs (p : VectorSpec) : List Nat :=
  (p.sources.filterMap fun o => match o with
    | .reg n _ => some n
    | _ => none) ++
  (match p.target with
    | .reg n => if p.m = 0 then [] else [n]
    | _ => [])

/-- The first dead register that is read. -/
def Ctx.firstDeadVector (x : Ctx) (p : VectorSpec) : Option Nat := p.readRegs.find? fun n => x.vdead.getLsbD n

/-- A row whose lanes outside a mask are zero. -/
def maskRow (m : LaneMask) (r : Row) : Row :=
  if m = BitVec.allOnes 192 then r else mkRow fun l => if m.getLsbD l then lane r l else 0

/-- The value that a read of register `n` gives: of a dead one, each lane is its old value or zero. -/
def State.readVector (s : State) (n : Nat) : State × Row :=
  let r := s.me.v.look 0 n
  if s.me.vdead.getLsbD n then (s.used, maskRow (Config.freeMask s.fresh) r) else (s, r)

/-! ### Data errors (05 R170, 07 R220) -/

/-- Physical address of lane `l` of register `n`. -/
def vectorPA (u : Nat) (c : Bool) (n l : Nat) : Nat := windowPA u (0x240000 + c.toNat * 0x10000 + 0x300 * n + 4 * l)

/-- Physical address of mask `n`. -/
def maskPA (u : Nat) (c : Bool) (n : Nat) : Nat := windowPA u (0x240000 + c.toNat * 0x10000 + 0xA800 + 0x20 * n)

/-- Physical address of mailbox `k` of the vector strip. -/
def vectorMailboxPA (u : Nat) (c : Bool) (k : Nat) : Nat := mailboxPA u c 3 k

/-- The lanes that `from_` takes the active ones from. -/
def lanesFrom (on : LaneMask) (from_ : Nat → Nat) : LaneMask :=
  (List.range lanes).foldl (fun m l => if on.getLsbD l then m ||| BitVec.twoPow 192 (from_ l) else m) 0

/-- The first poisoned lane of a register among those of `on`. -/
def State.poisonedLane (s : State) (n : Nat) (on : Nat → Bool) : Option Nat :=
  (List.range lanes).find? fun l => on l && s.poisoned (vectorPA s.cur.unit s.bank n l)

/-- A data error of the vector strip at a window offset and lane. -/
def vectorDataError (off l : Nat) : Trap := dataError 3 off l

/-- The data error of a source, in the lanes `on` for a register, in any word for a popped entry. -/
def State.sourceError (s : State) (on : LaneMask) (o : VectorSource) (entry : Option FifoEntry) : Option Trap :=
  let u := s.cur.unit
  match o with
  | .reg n _ => (s.poisonedLane n on.getLsbD).map fun l => vectorDataError (vectorPA u s.bank n l % 2 ^ 22) l
  | .mask n => (s.firstPoison (maskPA u s.bank n) 24).map fun pa => vectorDataError (pa % 2 ^ 22) ((pa - maskPA u s.bank n) * 8)
  | .mailbox k =>
    (s.firstPoison (vectorMailboxPA u s.bank k) 8).map fun pa => vectorDataError (pa % 2 ^ 22) 0
  | .port _ =>
    match entry with
    | none => none
    | some e => ((List.range 96).find? fun i => e.bad.getLsbD i).map fun i => vectorDataError (0x2A1000 + 8 * i) (2 * i)

/-- The data error of merging active lanes into half of a poisoned word of the destination. -/
def State.mergeError (s : State) (on : LaneMask) (target : VectorTarget) : Option Trap :=
  match target with
  | .reg n =>
    (s.poisonedLane n fun l => on.getLsbD l && !on.getLsbD (l / 2 * 2 + 1 - l % 2)).map fun l =>
      vectorDataError (vectorPA s.cur.unit s.bank n l % 2 ^ 22) l
  | _ => none

/-- Error correction of what the instruction reads. -/
def State.scrubVector (s : State) (p : VectorSpec) : State :=
  if s.flips.isEmpty then
    p.sources.foldl (fun s o => match o with
      | .port q => s.checkFifo ((s.me.bound q).getD 0)
      | _ => s) s
  else
    let u := s.cur.unit
    let a := agentOf u s.bank
    let s := s.scrub a (maskPA u s.bank p.m) 24
    p.sources.foldl (fun s o => match o with
      | .reg n _ => s.scrub a (vectorPA u s.bank n 0) 768
      | .mask n => s.scrub a (maskPA u s.bank n) 24
      | .mailbox k => s.scrub a (vectorMailboxPA u s.bank k) 8
      | .port q => s.checkFifo ((s.me.bound q).getD 0)) s

/-! ### Lane by lane -/

/-- What a computation over the lanes gives: its row (or mask in the low bits), the generators, the flags, the clamped
elements, and the first lane and element that traps. -/
structure Calc where
  row : Nat := 0
  gens : Tab (BitVec 32) := []
  flags : BitVec 7 := 0
  sat : Nat := 0
  first : Option (Nat × Nat) := none

/-- Elements of a lane of type `t`, and their width (03 R77). -/
def widthOf (t : BitVec 4) : Nat := 32 / elements t

/-- The format of a floating-point element type (02 R57). -/
def elemFmt (t : BitVec 4) : Fmt :=
  match t.toNat with
  | 3 => bf16
  | 4 => fp16
  | 5 => e4m3
  | 6 => e5m2
  | _ => fp32

/-- Types 2 to 6 are floating-point. -/
def floats (t : BitVec 4) : Bool := decide (2 ≤ t.toNat) && decide (t.toNat ≤ 6)

/-- Element `e` of width `w` of a lane value. -/
def element (v : BitVec 32) (w e : Nat) : Nat := bits v.toNat (w * e) w

/-- The integer that an element of type `t` holds. -/
def intOf (t : BitVec 4) (v : Nat) : Int := if isSigned t then signedOf v (widthOf t) else v

/-- Add one element's result, of width `w` at element `e` of lane `l`; `g` is the generator after its step. -/
def Calc.put (a : Calc) (mode : Nat) (g : BitVec 32) (stops : Res → Bool) (w l e : Nat) (r : Res) : Calc where
  row := a.row + r.bits % 2 ^ w * 2 ^ (32 * l + w * e)
  gens := if mode = 4 then a.gens.put l g else a.gens
  flags := a.flags ||| r.flags
  sat := a.sat + r.sat
  first := if a.first.isNone && stops r then some (l, e) else a.first

/-- The generator of lane `l` after the step of a rounding. -/
def Calc.step (a : Calc) (x : Ctx) (mode l : Nat) : BitVec 32 :=
  if mode = 4 then xs32 (a.gens.look (seedOf x.seed l) l) else 0

/-- Whether a result stops the instruction: a produced NaN under FNAN, a special value under STRICT (03 R84, R95). -/
def Ctx.stops (x : Ctx) (r : Res) : Bool := (r.made && x.mode.getLsbD 2) || r.strict

/-- `f` for each element of width `w` of each active lane, ascending (05 R138); element `e` rounds in mode `modeOf e`. `f`
gets the stepped generator, the lane and the element. -/
def perElementIn (x : Ctx) (modeOf : Nat → Nat) (w : Nat) (on : LaneMask) (f : BitVec 32 → Nat → Nat → Res) : Calc :=
  (List.range lanes).foldl (fun a l =>
    if on.getLsbD l then
      (List.range (32 / w)).foldl (fun a e =>
        let g := a.step x (modeOf e) l
        a.put (modeOf e) g x.stops w l e (f g l e)) a
    else a) { gens := x.vgen }

/-- `perElementIn` with one mode for all elements. -/
def perElement (x : Ctx) (mode w : Nat) (on : LaneMask) (f : BitVec 32 → Nat → Nat → Res) : Calc :=
  perElementIn x (fun _ => mode) w on f

/-- The instruction moves whole lanes: lane `l` becomes `f l`. -/
def perLane (x : Ctx) (on : LaneMask) (f : Nat → BitVec 32) : Calc where
  row := rowOf (fun l => if on.getLsbD l then f l else 0) lanes
  gens := x.vgen

/-- The instruction writes a mask: bit `l` becomes `f l` in the active lanes, 0 in the others (05 R132). -/
def perMask (x : Ctx) (on : LaneMask) (f : Nat → Bool) : Calc where
  row := maskOf (fun l => on.getLsbD l && f l) lanes
  gens := x.vgen

/-! ### The instruction -/

/-- The latency's end: cycle, destination and what it writes. -/
def State.issueVector (s : State) (p : VectorSpec) (on : LaneMask) (r : Row) (c : Calc) : State :=
  let u := s.cur.unit
  let at_ := s.cycle + p.lat
  let dest : VectorDest := match p.target with
    | .reg n => .vreg n
    | .mask n => .mask n
    | .port q => .fifo ((s.me.bound q).getD 0)
    | .mailbox k => .mailbox k
  let s := match dest with
    | .fifo f => s.modFifo u f fun g => g.push { row := 0, ready := at_, filled := false }
    | .mailbox _ => s
    | d => s.modMe fun x => { x with vbusy := d :: x.vbusy }
  let at_ := if p.target matches .mailbox _ then at_ + 1 else at_
  (s.schedule at_ (.vectorResultLands u s.bank dest on r 0 c.flags c.sat)).drainsAt (s.cycle + p.lat)

/-- Mark the sources that are read for the last time (05 R136). -/
def Ctx.markVectors (x : Ctx) (os : List VectorSource) : Ctx :=
  os.foldl (fun x o => match o with
    | .reg n true => { x with vdead := x.vdead ||| BitVec.twoPow 56 n }
    | _ => x) x

/-- Read the sources; entries are popped in order A, B, C (05 R134). -/
def State.readVectors : State → List VectorSource → State × List (Row × Option FifoEntry)
  | s, [] => (s, [])
  | s, o :: os =>
    match o with
    | .reg n _ =>
      let (s, r) := s.readVector n
      let (s, rs) := s.readVectors os
      (s, (r, none) :: rs)
    | .mask n =>
      let r := (s.me.mask n).setWidth 6144
      let (s, rs) := s.readVectors os
      (s, (r, none) :: rs)
    | .mailbox k =>
      let r := (s.me.vector.mailbox.look 0 k).setWidth 6144
      let (s, rs) := s.readVectors os
      (s, (r, none) :: rs)
    | .port q =>
      let (e, s) := s.popFifo ((s.me.bound q).getD 0)
      let (s, rs) := s.readVectors os
      (s, (e.row, some e) :: rs)

/-- The first data error of an instruction whose sources are `vs`. -/
def State.vectorError (s : State) (p : VectorSpec) (on : LaneMask) (vs : List (Row × Option FifoEntry)) : Option Trap :=
  if s.poison.isEmpty && vs.all (fun e => match e.2 with
    | some e => e.bad == 0
    | none => true) then none
  else
    let rows := vs.map (·.1)
    match s.sourceError on (.mask p.m) none with
    | some t => some t
    | none =>
      match (p.sources.zip (vs.zip (List.range 3))).findSome? fun o => s.sourceError (p.consumed rows on o.2.2) o.1 o.2.1.2 with
      | some t => some t
      | none => s.mergeError on p.target

/-- The work once everything is ready: read, compute, then write unless an element traps. `body` gets the context, the
rounding mode, the active lanes and the operand rows; `only` limits the lanes written. -/
def vectorRun (p : VectorSpec) (only : LaneMask) (body : Ctx → Nat → LaneMask → List Row → Calc) (mode : Nat) (s : State) :
    StripRes :=
  let on := s.me.mask p.m &&& only
  let (m, vs) := s.readVectors p.sources
  match s.vectorError p on vs with
  | some t => .trap s t none
  | none =>
    let c := body m.me mode on (vs.map (·.1))
    let row := BitVec.ofNat 6144 c.row
    -- the inactive lanes of a dead destination hold relaxed values afterwards
    let (m, row, on) := match p.target with
      | .reg n =>
        if p.m != 0 && m.me.vdead.getLsbD n then
          let (m', old) := m.readVector n
          (m', row ||| maskRow (~~~on) old, BitVec.allOnes 192)
        else (m, row, on)
      | _ => (m, row, on)
    let m := m.modMe fun x => { x.markVectors p.sources with vgen := c.gens }
    let m := m.issueVector p on row c
    match c.first with
    | some (l, e) =>
      .trap s { cause := 0x0A, i0 := 3, i1 := gridWord s.cur.unit, i2 := BitVec.ofNat 64 l, i3 := BitVec.ofNat 64 e } (some m)
    | none => .done m

/-- The report of a trap by the acting strip (14 R391). -/
def State.reportStrip (s : State) (t : Trap) : State :=
  s.reportTrap s.cur.unit s.bank { t with eng := s.cur.eng, pos := s.strip.pos, ust := s.strip.ust }

/-- A trap that a micro-step takes, or goes on from under REPORT. -/
def State.orReport (s : State) (t : Option Trap) (go : State → StripRes) : StripRes :=
  match t with
  | none => go s
  | some t => if s.reports t.cause then go (s.reportStrip t) else .trap s t none

/-- The issue of a vector instruction: port and rounding traps, then the waits of 02 R54 and 05 R137, then dead registers. -/
def vectorWork (p : VectorSpec) (only : LaneMask) (body : Ctx → Nat → LaneMask → List Row → Calc) (s : State) : StripRes :=
  let x := s.me
  let mode := if p.round = 5 then (x.frm.extractLsb' 0 3).toNat else p.round
  match x.unbound p with
  | some q => .trap s { s.operandTrap 8 with i1 := BitVec.ofNat 64 q } none
  | none =>
    if 5 ≤ mode then .trap s s.operandTrap none
    else match s.emptyInput p with
    | some f => .wait 3 f s
    | none =>
      match s.fullOutput p with
      | some f => .wait 4 f s
      | none =>
        if x.vectorBusy p then .wait 6 0 s
        else
          let s := s.scrubVector p
          match (if x.mode.getLsbD 0 then x.firstDeadVector p else none) with
          | some n =>
            let t : Trap := { cause := 0x09, i0 := BitVec.ofNat 64 n }
            if s.reports 0x09 then vectorRun p only body mode (s.reportStrip t) else .trap s t none
          | none => vectorRun p only body mode s

/-- A vector instruction (05 R137 to R139). -/
def vectorInstr (h : StripHead) (p : VectorSpec) (body : Ctx → Nat → LaneMask → List Row → Calc) (s : State)
    (only : LaneMask := BitVec.allOnes 192) : Host.Outcome State Fault Refusal :=
  stripOnce h inCompute (vectorWork p only body) s

/-- Operand row `i`. -/
def nthRow (vs : List Row) (i : Nat) : Row := (vs[i]?).getD 0

/-! ### The landing of a result (05 R131, R136, R137) -/

/-- The row that a masked write leaves in a register. -/
def mergeRow (on : LaneMask) (old new : Row) : Row :=
  if on = BitVec.allOnes 192 then new
  else maskRow (~~~on) old ||| maskRow on new

/-- Words of a register written whole lose their poison. -/
def State.clearLanes (s : State) (u : Nat) (c : Bool) (n : Nat) (on : LaneMask) : State :=
  if s.poison.isEmpty && s.flips.isEmpty then s
  else (List.range 96).foldl (fun s i =>
    if on.getLsbD (2 * i) && on.getLsbD (2 * i + 1) then s.clearPoison (vectorPA u c n (2 * i)) else s) s

/-- A mask after its write, with its trace entry (14 R408). -/
def State.landMask (s : State) (u : Nat) (c : Bool) (n : Nat) (v : LaneMask) : State :=
  let s := s.modCtx u c fun x => { x with m := x.m.put n v, vbusy := x.vbusy.erase (.mask n) }
  let count := ((List.range lanes).filter v.getLsbD).length
  let s := (List.range 3).foldl (fun s i => s.clearPoison (maskPA u c n + 8 * i)) s
  s.traceEvent u 2 3 c (BitVec.ofNat 64 (n * 65536 + count))

/-- VECTOR_RESULT_LANDS (05 R137): the destination is written or the port entry pushed; its flags and counts join the
pending set (05 R139). -/
def execVectorResultLands (u : Nat) (c : Bool) (r : VectorDest) (on : LaneMask) (v : Row) (bad : BitVec 96)
    (fl : BitVec 7) (sat : Nat) (s : State) : Host.Outcome State Fault Refusal :=
  let s := s.modCtx u c fun x => (x.raise fl).saturated sat
  .next <| match r with
    | .vreg n =>
      let s := s.modCtx u c fun x => { x with
        v := x.v.put n (mergeRow on (x.v.look 0 n) v)
        vdead := x.vdead &&& ~~~BitVec.twoPow 56 n
        vbusy := x.vbusy.erase (.vreg n) }
      s.clearLanes u c n on
    | .mask n => s.landMask u c n (v.setWidth 192)
    | .fifo f => (s.modFifo u f fun g => g.fill s.cycle (maskRow on v) bad).entryStored u f (firstPending s.cycle (s.fifo u f).entries)
    | .mailbox k =>
      (s.modCtx u c fun x => { x with vector := { x.vector with mailbox := x.vector.mailbox.put k (v.setWidth 64) } }).clearPoison
        (vectorMailboxPA u c k)

end Sys2Proof.Machine
end

