-- ==== Sys2Proof/Machine/Memory.lean ====
section
/-!
DEFINITION. Loads and stores of the control core, their checks and their bank grants (07 R204, R205, R207, R208, R213,
R220, R224).
-/
namespace Sys2Proof.Machine

/-! ### Which local addresses may be reached -/

/-- What a bank's role permits to its owner's control core: `none`, or the cause it raises (07 R207). -/
def coreRole (role : Nat) (exchange : Bool) : Option Nat :=
  match role with
  | 0 => none
  | 1 => none
  | 2 => none
  | 4 => if exchange then some 0x04 else none
  | _ => some 0x08

/-- The cause that an access of `n` bytes at a local address raises, if any (07 R204, R207, 01 R39). -/
def State.localFault (s : State) (u : Nat) (c : Bool) (a n : Nat) : Option Nat :=
  let t := s.tile u
  if 2 ^ 22 ≤ a then some 0x08
  else if a + n ≤ scratchSize u then
    if inSpill t.dual a n || t.bankOwner (bankOf a) != c then some 0x08
    else coreRole (t.role (bankOf a)) (s.exchange u c)
  else if isMailbox u a && (t.targetContext a == c) then none
  else if 0x2D0000 ≤ a ∧ a < 0x2D0000 + 8 * (if isSteward u then 8 else 24) then
    if t.bankOwner (a % 0x10000 / 8) != c then some 0x08 else none
  else some 0x08

/-- The address is in a bank. -/
def isBank (u a : Nat) : Bool := decide (a < scratchSize u)

/-- The bank of unit `u` is still free in this cycle, taking it (07 R205). -/
def State.grant (s : State) (u b : Nat) : Option State :=
  if (s.tile u).granted.contains b then none
  else some (s.mod u fun t => { t with granted := b :: t.granted })

/-! ### The effective address and the size -/

/-- Bytes of a size code (07 R224). -/
def sizeOf (x : Nat) : Nat :=
  match x with
  | 0 => 8
  | 1 => 4
  | 4 => 4
  | 2 => 2
  | 5 => 2
  | _ => 1

/-- The size code sign-extends (07 R224). -/
def sizeSigned (x : Nat) : Bool := decide (4 ≤ x)

/-- The effective address WRAP64(nA + SEXT(IMM24, 64)). -/
def effective (o : CoreForm) (a : Word) : Nat := (a + simm o).toNat

/-- The alignment and address traps of a load or store (07 R224). -/
def State.addressFault (s : State) (a n align : Nat) : Option Trap :=
  if a % align != 0 then some { cause := 0x07, i0 := BitVec.ofNat 64 a }
  else match s.localFault s.cur.unit s.bank a n with
    | some 0x04 => some { cause := 0x04, i1 := s.me.slotWord }
    | some k => some { cause := k, i0 := BitVec.ofNat 64 a }
    | none => none

/-- A local read is checked for errors as it is made. -/
def State.scrubLocal (s : State) (u a n : Nat) : State :=
  if isBank u a || isMailbox u a then s.scrub (agentOf s.cur.unit s.bank) (windowPA u a) n else s

/-- A store of the context that waits for its grant will write the whole word at a local address (07 R220, R224). -/
def Ctx.overwrites (x : Ctx) (w : Nat) : Bool :=
  x.accesses.any fun e => match e with
    | .store a n _ _ => decide (a ≤ w) && decide (w + 8 ≤ a + n)
    | .load .. => false

/-- The data error of a read of a bank of unit `u`: a poisoned word that no older store is to write first (07 R220). -/
def State.poisonRead (s : State) (u a n : Nat) : Option Trap :=
  if s.poison.isEmpty then none
  else ((wordsTouching (windowPA u a) n).find? fun w =>
    s.poisoned w && !(u == s.cur.unit && s.me.overwrites (w % 2 ^ 22))).map fun w => dataError 0 (w % 2 ^ 22)

/-- A local access of the acting core: its address is checked, then, where it reads (`merge` marks a read, or a write narrower
than a word), the stored words: the state with what was found, and the trap. -/
def State.localAccess (s : State) (a n align : Nat) (merge : Bool) : State × Option Trap :=
  let u := s.cur.unit
  match s.addressFault a n align with
  | some t => (s, some t)
  | none =>
    if merge && (isBank u a || isMailbox u a) then
      let s := s.scrubLocal u a n
      (s, s.poisonRead u a n)
    else (s, none)

/-- The local reads of the 16-byte pieces of a request of `n` bytes, which lies at a multiple of `align`: what they find, and
the first trap that they raise. -/
def State.requestAccess (s : State) (a n align : Nat) : State × Option Trap :=
  if a % align != 0 then (s, some { cause := 0x07, i0 := BitVec.ofNat 64 a })
  else (List.range (n / 16)).foldl (fun r i => match r with
    | (s, none) => s.localAccess (a + 16 * i) 16 1 true
    | r => r) (s, none)

/-- An instruction reads its request of `n` bytes at local address `a` in its issue cycle, under a bank grant, after the
context's older accesses (07 R205, R224; 10 R318, 11 R333). -/
def withRequest (a n align : Nat) (s m : State) (k : State → Nat → CoreRes) : CoreRes :=
  match s.requestAccess a n align with
  | (s, some t) => .fail s t
  | (s, none) =>
    let u := m.cur.unit
    if !m.me.accesses.isEmpty then .wait 5 s
    else match (if isBank u a then m.grant u (bankOf a) else some m) with
      | none => .wait 5 s
      | some m => k (m.scrubLocal u a n) (m.windowRead u a n)

/-- A KIND 3 trace entry of the core (14 R408). -/
def State.traceAccess (s : State) (kind a : Nat) : State :=
  s.traceEvent s.cur.unit 3 0 s.bank (BitVec.ofNat 64 (kind * 2 ^ 52 + a % 2 ^ 51))

/-- A loaded value. -/
def loaded (signed : Bool) (n v : Nat) : Word := if signed then sext v (8 * n) else BitVec.ofNat 64 v

/-- A load that has passed its checks waits for its grant; one into s2 holds the core until then (04 R102). -/
def State.queueLoad (m : State) (u a n : Nat) (signed pair : Bool) (d : Nat) : CoreRes :=
  let m := m.traceAccess 0 a
  let m := m.modMe fun x => { x with accesses := x.accesses ++ [.load u a n signed pair d m.cycle] }
  if d = 2 then .late m { at_ := none }
  else
    let regs := ((if pair then [d, d + 1] else [d]).filter (· != 0)).map CoreDest.sreg
    .done (m.modMe fun x => { x with busy := regs ++ x.busy })

/-- A load of `n` bytes from local address `a` into s`d` (two registers if `pair`). -/
def loadInto (a n : Nat) (signed pair : Bool) (d : Nat) (s m : State) : CoreRes :=
  match s.localAccess a n n true with
  | (s, some t) => .fail s t
  | (_, none) => (m.scrubLocal m.cur.unit a n).queueLoad m.cur.unit a n signed pair d

/-- The registers of a load. -/
def loadSpec (o : CoreForm) (pair : Bool) : CoreSpec :=
  { reads := [(o.a.toNat, o.la)]
    writes := if pair then [.sreg o.d.toNat, .sreg (o.d.toNat + 1)] else [.sreg o.d.toNat]
    lat := 3 }

/-- LD (07 R224). -/
def execLd (o : CoreForm) (s : State) : Host.Outcome State Fault Refusal :=
  coreInstr o (loadSpec o false) (fun s m vs =>
    loadInto (effective o (nth vs 0)) (sizeOf o.x.toNat) (sizeSigned o.x.toNat) false o.d.toNat s m) s

/-- LDP (07 R224). -/
def execLdp (o : CoreForm) (s : State) : Host.Outcome State Fault Refusal :=
  coreInstr o (loadSpec o true) (fun s m vs =>
    loadInto (effective o (nth vs 0)) 16 false true o.d.toNat s m) s

/-- Why a sibling read is refused (07 R213): the bank is not SHARED, or its owner is of another job. -/
def State.siblingFault (s : State) (u a n : Nat) : Bool :=
  let t := s.tile u
  decide (0x180000 < a + n) || inSpill t.dual a n || t.role (bankOf a) != 1
    || (s.ctx u (t.bankOwner (bankOf a))).jobId != s.me.jobId

/-- LDX (07 R213, R224). -/
def execLdx (o : CoreForm) (s : State) : Host.Outcome State Fault Refusal :=
  coreInstr o { loadSpec o false with compute := true } (fun s m vs =>
    let a := effective o (nth vs 0)
    let n := sizeOf o.x.toNat
    let u := sibling s.cur.unit (o.b.toNat % 16)
    if a % n != 0 then .trap { cause := 0x07, i0 := BitVec.ofNat 64 a } none
    else if s.siblingFault u a n then .trap { cause := 0x08, i0 := BitVec.ofNat 64 a } none
    else
      let s := s.scrubLocal u a n
      match s.poisonRead u a n with
      | some t => .fail s t
      | none => (m.scrubLocal u a n).queueLoad u a n (sizeSigned o.x.toNat) false o.d.toNat) s

/-- A store to a bank register: 8 bytes, legal fields (07 R208). -/
def bankStoreLegal (steward : Bool) (n : Nat) (v : Word) : Bool :=
  n == 8 && v.extractLsb' 16 48 == 0 && v.extractLsb' 1 3 == 0 && roleLegal steward (v.extractLsb' 8 3).toNat
    && decide ((v.extractLsb' 12 4).toNat ≤ 11)

/-- A store of the low `n` bytes of `v` to local address `a`. -/
def storeTo (a n : Nat) (v : BitVec 128) (s m : State) : CoreRes :=
  match s.localAccess a n n (decide (n < 8)) with
  | (s, some t) => .fail s t
  | (_, none) =>
    let atRegister := decide (0x2D0000 ≤ a)
    if atRegister && !bankStoreLegal (isSteward s.cur.unit) n (v.extractLsb' 0 64) then s.badOperand
    else if atRegister && s.me.phend then .wait 8 s
    else .done (((if n < 8 then m.scrubLocal m.cur.unit a n else m).traceAccess 1 a).modMe fun x => { x with accesses := x.accesses ++ [.store a n v m.cycle] })

/-- ST (07 R224). -/
def execSt (o : CoreForm) (s : State) : Host.Outcome State Fault Refusal :=
  coreInstr o { reads := [(o.a.toNat, o.la), (o.b.toNat, o.lb)] } (fun s m vs =>
    storeTo (effective o (nth vs 0)) (sizeOf o.x.toNat) ((nth vs 1).setWidth 128) s m) s

/-- STP (07 R224). -/
def execStp (o : CoreForm) (s : State) : Host.Outcome State Fault Refusal :=
  coreInstr o { reads := [(o.a.toNat, o.la), (o.b.toNat, o.lb), (o.b.toNat + 1, o.lb)] } (fun s m vs =>
    storeTo (effective o (nth vs 0)) 16 (nth vs 2 ++ nth vs 1) s m) s

/-! ### The grant of a waiting access -/

/-- A load takes its value, which lands two cycles later; one into s2 is ready a cycle before (04 R102). -/
def State.landLoad (s : State) (reader : Nat) (c : Bool) (u a n : Nat) (signed pair : Bool) (d : Nat) : State :=
  let land := fun (s : State) (r : Nat) (v : Word) =>
    s.schedule (s.cycle + 2) (.pipelinedResultWrite reader c (.sreg r) v 0 0)
  if d = 2 then
    s.modCtx reader c fun x => { x with late := x.late.map fun l => { l with
      at_ := some (s.cycle + 1), v := loaded signed (if pair then 8 else n) (s.windowRead u a (if pair then 8 else n))
      second := if pair then some (BitVec.ofNat 64 (s.windowRead u (a + 8) 8)) else none } }
  else if pair then
    land (land s d (BitVec.ofNat 64 (s.windowRead u a 8))) (d + 1) (BitVec.ofNat 64 (s.windowRead u (a + 8) 8))
  else land s d (loaded signed n (s.windowRead u a n))

/-- The oldest access of the context at unit `u` leaves its queue; a release waits for one store less (13 R375). -/
def State.popAccess (s : State) (u : Nat) (c : Bool) : State :=
  s.modCtx u c fun x => { x with
    accesses := x.accesses.tail
    ops := if x.accesses.head?.any (·.isStore) then x.ops.map fun o => { o with stores := o.stores - 1 } else x.ops }

/-- The control core of unit `u` asks for its oldest access, which is granted no earlier than the cycle after issue; a
sibling read is granted at the end of the cycle (07 R205, R224). -/
def State.serveAccess (s : State) (u : Nat) (c : Bool) : State :=
  match (s.ctx u c).accesses with
  | .load v a n signed pair d at_ :: _ =>
    if v != u || s.cycle ≤ at_ then s
    else if !isBank u a then (s.landLoad u c v a n signed pair d).popAccess u c
    else match s.grant u (bankOf a) with
      | some s => (s.landLoad u c v a n signed pair d).popAccess u c
      | none => s
  | .store a n v at_ :: _ =>
    if s.cycle ≤ at_ then s
    else if !isBank u a then
      (if 0x2D0000 ≤ a then s.mod u fun t => t.bankPut (isSteward u) (a % 0x10000 / 8) false (v.extractLsb' 0 64)
       else s.windowWrite u a n false v.toNat).popAccess u c |>.drainOps u c
    else match s.grant u (bankOf a) with
      | some s => ((s.storePA (windowPA u a) n v.toNat).popAccess u c).drainOps u c
      | none => s
  | [] => s

/-- At the end of a cycle a sibling read takes the bank if nothing else did, or shares the read of its granule (07 R205
rank 4, R213). -/
def State.serveSibling (s : State) (u : Nat) (c : Bool) : State :=
  match (s.ctx u c).accesses with
  | .load v a n signed pair d at_ :: _ =>
    let t := s.tile v
    if v = u ∨ s.cycle ≤ at_ ∨ (t.granted.contains (bankOf a) ∧ t.cast.contains (a / 64) = false) then s
    else
      let s := s.mod v fun t => { t with granted := bankOf a :: t.granted, cast := a / 64 :: t.cast }
      (s.landLoad u c v a n signed pair d).popAccess u c
  | _ => s

end Sys2Proof.Machine
end

