-- ==== Sys2Proof/Machine/Rows.lean ====
section
/-!
DEFINITION. Row conversion, the row buffers of the banks, and which bytes of the scratchpad a strip may touch (03 R84 to
R86; 07 R206, R207, R210, R211).
-/
namespace Sys2Proof.Machine

/-! ### What a strip may touch (07 R203, R207) -/

/-- The roles whose banks the own strips may read and write. -/
def stripRole (role : Nat) : Bool := role == 0 || role == 1 || role == 2 || role == 4

/-- The banks that [a, a + n) touches. -/
def banksOf (a n : Nat) : List Nat := (List.range ((a + n + 65535) / 65536 - a / 65536)).map (a / 65536 + ·)

/-- The own strips of the acting context may touch [a, a + n) of the scratchpad. -/
def State.stripMay (s : State) (a n : Nat) : Bool :=
  let t := s.here
  decide (a + n ≤ 0x180000) && (banksOf a n).all fun b =>
    t.bankOwner b == s.bank && stripRole (t.role b) && !(t.dual && decide (max a (b * 65536 + 0xC800) < min (a + n) (b * 65536 + 65536)))

/-- A local-address trap of a strip. -/
def localTrap (a : Nat) (i1 : Nat := 0) (i2 : Nat := 0) (i3 : Nat := 0) : Trap :=
  { cause := 0x08, i0 := BitVec.ofNat 64 a, i1 := BitVec.ofNat 64 i1, i2 := BitVec.ofNat 64 i2, i3 := BitVec.ofNat 64 i3 }

/-! ### Formats of banks (07 R210) -/

/-- A bank format: floating-point, or a signed integer of a width. -/
inductive BankFmt where
  | float (f : Fmt)
  | int (n : Nat)

/-- The format of a code; 0 is RAW. -/
def bankFmt (c : Nat) : Option BankFmt :=
  match c with
  | 1 => some (.float fp32)
  | 2 => some (.float bf16)
  | 3 => some (.float fp16)
  | 4 => some (.float e4m3)
  | 5 => some (.float e5m2)
  | 6 => some (.float e3m2)
  | 7 => some (.float e2m3)
  | 8 => some (.float e2m1)
  | 9 => some (.int 32)
  | 10 => some (.int 16)
  | 11 => some (.int 8)
  | _ => none

/-- Bits of an element of a format code; a RAW element counts 32, a row of 768 B. -/
def fmtBits (c : Nat) : Nat :=
  match bankFmt c with
  | some (.float f) => f.width
  | some (.int n) => n
  | none => 32

/-- Bytes of a row converted from `src` to `dst` (07 R211). -/
def rowLength (src dst : Nat) : Nat := 24 * fmtBits (if dst != 0 then dst else src)

/-- Whether a row is converted rather than copied (07 R211). -/
def converts (src dst : Nat) : Bool := src != 0 && dst != 0 && src != dst

/-- Element `l` of a row of elements of `w` bits (03 R77). -/
def rowElement (r w l : Nat) : Nat := bits r (w * l) w

/-- The exact value of an element. -/
def elementValue (c v : Nat) : Val :=
  match bankFmt c with
  | some (.float f) => f.value v
  | some (.int n) => .ofInt (signedOf v n)
  | none => .num false 0 0 false

/-- One element converted (03 R84, R85, 07 R211): by RNE, integers narrowing with saturation. -/
def convertRowElement (src dst : Nat) (strict : Bool) (v : Nat) : Res :=
  match bankFmt src, bankFmt dst with
  | some (.float f), some (.float g) => convert f g 0 0 strict v
  | some (.float f), some (.int n) => toInteger true n 0 0 (f.value v)
  | some (.int n), some (.float g) => g.round 0 0 (.ofInt (signedOf v n)) strict
  | some (.int n), some (.int k) => saturate true k (signedOf v n)
  | _, _ => { bits := v }

/-- What a row's conversion gives: the row, flags, clamped elements, and the first element that traps. -/
structure RowCalc where
  row : Nat := 0
  flags : BitVec 7 := 0
  sat : Nat := 0
  first : Option Nat := none

/-- A result put at element `l` of width `w`. -/
def RowCalc.put (a : RowCalc) (x : Ctx) (w l : Nat) (r : Res) : RowCalc where
  row := a.row + r.bits % 2 ^ w * 2 ^ (w * l)
  flags := a.flags ||| r.flags
  sat := a.sat + r.sat
  first := if a.first.isNone && x.stops r then some l else a.first

/-- A row converted from `src` to `dst`, or copied (07 R211). -/
def convertRow (x : Ctx) (src dst r : Nat) : RowCalc :=
  if converts src dst then
    (List.range lanes).foldl (fun a l =>
      a.put x (fmtBits dst) l (convertRowElement src dst (x.mode.getLsbD 1) (rowElement r (fmtBits src) l))) {}
  else { row := r % 2 ^ (8 * rowLength src dst) }

/-- The first-NaN or strict-conversion trap of a row (03 R95, 07 R227). -/
def State.rowNanTrap (s : State) (i2 : Nat) : Trap :=
  { cause := 0x0A, i0 := BitVec.ofNat 64 s.cur.eng, i1 := gridWord s.cur.unit, i2 := BitVec.ofNat 64 i2 }

/-- The flags and the count of a row that is complete `after` cycles from now join the pending ones (04 R125, 05 R139). -/
def State.rowFlags (s : State) (after : Nat) (c : RowCalc) : State := s.owes after c.flags 0 0 c.sat

/-! ### Row buffers (07 R206) -/

/-- A bank takes a row into its buffer in this cycle, under a grant of its own: it is empty, or its last 64 B drain in this cycle
(07 R205, R206). -/
def Tile.bufferFree (t : Tile) (b : Nat) : Bool := decide (t.rowBuf.look 0 b ≤ 64) && !t.granted.contains b

/-- A row that leaves its FIFO in this cycle can enter the buffer of bank `b` two cycles on, if no access holds up the drain: no row
is under way there, and what the buffer holds drains by then (07 R206, R227). -/
def Tile.bufferReady (t : Tile) (b : Nat) : Bool :=
  decide (t.rowBuf.look 0 b ≤ if t.granted.contains b then 128 else 192) && t.rowsDue.all fun r => bankOf r.addr != b

/-- A row write of unit `u` granted to its bank: its bytes are read from then on, and wait in the buffer. Words that carry poison in
`bad` are poisoned. -/
def State.writeRow (s : State) (u a n v : Nat) (bad : Nat) : State :=
  let b := bankOf a
  let s := s.storePA (windowPA u a) n v
  let s := if bad = 0 then s else
    (List.range (n / 8)).foldl (fun s i => if bad.testBit i then s.setPoison (windowPA u a + 8 * i) else s) s
  s.mod u fun t => { t with rowBuf := t.rowBuf.put b n, granted := b :: t.granted }

/-- The row in a bank's buffer is one of engine `e` (09 R287). -/
def State.rowBy (s : State) (u b e : Nat) : State := s.mod u fun t => { t with rowFrom := t.rowFrom.put b e }

/-- A row due by now enters its bank, ahead of every other access of the cycle (07 R205), unless its buffer still drains. -/
def State.landRow (s : State) (u : Nat) (r : RowDue) : State :=
  if r.at_ ≤ s.cycle ∧ (s.tile u).bufferFree (bankOf r.addr) = true then
    ((s.mod u fun t => { t with rowsDue := t.rowsDue.erase r }).writeRow u r.addr r.len r.data r.bad).rowBy u (bankOf r.addr) 4
  else s

/-- The rows of a unit that are due. -/
def State.landRows (s : State) (u : Nat) : State := (s.tile u).rowsDue.foldl (fun s r => s.landRow u r) s

/-- The trap of a row at scratchpad address `a` (07 R211): its base, its bank, the bank's role. -/
def State.rowTrap (s : State) (a : Int) (n : Nat) : Option Trap :=
  if a < 0 then some { cause := 0x08, i0 := BitVec.ofInt 64 a }
  else
    let a := a.toNat
    if a % 32 != 0 then some { cause := 0x07, i0 := BitVec.ofNat 64 a }
    else if 0x180000 ≤ a || bankOf a != bankOf (a + n - 1) || !s.stripMay a n then some (localTrap a)
    else none

end Sys2Proof.Machine
end

