-- ==== Sys2Proof/Machine/Descriptors.lean ====
section
/-!
DEFINITION. Access descriptors: their fields, their element addresses, their cursors, and when an instruction may use one
(09 R270 to R274).
-/
namespace Sys2Proof.Machine

/-- Bits of a descriptor: `n` bytes from byte `i` on. -/
def descField (d : BitVec 2048) (i n : Nat) : Nat := bits d.toNat (8 * i) (8 * n)

/-- BASE (09 R271). -/
def descBase (d : BitVec 2048) : Nat := descField d 0 8
/-- NDIM (09 R271). -/
def descDims (d : BitVec 2048) : Nat := descField d 8 1
/-- SPACE (09 R271). -/
def descSpace (d : BitVec 2048) : Nat := descField d 9 1
/-- SIB (09 R271). -/
def descSib (d : BitVec 2048) : Nat := bits d.toNat 80 4
/-- PACK (09 R271). -/
def descPack (d : BitVec 2048) : Nat := descField d 11 1
/-- ELEN (09 R271). -/
def descElen (d : BitVec 2048) : Nat := descField d 12 2
/-- STRIDE of dimension `i` (09 R271). -/
def descStride (d : BitVec 2048) (i : Nat) : Int := signedOf (descField d (16 + 12 * i) 8) 64
/-- COUNT of dimension `i` (09 R271). -/
def descCount (d : BitVec 2048) (i : Nat) : Nat := descField d (24 + 12 * i) 4

/-- The dimensions in use have 1 to 16 places and no count of 0: the descriptor is valid (09 R273). -/
def descValid (d : BitVec 2048) : Bool :=
  decide (1 ≤ descDims d) && decide (descDims d ≤ 16) && (List.range (descDims d)).all fun i => descCount d i != 0

/-- A descriptor that SDESC loads (09 R271, R273). -/
def descLegal (d : BitVec 2048) : Bool :=
  descValid d && decide (descSpace d ≤ 2) && bits d.toNat 84 4 == 0 && descField d 14 2 == 0 && descField d 208 48 == 0
    && bits (descBase d) (if descSpace d = 2 then 51 else 21) 43 == 0
    && decide (1 ≤ descPack d) && decide (descPack d ≤ 192) && decide (1 ≤ descElen d) && decide (descElen d ≤ 768)
    && decide (descPack d * descElen d ≤ 768)

/-- P: the product of the counts, capped at 2^64 (09 R272). -/
def descPeriod (d : BitVec 2048) : Nat :=
  min (2 ^ 64) ((List.range (descDims d)).foldl (fun p i => p * descCount d i) 1)

/-- Sum of the strides for the remaining dimensions. -/
def descWalk (d : BitVec 2048) : Nat → Nat → Nat → Int → Int
  | 0, _, _, a => a
  | n + 1, i, r, a => descWalk d n (i + 1) (r / descCount d i) (a + (r % descCount d i : Nat) * descStride d i)

/-- The address of element `e` (09 R272). -/
def descAddr (d : BitVec 2048) (e : Nat) : Int := descWalk d (descDims d) 0 (e % descPeriod d) (descBase d)

/-- Descriptor `k` of the acting context. -/
def State.desc (s : State) (k : Nat) : BitVec 2048 := s.me.desc.look 0 k

/-- Its cursor. -/
def State.cursor (s : State) (k : Nat) : Nat := s.me.dcur.look 0 k

/-- The cursor of a descriptor set, modulo P (09 R272). -/
def State.setCursor (s : State) (k v : Nat) : State :=
  s.modMe fun x => { x with dcur := x.dcur.put k (v % descPeriod (s.desc k)) }

/-- The cursor advanced by `n` elements. -/
def State.advance (s : State) (k n : Nat) : State := s.setCursor k (s.cursor k + n)

/-- Window offset of descriptor `k`. -/
def descOffset (c : Bool) (k : Nat) : Nat := 0x2B4000 + c.toNat * 0x10000 + 0x100 * k

/-- Window offset of its cursor. -/
def cursorOffset (c : Bool) (k : Nat) : Nat := 0x2B5000 + c.toNat * 0x10000 + 8 * k

/-- A descriptor and its cursor are checked as they are read (09 R291). -/
def State.scrubDesc (s : State) (k : Nat) : State :=
  if s.flips.isEmpty then s
  else
    let at_ := fun (off : Nat) => windowPA s.cur.unit off
    (s.scrub (agentOf s.cur.unit s.bank) (at_ (descOffset s.bank k)) 256).scrub (agentOf s.cur.unit s.bank) (at_ (cursorOffset s.bank k)) 8

/-- The first word of a descriptor, or its cursor, that is poisoned. -/
def State.badDesc (s : State) (k : Nat) : Option Nat :=
  if s.poison.isEmpty then none
  else (s.firstPoison (windowPA s.cur.unit (descOffset s.bank k)) 256).orElse fun _ =>
    s.firstPoison (windowPA s.cur.unit (cursorOffset s.bank k)) 8

/-- What keeps an instruction from using descriptor `k`: it waits for an SDESC, traps on one that is not valid (09 R273), or
on an uncorrectable word of it (09 R291). -/
def State.descStop (s : State) (k : Nat) : Option StripRes :=
  if s.cycle < s.me.dready.look 0 k then some (.wait 6 0 s)
  else
    let m := s.scrubDesc k
    match m.badDesc k with
    | some w => some (.trap m (dataError 1 (w % 2 ^ 22)) none)
    | none => if !descValid (s.desc k) then some (.trap s s.operandTrap none) else none

/-- The cause of a scratchpad element of `n` bytes at an address for the own strip, if it faults (09 R272, 07 R207). -/
def State.badLocal (s : State) (a : Int) (n : Nat) : Bool := a < 0 || !s.stripMay a.toNat n

/-- SDESC (09 R273): 4 cy. -/
def execSdesc (h : StripHead) (o : AXForm) (s : State) : Host.Outcome State Fault Refusal :=
  let k := o.ds.toNat
  let a := o.imm.toNat * 64
  stripOnce h inCompute (fun s =>
    if s.cycle < s.me.dready.look 0 k then .wait 6 0 s
    else if a % 256 != 0 then .trap s { cause := 0x07, i0 := BitVec.ofNat 64 a } none
    else if !s.stripMay a 256 then .trap s (localTrap a) none
    else match s.grant s.cur.unit (bankOf a) with
      | none => .wait 5 0 s
      | some s =>
        let pa := windowPA s.cur.unit a
        let s := s.scrub (agentOf s.cur.unit s.bank) pa 256
        match s.firstPoison pa 256 with
        | some w => .trap s (dataError 1 (w % 2 ^ 22)) none
        | none =>
          let d := BitVec.ofNat 2048 (s.loadPA pa 256)
          if !descLegal d then .trap s s.operandTrap none
          else
            let m := ((s.cleanSpan s.cur.unit (descOffset s.bank k) 256).cleanSpan s.cur.unit (cursorOffset s.bank k) 8).modMe fun x =>
              { x with desc := x.desc.put k d, dcur := x.dcur.put k 0, dready := x.dready.put k (s.cycle + 4) }
            .done (m.drainsAt (s.cycle + 4))) s

/-- SSKIP (09 R274). -/
def execSskip (h : StripHead) (o : AXForm) (s : State) : Host.Outcome State Fault Refusal :=
  let k := o.ds.toNat
  let n := o.imm.toNat * 2048 + o.cnt.toNat
  stripOnce h inCompute (fun s =>
    match s.descStop k with
    | some r => r
    | none => .done (if o.aux.getLsbD 0 then s.setCursor k n else s.advance k n)) s

end Sys2Proof.Machine
end

