-- ==== Sys2Proof/Machine/Access.lean ====
section
/-!
DEFINITION. The instructions of the access strip that feed rows to the data FIFOs and copy rows (07 R205, R213, R225; 09
R275 to R277). A micro-step of a feed goes on cycle by cycle: its FIFO entry is reserved, and its row gathered in the
strip's first held entry.
-/
namespace Sys2Proof.Machine

/-! ### Granules -/

/-- Bytes of an entry: `n` bytes of unit `u` from offset `a` on, or `n` zero bytes. -/
inductive Piece where
  | bytes (u a n : Nat)
  | zero (n : Nat)
  /-- `n` bytes that are read and bring nothing into the entry -/
  | index (u a n : Nat)
deriving DecidableEq, Repr

/-- The 64-B granules of a piece, by unit and granule number. -/
def Piece.granules : Piece → List (Nat × Nat)
  | .bytes u a n => (List.range ((a + n + 63) / 64 - a / 64)).map fun i => (u, a / 64 + i)
  | .zero _ => []
  | .index u a n => (List.range ((a + n + 63) / 64 - a / 64)).map fun i => (u, a / 64 + i)

/-- The granules of an entry, each once, in the order of first use. -/
def granulesOf (ps : List Piece) : List (Nat × Nat) :=
  ps.foldl (fun gs p => p.granules.foldl (fun gs g => if gs.contains g then gs else gs ++ [g]) gs) []

/-- Granules of the bank of `g` that come before it. -/
def bankRank (gs : List (Nat × Nat)) (g : Nat × Nat) : Nat :=
  ((gs.takeWhile (· != g)).filter fun k => k.1 == g.1 && k.2 / 1024 == g.2 / 1024).length

/-- The granules that an entry draws in its cycle `j`, one from each bank. -/
def drawnAt (gs : List (Nat × Nat)) (j : Nat) : List (Nat × Nat) := gs.filter fun g => bankRank gs g == j

/-- The largest number of granules from one bank, at least 1 (09 R275). -/
def feedCycles (gs : List (Nat × Nat)) : Nat := gs.foldl (fun n g => max n (bankRank gs g + 1)) 1

/-- One granule granted in this cycle: over the multicast path a granule that is read already costs no grant (07 R213). -/
def State.grantGranule (s : State) (cast : Bool) (g : Nat × Nat) : Option State :=
  if cast && (s.tile g.1).cast.contains g.2 then some s
  else (s.grant g.1 (g.2 / 1024)).map fun s => if cast then s.mod g.1 fun t => { t with cast := g.2 :: t.cast } else s

/-- All of some granules granted in this cycle. -/
def State.grantAll (s : State) (cast : Bool) : List (Nat × Nat) → Option State
  | [] => some s
  | g :: gs =>
    match s.grantGranule cast g with
    | none => none
    | some s => s.grantAll cast gs

/-- The part of an entry, and its poisoned 64-bit words, that comes from granule `g`; the piece starts at byte `at_`. -/
def State.partOf (s : State) (g : Nat × Nat) (at_ : Nat) : Piece → Nat × Nat
  | .zero _ => (0, 0)
  | .index .. => (0, 0)
  | .bytes u a n =>
    let lo := max a (64 * g.2)
    let hi := min (a + n) (64 * g.2 + 64)
    if u != g.1 || hi ≤ lo then (0, 0)
    else
      let from_ := at_ + (lo - a)
      let bad := if s.poison.isEmpty then 0
        else ((List.range (hi - lo)).filter fun i => s.poisoned (windowPA u (lo + i))).foldl
          (fun m i => m ||| 2 ^ ((from_ + i) / 8)) 0
      (s.loadPA (windowPA u lo) (hi - lo) * 2 ^ (8 * from_), bad)

/-- Length of a piece. -/
def Piece.length : Piece → Nat
  | .bytes _ _ n => n
  | .zero n => n
  | .index .. => 0

/-- What some granules bring into an entry. -/
def State.gather (s : State) (gs : List (Nat × Nat)) (ps : List Piece) : Nat × Nat :=
  (ps.foldl (fun (acc : Nat × Nat × Nat) p =>
    let part := gs.foldl (fun (q : Nat × Nat) g =>
      let r := s.partOf g acc.1 p
      (q.1 ||| r.1, q.2 ||| r.2)) (acc.2.1, acc.2.2)
    (acc.1 + p.length, part.1, part.2)) (0, 0, 0)).2

/-! ### One micro-step of a feed (09 R275, R277) -/

/-- What a feed's entry needs: its pieces and addresses for the trace, or what stops it. -/
inductive Plan where
  | stop (r : StripRes)
  | entry (s : State) (cast : Bool) (ps : List Piece) (addrs : List Nat)

/-- The reserved last entry of a FIFO filled. -/
def fillLast (row : Row) (bad : BitVec 96) (ready : Nat) : List FifoEntry → List FifoEntry
  | [] => []
  | [e] => [{ e with row := row, bad := bad, ready := ready, filled := true }]
  | e :: es => e :: fillLast row bad ready es

/-- The FIFO after its reserved last entry has been filled. -/
def Fifo.fillTail (f : Fifo) (row : Row) (bad : BitVec 96) (ready : Nat) : Fifo :=
  { f with entries := fillLast row bad ready f.entries, ring := f.ring.put ((f.head + (f.entries.length - 1)) % 16) row }

/-- Trace entries of access-strip elements (14 R408). -/
def State.traceElements (s : State) (kind : Nat) (addrs : List Nat) : State :=
  if s.here.trace.ctl.getLsbD 3 then
    addrs.foldl (fun s a => s.traceEvent s.cur.unit 3 1 s.bank (BitVec.ofNat 64 (kind * 2 ^ 52 + a % 2 ^ 51))) s
  else s

/-- One cycle of a feed of `n` entries into FIFO `f`: `plan` is made as the micro-step starts and anew, with the same
outcome, in each of its cycles; `finish` moves the cursor. -/
def feed (f n : Nat) (plan : State → Plan) (finish : State → State) (s : State) : StripRes :=
  let start := s.strip.spent == 0
  if start && !(s.fifo s.cur.unit f).hasRoom s.cycle then .wait 4 f s
  else match plan s with
    | .stop r => r
    | .entry s cast ps addrs =>
      let u := s.cur.unit
      let s := if start then
          ((s.modFifo u f fun q => q.push { row := 0, filled := false }).modMyStrip fun t =>
            { t with spent := 1, held := [{ row := 0 }] }).traceElements 0 addrs
        else s
      let gs := granulesOf ps
      let j := s.strip.spent - 1
      let drawn := drawnAt gs j
      match s.grantAll cast drawn with
      | none => .wait 5 0 s
      | some s =>
        let s := drawn.foldl (fun s g => s.scrub (agentOf u s.bank) (windowPA g.1 (64 * g.2)) 64) s
        let (v, bad) := s.gather drawn ps
        let held := (s.strip.held.head?).getD { row := 0 }
        let row := held.row ||| BitVec.ofNat 6144 v
        let bad := held.bad ||| BitVec.ofNat 96 bad
        if j + 1 < feedCycles gs then
          .part (s.modMyStrip fun t => { t with spent := t.spent + 1, held := [{ row := row, bad := bad }] })
        else
          let s := (s.modFifo u f fun q => q.fillTail row bad (s.cycle + 6)).entryStored u f ((s.fifo u f).entries.length - 1)
          let s := (finish s).drainsAt (s.cycle + 6)
          if s.strip.ust + 1 < n then .micro s 1 else .done s

/-- The unit whose scratchpad SPACE 0 or 1 of a descriptor names. -/
def State.descUnit (s : State) (d : BitVec 2048) : Nat := if descSpace d = 1 then sibling s.cur.unit (descSib d) else s.cur.unit

/-- Whether [a, a + n) of the scratchpad that `cast` and `u` name may not be read (09 R272, 07 R207, R213). -/
def State.badFeed (s : State) (cast : Bool) (u : Nat) (a : Int) (n : Nat) : Bool :=
  if cast then a < 0 || decide (0x180000 < a.toNat + n) || (banksOf a.toNat n).any fun b =>
    let t := s.tile u
    inSpill t.dual (max a.toNat (b * 65536)) (min (a.toNat + n) (b * 65536 + 65536) - max a.toNat (b * 65536)) || t.role b != 1
      || (s.ctx u (t.bankOwner b)).jobId != s.me.jobId
  else s.badLocal a n

/-- The trap of an element: address or index, descriptor, and the element's index within the instruction (09 R277). -/
def feedTrap (cause : Nat) (v : Int) (k i : Nat) : Trap :=
  { cause := cause, i0 := BitVec.ofInt 64 v, i1 := BitVec.ofNat 64 k, i3 := BitVec.ofNat 64 i }

/-- SRUN (09 R275). -/
def execSrun (h : StripHead) (o : AXForm) (s : State) : Host.Outcome State Fault Refusal :=
  let k := o.ds.toNat
  let n := o.cnt.toNat + 1
  let plan := fun (s : State) =>
    match s.descStop k with
    | some r => Plan.stop r
    | none =>
      let d := s.desc k
      if 2 ≤ descSpace d then .stop (.trap s s.operandTrap none)
      else
        let u := s.descUnit d
        let cast := descSpace d == 1
        let addrs := (List.range (descPack d)).map fun p => (p, descAddr d (s.cursor k + p))
        match addrs.find? fun e => s.badFeed cast u e.2 (descElen d) with
        | some (p, a) =>
          .stop (.trap s (feedTrap 0x08 a k (s.strip.ust * descPack d + p)) none)
        | none => .entry s cast (addrs.map fun e => .bytes u e.2.toNat (descElen d)) (addrs.map fun e => e.2.toNat)
  stripMany h inCompute (fun _ => n) (feed o.port.toNat n plan fun s => s.advance k (descPack (s.desc k))) s

/-- ALD and ALDM: rows of unit `u` from IMM16 × 64 on (09 R275). -/
def feedRows (h : StripHead) (o : AXForm) (cast : Bool) (unit : State → Nat) (s : State) : Host.Outcome State Fault Refusal :=
  let n := o.cnt.toNat + 1
  let plan := fun (s : State) =>
    let a := o.imm.toNat * 64 + 768 * s.strip.ust
    if s.badFeed cast (unit s) a 768 then Plan.stop (.trap s (localTrap a 16 0 s.strip.ust) none)
    else .entry s cast [.bytes (unit s) a 768] [a]
  stripMany h inCompute (fun _ => n) (feed o.port.toNat n plan id) s

/-- ALD (09 R275). -/
def execAld (h : StripHead) (o : AXForm) (s : State) : Host.Outcome State Fault Refusal := feedRows h o false (·.cur.unit) s

/-- ALDM (09 R275, 07 R213). -/
def execAldm (h : StripHead) (o : AXForm) (s : State) : Host.Outcome State Fault Refusal :=
  feedRows h o true (fun s => sibling s.cur.unit o.ds.toNat) s

/-- The 32-bit words of a number. -/
def words32 (v n : Nat) : List Nat := (List.range n).map fun i => bits v (32 * i) 32

/-- The indices of an AGATH entry: those that the first grant of the micro-step read, or, before it, those in memory now. -/
def State.gatherIndices (s : State) (u : Nat) (addrs : List Int) : List Nat :=
  if s.strip.spent ≤ 1 then addrs.map fun a => s.loadPA (windowPA u a.toNat) 4
  else words32 s.strip.carry.toNat addrs.length

/-- AGATH (09 R276): the index granules come first, and all of the indices are read at the first grant of the micro-step
(log entry 57). -/
def execAgath (h : StripHead) (o : AXForm) (s : State) : Host.Outcome State Fault Refusal :=
  let k := o.ds.toNat
  let j := (o.imm.extractLsb' 0 4).toNat
  let n := o.cnt.toNat + 1
  let plan := fun (s : State) =>
    match s.descStop k, s.descStop j with
    | some r, _ => Plan.stop r
    | none, some r => .stop r
    | none, none =>
      let dk := s.desc k
      let dj := s.desc j
      if descElen dk != 4 || decide (2 ≤ descSpace dk) || decide (2 ≤ descSpace dj) then .stop (.trap s s.operandTrap none)
      else
        let uk := s.descUnit dk
        let uj := s.descUnit dj
        let castK := descSpace dk == 1
        let castJ := descSpace dj == 1
        let pack := descPack dj
        let trap := fun (s : State) (v : Int) (p : Nat) => Plan.stop (.trap s (feedTrap 0x08 v k (s.strip.ust * pack + p)) none)
        let at_ := (List.range pack).map fun p => descAddr dk (s.cursor k + p)
        match (List.range pack).find? fun p => s.badFeed castK uk (descAddr dk (s.cursor k + p)) 4 with
        | some p => trap s (descAddr dk (s.cursor k + p)) p
        | none =>
          let fresh := decide (s.strip.spent ≤ 1)
          let s := if fresh then at_.foldl (fun s a => s.scrub (agentOf s.cur.unit s.bank) (windowPA uk a.toNat) 4) s else s
          match at_.find? fun a => fresh && s.poisoned (windowPA uk a.toNat) with
          | some a => .stop (.trap s (dataError 1 (a.toNat / 8 * 8) (s.strip.ust * 65536)) none)
          | none =>
            let xs := s.gatherIndices uk at_
            let rows := xs.map fun x => if x = 0xFFFFFFFF then none else some (x, descAddr dj x)
            match (rows.zip (List.range pack)).find? fun e => match e.1 with
                | none => false
                | some (x, a) => decide (descPeriod dj ≤ x) || s.badFeed castJ uj a (descElen dj) with
            | some (some (x, _), p) => trap s x p
            | _ =>
              let s := if fresh then
                  s.modMyStrip fun t => { t with carry := BitVec.ofNat 8192 (xs.foldr (fun x acc => x + 2 ^ 32 * acc) 0) }
                else s
              let ps := rows.map fun r => match r with
                | none => Piece.zero (descElen dj)
                | some (_, a) => .bytes uj a.toNat (descElen dj)
              -- the index granules count toward g and bring no bytes into the entry
              let ix := at_.map fun a => Piece.index uk a.toNat 4
              .entry s (castK || castJ) (ix ++ ps)
                (rows.filterMap fun r => r.map fun e => e.2.toNat)
  stripMany h inCompute (fun _ => n) (feed o.port.toNat n plan fun s => s.advance k (descPack (s.desc j))) s

/-! ### ACOPY (07 R225) -/

/-- One cycle of an ACOPY: 64 B of the row are read in each of its 12 cycles, and the row enters the row buffer in the last, or in a
later one that grants it. -/
def copyCycle (o : AXForm) (s : State) : StripRes :=
  let k := o.ds.toNat
  let n := o.cnt.toNat + 1
  match s.descStop k with
  | some r => r
  | none =>
    if descSpace (s.desc k) != 0 then .trap s s.operandTrap none
    else
      let u := s.cur.unit
      let t := s.here
      let src := descAddr (s.desc k) (s.cursor k)
      let from_ := t.fmt (bankOf src.toNat)
      let first := t.fmt (bankOf (o.imm.toNat * 64))
      let step := (rowLength from_ first + 31) / 32 * 32
      let dst := o.imm.toNat * 64 + s.strip.ust * step
      let into := t.fmt (bankOf dst)
      let len := 24 * fmtBits (if from_ != 0 then from_ else into)
      let out := rowLength from_ into
      match (if s.strip.spent = 0 then
          (match s.rowTrap src len with
            | some t => some t
            | none => s.rowTrap dst out) else none) with
      | some t => .trap s t none
      | none =>
        let j := s.strip.spent
        let s := if j = 0 then (s.modMyStrip fun t => { t with held := [{ row := 0 }] }).traceElements 0 [src.toNat] else s
        let reads := decide (64 * j < len) && decide (j < 12)
        match (if reads then s.grant u (bankOf src.toNat) else some s) with
        | none => .wait 5 0 s
        | some s' =>
          let lo := 64 * j
          let m := min 64 (len - lo)
          let pa := windowPA u (src.toNat + lo)
          let s' := if reads then s'.scrub (agentOf u s.bank) pa m else s'
          let held := (s.strip.held.head?).getD { row := 0 }
          let held := if reads then
              { held with
                row := held.row ||| BitVec.ofNat 6144 (s'.loadPA pa m * 2 ^ (8 * lo))
                bad := held.bad ||| BitVec.ofNat 96
                  (if s'.poison.isEmpty then 0 else maskOf (fun i => s'.poisoned (pa + 8 * i)) (m / 8) * 2 ^ (8 * j)) }
            else held
          if j < 11 then .part (s'.modMyStrip fun t => { t with spent := j + 1, held := [held] })
          else if !s'.here.bufferFree (bankOf dst) then .wait 5 0 (s'.modMyStrip fun t => { t with spent := 12, held := [held] })
          else if converts from_ into && held.bad != 0 then
            let i := ((List.range 96).find? held.bad.getLsbD).getD 0
            .trap s' (dataError 1 (src.toNat / 8 * 8 + 8 * i) (s.cursor k * 65536 + 64 * i / fmtBits from_)) none
          else
            let c := convertRow s'.me from_ into held.row.toNat
            let finish := fun (m : State) =>
              let m := (((m.rowFlags 0 c).writeRow u dst out c.row (if converts from_ into then 0 else held.bad.toNat)).rowBy u (bankOf dst) 1).advance k 1
              let m := m.drainsAt (m.cycle + 1)
              if m.strip.ust + 1 < n then StripRes.micro m 1 else .done m
            match c.first with
            | some l =>
              let t := s'.rowNanTrap l
              if s'.reports 0x0A then finish (s'.reportStrip t) else .trap s' t none
            | none => finish s'

/-- ACOPY (07 R225). -/
def execAcopy (h : StripHead) (o : AXForm) (s : State) : Host.Outcome State Fault Refusal :=
  stripMany h inCompute (fun _ => o.cnt.toNat + 1) (copyCycle o) s

end Sys2Proof.Machine
end

