-- ==== Sys2Proof/Machine/Translate.lean ====
section
/-!
DEFINITION. Translation of virtual addresses, the checks on physical ones, stamps, and the access of agents to device and
host memory (08 R229 to R238; 12 R343 to R350, R353).
-/
namespace Sys2Proof.Machine

/-! ### Kinds of access -/

/-- What an access does to memory (08 R237, 12 R346). -/
inductive AccessKind where
  | read
  | write
  | atomic
  | code
deriving DecidableEq, Repr

/-- The code of ctl.info2 in a memory-model exception (08 R238). -/
def AccessKind.code' : AccessKind → Nat
  | .write => 1
  | .atomic => 2
  | _ => 0

/-- A fault of an address: its cause, ctl.info1 where the rules give one, and the fields of the translation-fault record. -/
structure AddressFault where
  cause : Nat
  info1 : Nat := 0
  level : Nat := 0
  reason : Nat := 0
  entry : Word := 0
  /-- the physical address that an access may not name, which its trap gives (08 R230) -/
  named : Option Nat := none
  /-- the fault is one of 12 R347, which is recorded -/
  recorded : Bool := true
deriving DecidableEq, Repr

/-! ### Entries (12 R345, R346) -/

/-- Size of a page by its selector: 4 KiB, 64 KiB, 2 MiB, 8 MiB. -/
def pageSize (sz : Nat) : Nat :=
  match sz with
  | 0 => 4096
  | 1 => 65536
  | 2 => 2097152
  | _ => 8388608

/-- Bytes of a leaf table. -/
def tableSize (sz : Nat) : Nat := 8388608 / pageSize sz * 8

/-- V of an entry. -/
def entryValid (e : Word) : Bool := e.getLsbD 63

/-- A malformed level-1 entry. -/
def badTop (e : Word) : Bool := e.extractLsb' 40 23 != 0 || e.extractLsb' 0 18 != 0

/-- A malformed pointer entry of level 2. -/
def badPointer (e : Word) : Bool :=
  let sz := bits e.toNat 60 3
  e.extractLsb' 40 20 != 0 || e.extractLsb' 0 5 != 0 || bits e.toNat 5 35 * 32 % tableSize sz != 0

/-- A malformed leaf entry whose page has size selector `sz`. -/
def badLeaf (e : Word) (sz : Nat) : Bool :=
  let sp := bits e.toNat 53 2
  let frame := bits e.toNat 12 36 * 4096
  e.extractLsb' 48 5 != 0 || e.extractLsb' 10 2 != 0 || sp == 3 || (sp != 2 && bits e.toNat 0 10 != 0)
    || frame % pageSize sz != 0 || (sp != 1 && decide (2 ^ 40 ≤ frame)) || (e.getLsbD 55 && sp != 1) || (e.getLsbD 56 && sp == 1)

/-- The physical address of a leaf entry and an offset; the module's own device ID is local HBM (08 R230). -/
def leafPA (device : Nat) (e : Word) (off : Nat) : Nat :=
  let frame := bits e.toNat 12 36 * 4096
  match bits e.toNat 53 2 with
  | 1 => 2 ^ 52 + frame + off
  | 2 => if bits e.toNat 0 10 = device then frame + off else 2 * 2 ^ 52 + bits e.toNat 0 10 * 2 ^ 40 + frame + off
  | _ => frame + off

/-! ### The walk (12 R344) -/

/-- How a walk ends: a leaf entry with its size selector, or the level and reason of a fault and the entry read. -/
inductive Walk where
  | leaf (e : Word) (sz : Nat)
  | bad (level reason : Nat) (e : Word)
deriving DecidableEq, Repr

/-- Reading table entries: the value at an address, `none` if it is poisoned. -/
abbrev TableRead := Nat → Option Word

/-- The leaf table step below a valid pointer entry. -/
def walkLeaf (rd : TableRead) (va : Nat) (e2 : Word) : Walk :=
  let sz := bits e2.toNat 60 3
  match rd (bits e2.toNat 5 35 * 32 + 8 * (va % 8388608 / pageSize sz)) with
  | none => .bad 3 3 0
  | some e =>
    if !entryValid e then .bad 3 0 e
    else if bits e.toNat 60 3 != 0 || badLeaf e sz then .bad 3 1 e
    else .leaf e sz

/-- The step from a level-2 entry on. -/
def walkRegion (rd : TableRead) (va : Nat) (e2 : Word) : Walk :=
  if bits e2.toNat 60 3 = 3 then .leaf e2 3 else walkLeaf rd va e2

/-- The level-2 entry of a region, checked. -/
def readRegion (rd : TableRead) (va : Nat) (e1 : Word) : Walk ⊕ Word :=
  match rd (bits e1.toNat 18 22 * 2 ^ 18 + 8 * bits va 23 15) with
  | none => .inl (.bad 2 3 0)
  | some e =>
    let sz := bits e.toNat 60 3
    if !entryValid e then .inl (.bad 2 0 e)
    else if decide (4 ≤ sz) || (if sz = 3 then badLeaf e 3 else badPointer e) then .inl (.bad 2 1 e)
    else .inr e

/-- The level-1 entry of an address, checked. -/
def readTop (rd : TableRead) (root va : Nat) : Walk ⊕ Word :=
  match rd (root + 8 * bits va 38 13) with
  | none => .inl (.bad 1 3 0)
  | some e => if !entryValid e then .inl (.bad 1 0 e) else if badTop e then .inl (.bad 1 1 e) else .inr e

/-- The whole walk from the root. -/
def walkTables (rd : TableRead) (root va : Nat) : Walk :=
  match readTop rd root va with
  | .inl w => w
  | .inr e1 =>
    match readRegion rd va e1 with
    | .inl w => w
    | .inr e2 => walkRegion rd va e2

/-! ### TLBs and the walk caches (12 R348 to R350) -/

/-- The entry of a structure that covers an address. -/
def findEntry (es : List TlbEntry) (slot level va : Nat) : Option TlbEntry :=
  es.find? fun e => e.slot == slot && e.level == level && decide (e.va ≤ va) && decide (va < e.va + e.size)

/-- Add an entry to those of its level, of which at most `cap` are held; which one leaves is free (log entry 2). -/
def addEntry (es : List TlbEntry) (e : TlbEntry) (cap n : Nat) : List TlbEntry :=
  let same := es.filter (·.level == e.level)
  let es := if cap ≤ same.length then
      match same[n % cap]? with
      | some v => es.erase v
      | none => es
    else es
  es ++ [e]

/-- Table words read from HBM as it stands. -/
def State.tableRead (s : State) : TableRead := fun a => if s.poisoned a then none else some (BitVec.ofNat 64 (s.loadPA a 8))

/-- Table words read from a shadow. -/
def Shadow.tableRead (h : Shadow) : TableRead :=
  fun a => if (h.bad.find (a / 8 * 8)).isSome then none else some (BitVec.ofNat 64 (readBytes h.tables a 8))

/-- The translation of an address of a shadow's range: the entries that were cached, walked where they were not (12 R352). -/
def Shadow.walk (h : Shadow) (va : Nat) : Walk :=
  match findEntry h.cached h.slot 3 va with
  | some e => .leaf e.entry (if e.size = 4096 then 0 else if e.size = 65536 then 1 else 2)
  | none => match findEntry h.cached h.slot 2 va with
    | some e => walkRegion h.tableRead va e.entry
    | none => walkTables h.tableRead h.root va

/-- The translation register of a job: its slot and root address (12 R343). -/
def State.rootOf (s : State) (id : BitVec 32) : Option (Nat × Nat) :=
  ((List.range 8).find? fun j => (s.job j).root0.getLsbD 63 && (s.job j).root1.extractLsb' 0 32 == id).map fun j =>
    (j, ((s.job j).root0.extractLsb' 16 24).toNat * 65536)

/-- An entry kept by the walker of a die. -/
def State.cacheWalk (s : State) (die : Nat) (e : TlbEntry) : State :=
  let kept := addEntry (s.walkCache.look [] die) e (if e.level = 1 then 256 else 65536) (Config.freeNat s.fresh)
  { s with walkCache := s.walkCache.put die kept, fresh := s.fresh + 1 }

/-- An entry kept by the TLBs of a tile. -/
def State.cacheTlb (s : State) (u : Nat) (e : TlbEntry) : State :=
  (s.mod u fun t => { t with tlb := addEntry t.tlb e (if e.level = 2 then 64 else 512) (Config.freeNat s.fresh) }).used

/-- The region entry of an address through the walker of a die, with what it keeps. -/
def State.walkerRegion (s : State) (die slot root va : Nat) : State × (Walk ⊕ Word) :=
  match findEntry (s.walkCache.look [] die) slot 2 va with
  | some e => (s, .inr e.entry)
  | none =>
    let s := if s.dieMon.isEmpty then s else (s.dieSample die 12 0 (Config.walkLatency s.fresh)).used
    let (s, top) := match findEntry (s.walkCache.look [] die) slot 1 va with
      | some e => (s, Sum.inr e.entry)
      | none =>
        match readTop s.tableRead root va with
        | .inl w => (s, .inl w)
        | .inr e => (s.cacheWalk die { slot := slot, level := 1, va := va / 2 ^ 38 * 2 ^ 38, size := 2 ^ 38, entry := e }, .inr e)
    match top with
    | .inl w => (s, .inl w)
    | .inr e1 =>
      match readRegion s.tableRead va e1 with
      | .inl w => (s, .inl w)
      | .inr e =>
        (s.cacheWalk die { slot := slot, level := 2, va := va / 2 ^ 23 * 2 ^ 23, size := 2 ^ 23, entry := e }, .inr e)

/-- A walk for the access strip of tile `u`, through its TLBs and the walker of its die. -/
def State.walkTile (s : State) (u slot root va : Nat) : State × Walk :=
  let t := s.tile u
  match findEntry t.tlb slot 3 va with
  | some e => (s, .leaf e.entry (if e.size = 4096 then 0 else if e.size = 65536 then 1 else 2))
  | none =>
    let (s, region) := match findEntry t.tlb slot 2 va with
      | some e => (s, Sum.inr e.entry)
      | none =>
        match s.walkerRegion (dieOf u) slot root va with
        | (s, .inl w) => (s, .inl w)
        | (s, .inr e) =>
          (s.cacheTlb u { slot := slot, level := 2, va := va / 2 ^ 23 * 2 ^ 23, size := 2 ^ 23, entry := e }, .inr e)
    match region with
    | .inl w => (s, w)
    | .inr e2 =>
      match walkRegion s.tableRead va e2 with
      | .leaf e sz =>
        (if sz = 3 then s else
          s.cacheTlb u { slot := slot, level := 3, va := va / pageSize sz * pageSize sz, size := pageSize sz, entry := e }, .leaf e sz)
      | w => (s, w)

/-- The shadow among those ahead of which a command stands that covers an address: the oldest, whose marker came to its queue first
(12 R353). -/
def State.shadowFor (s : State) (ahead : List Nat) (slot va : Nat) : Option Shadow :=
  (ahead.reverse.filterMap s.shadows.find).find? fun h => h.slot == slot && decide (h.lo ≤ va) && decide (va < h.hi)

/-- The walk of an address for a command that is ahead of the markers of `ahead`; stewards walk through their die. -/
def State.walk (s : State) (u slot root : Nat) (ahead : List Nat) (va : Nat) : State × Walk :=
  match s.shadowFor ahead slot va with
  | some h => (s, h.walk va)
  | none =>
    if isSteward u then
      match s.walkerRegion (dieOf u) slot root va with
      | (s, .inl w) => (s, w)
      | (s, .inr e2) => (s, walkRegion s.tableRead va e2)
    else s.walkTile u slot root va

/-! ### Nuton windows and physical addresses (08 R229, R230, R232) -/

/-- Nuton windows that are in use and hold a host offset; each is its number and whether it is coherent. -/
def State.nutonAt (s : State) (off : Nat) : List (Nat × Bool) :=
  (List.range 16).filterMap fun w =>
    let w0 := s.nuton.look 0 (2 * w)
    let size := (s.nuton.look 0 (2 * w + 1)).extractLsb' 0 36
    let base := (w0.extractLsb' 12 36).toNat * 4096
    if w0.getLsbD 63 && decide (base ≤ off) && decide (off < base + size.toNat * 4096) then some (w, w0.getLsbD 62) else none

/-- The fault of a physical address for an agent, if any: ctl.info1 of the permission trap. -/
def State.badPA (s : State) (steward : Bool) (pa : Nat) : Option Nat :=
  match pa / 2 ^ 52 with
  | 0 => if bits pa 40 12 != 0 then some 1 else none
  | 1 =>
    if bits pa 48 4 != 0 then some 1
    else if (s.nutonAt (pa % 2 ^ 48)).length = 1 then none else some 4
  | 2 => if bits pa 50 2 != 0 then some 1 else if 576 ≤ bits pa 40 10 then some 2 else none
  | 0xE => if bits pa 32 20 != 0 || decide (784 ≤ bits pa 22 10) then some 1 else none
  | 0xF => if bits pa 32 20 != 0 then some 1 else if steward then none else some 3
  | _ => some 1

/-- A physical address with the module's own device written as local HBM (08 R230). -/
def State.ownPA (s : State) (pa : Nat) : Nat := if pa / 2 ^ 52 = 2 ∧ bits pa 40 10 = s.device then pa % 2 ^ 40 else pa

/-! ### Translation with its checks (12 R346, R347) -/

/-- A translated address: physical, tracked, host-coherent, size selector of its page. -/
structure Place where
  pa : Nat
  tracked : Bool
  hc : Bool := false
  sz : Nat := 0
deriving DecidableEq, Repr

/-- A leaf entry permits an access. -/
def permits (e : Word) : AccessKind → Bool
  | .read => e.getLsbD 59
  | .write => e.getLsbD 58
  | .atomic => e.getLsbD 59 && e.getLsbD 58
  | .code => e.getLsbD 57

/-- The address that the trap of a fault gives: the physical one where that is what may not be named (08 R230), else `va`. -/
def AddressFault.address (f : AddressFault) (va : Int) : Int := match f.named with
  | some pa => pa
  | none => va

/-- The checks after a complete walk. -/
def State.checkLeaf (s : State) (kind : AccessKind) (va : Nat) (e : Word) (sz : Nat) : AddressFault ⊕ Place :=
  let pa := leafPA s.device e (va % pageSize sz)
  let fault := fun (i r : Nat) (at_ : Option Nat) (rec : Bool) =>
    (.inl { cause := 0x11, info1 := i, reason := r, entry := e, named := at_, recorded := rec } : AddressFault ⊕ Place)
  if !permits e kind then fault 0 2 none true
  else if e.getLsbD 55 && (s.nutonAt (pa % 2 ^ 48)).any (fun w => !w.2) then fault 4 4 none true
  else if e.getLsbD 55 && (s.nutonAt (pa % 2 ^ 48)).isEmpty then fault 4 4 (some pa) true
  else match s.badPA false pa with
    | some 2 => fault 2 5 (some pa) true
    | some i => fault i 0 (some pa) false
    | none => .inr { pa := s.ownPA pa, tracked := e.getLsbD 56, hc := e.getLsbD 55, sz := sz }

/-- Translate a virtual address of a job for unit `u` (12 R343 to R347). -/
def State.translate (s : State) (u : Nat) (id : BitVec 32) (ahead : List Nat) (kind : AccessKind) (va : Nat) :
    State × (AddressFault ⊕ Place) :=
  match s.rootOf id with
  | none => (s, .inl { cause := 0x10, level := 1 })
  | some (slot, root) =>
    match s.walk u slot root ahead va with
    | (s, .bad level reason e) =>
      (s, .inl { cause := if reason = 3 then 0x13 else 0x10, level := level, reason := reason, entry := e })
    | (s, .leaf e sz) => (s, s.checkLeaf kind va e sz)

/-- The translation-fault record of a context (12 R347). -/
def State.recordFault (s : State) (u : Nat) (c : Bool) (va : Nat) (f : AddressFault) : State :=
  if isSteward u || !f.recorded then s else
    s.modCtx u c fun x => { x with
      tfault0 := BitVec.ofNat 64 (2 ^ 63 + f.level * 2 ^ 60 + f.reason * 2 ^ 56 + va % 2 ^ 51), tfault1 := f.entry }

/-! ### Stamps (08 R235 to R237) -/

/-- The stamp of a line; empty where none is listed. -/
def State.stamp (s : State) (line : Nat) : BitVec 32 := s.stamps.look 0xFFD line

/-- A stamp stored in canonical form. -/
def State.setStamp (s : State) (line : Nat) (v : BitVec 32) : State :=
  { s with stamps := if v = 0xFFD then s.stamps.del line else s.stamps.put line v }

/-- PH and AG as a stamp. -/
def mkStamp (ph agent : Nat) : BitVec 32 := BitVec.ofNat 32 (ph % 2 ^ 20 * 4096 + agent % 4096)

/-- Whether a line's stamp conflicts with an access by agent `x` in phase `p` (08 R237). -/
def conflicts (st : BitVec 32) (x p : Nat) (kind : AccessKind) : Bool :=
  let ag := bits st.toNat 0 12
  let outside := ag == x || ag == 0xFFD || ag == 0xFFF || (decide (0x600 ≤ ag) && decide (ag ≤ 0x60F))
  !outside && bits st.toNat 12 20 == p % 2 ^ 20 && !(kind == .atomic && ag == 0xFFE)

/-- The lines that [pa, pa + n) touches. -/
def linesOf (pa n : Nat) : List Nat := (List.range ((pa + n + 63) / 64 - pa / 64)).map (pa / 64 + ·)

/-- The fault of a stamp found (08 R238). -/
def stampFault (st : BitVec 32) : AddressFault := { cause := 0x12, info1 := st.toNat, recorded := false }

/-- The fault that the stamps of the lines of an access to local HBM raise, if any: the memory-model exception, or the data error
of a poisoned stamp (08 R231, R237, R259). A write of the whole line replaces a poisoned stamp. -/
def State.stampConflict (s : State) (tracked : Bool) (x p : Nat) (kind : AccessKind) (pa n : Nat) : Option AddressFault :=
  if tracked && decide (pa < 2 ^ 40) && x != 0xFFF && !(decide (0x600 ≤ x) && decide (x ≤ 0x60F)) then
    (linesOf pa n).findSome? fun l =>
      if s.badLine (64 * l) then
        if kind == .write && (linesWithin pa n).contains l then none else some { cause := 0x13, recorded := false }
      else if conflicts (s.stamp l) x p kind then some (stampFault (s.stamp l)) else none
  else none

/-- The stamps that an access leaves (08 R237): a tracked write or atomic stamps, an untracked write empties. -/
def State.stampLines (s : State) (tracked : Bool) (x p : Nat) (kind : AccessKind) (pa n : Nat) : State :=
  if 2 ^ 40 ≤ pa then s
  else
    let v := if !tracked then some (0xFFD : BitVec 32)
      else if x = 0xFFF ∨ (0x600 ≤ x ∧ x ≤ 0x60F) then some (mkStamp 0 x)
      else if kind = .atomic then some (mkStamp p 0xFFE) else some (mkStamp p x)
    match kind, v with
    | .read, _ => s
    | .code, _ => s
    | _, some v => (linesOf pa n).foldl (fun s l => s.setStamp l v) s
    | _, none => s

/-! ### Data of device and host memory (08 R231, R233) -/

/-- Who makes an access: its agent value and the phase it acts in. -/
structure Actor where
  agent : Nat
  phase : Nat
deriving DecidableEq, Repr

/-- The actor that a context is at its own module. -/
def State.actor (s : State) (u : Nat) (c : Bool) : Actor := { agent := agentOf u c, phase := s.phaseOf u c }

/-- Where a physical address lies: this module's HBM or the host's memory, which the model holds, or elsewhere. -/
def isHeld (pa : Nat) : Bool := decide (pa < 2 ^ 53)

/-- The mask of poisoned bytes among the `n` from a physical address on. -/
def State.poisonMask (s : State) (pa n : Nat) : Nat := if s.poison.isEmpty then 0 else maskOf (fun i => s.poisoned (pa + i)) n

/-- The words that hold the bytes of a mask become poisoned. -/
def State.poisonBytes (s : State) (pa n bad : Nat) : State :=
  if bad = 0 then s else (List.range n).foldl (fun s i => if bad.testBit i then s.setPoison (pa + i) else s) s

/-- A device write to a coherent Nuton window invalidates the host's copies of the line (08 R233). -/
def State.tellHost (s : State) (pa : Nat) : State :=
  if 2 ^ 52 ≤ pa ∧ pa < 2 ^ 53 ∧ (s.nutonAt (pa % 2 ^ 48)).any (·.2) then s.emit (.invalidateHost (pa % 2 ^ 48 / 64)) else s

/-- A read of `n` bytes of memory at its place, or the stamp that forbids it. The value comes with the mask of its poisoned
bytes. Memory of a peer returns a free value (log entry 2). -/
def State.readPlace (s : State) (a : Actor) (p : Place) (n : Nat) : State × (AddressFault ⊕ (Nat × Nat)) :=
  let s := if isHeld p.pa then s.scrub a.agent p.pa n else s
  match s.stampConflict p.tracked a.agent a.phase .read p.pa n with
  | some f => (s, .inl f)
  | none =>
    if isHeld p.pa then
      let s := if p.pa < 2 ^ 40 && !s.dieMon.isEmpty then
          (s.dieSample (p.pa / 2 ^ 38) 8 (p.pa / 256 % 4) (Config.memoryLatency s.fresh)).used else s
      (s, .inr (s.loadPA p.pa n, s.poisonMask p.pa n))
    else (s.used, .inr ((Config.freeRow s.fresh).toNat % 2 ^ (8 * n), 0))

/-- A write of `n` bytes with the mask of those that carry poison, or the stamp that forbids it. Writes to a peer leave the
module. -/
def State.writePlace (s : State) (a : Actor) (p : Place) (n v bad : Nat) : State × Option AddressFault :=
  let s := if isHeld p.pa then s.scrub a.agent p.pa n else s
  match s.stampConflict p.tracked a.agent a.phase .write p.pa n with
  | some f => (s, some f)
  | none =>
    if isHeld p.pa then
      let s := (s.storePA p.pa n v (some a.agent)).stampLines p.tracked a.agent a.phase .write p.pa n
      ((s.tellHost p.pa).poisonBytes p.pa n bad, none)
    else (s.emit (.peerWrite (bits p.pa 40 10) (p.pa % 2 ^ 40) n (BitVec.ofNat 6144 v)), none)

/-- A virtual address out of range (09 R272). -/
def badVirtual : AddressFault := { cause := 0x10 }

/-- A read of `n` bytes of virtual memory of job `id` by actor `a` at unit `u`, page by page. -/
def State.readJob (s : State) (u : Nat) (id : BitVec 32) (a : Actor) (ahead : List Nat) (kind : AccessKind) :
    Nat → Int → Nat → State × (AddressFault ⊕ (Nat × Nat))
  | 0, _, _ => (s, .inr (0, 0))
  | fuel + 1, va, n =>
    if va < 0 ∨ 2 ^ 51 ≤ va then (s, .inl badVirtual)
    else
      match s.translate u id ahead kind va.toNat with
      | (s, .inl f) => (s, .inl f)
      | (s, .inr p) =>
        let k := min n (pageSize p.sz - va.toNat % pageSize p.sz)
        match s.readPlace a p k with
        | (s, .inl f) => (s, .inl f)
        | (s, .inr (v, bad)) =>
          if k = n then (s, .inr (v, bad))
          else
            match s.readJob u id a ahead kind fuel (va + k) (n - k) with
            | (s, .inl f) => (s, .inl f)
            | (s, .inr (w, bad')) => (s, .inr (v + w * 2 ^ (8 * k), bad ||| bad' * 2 ^ k))

/-- A read of `n` bytes of virtual memory of its job for context `c` of unit `u`. -/
def State.readVirtual (s : State) (u : Nat) (c : Bool) (ahead : List Nat) (kind : AccessKind) (fuel : Nat) (va : Int) (n : Nat) :
    State × (AddressFault ⊕ (Nat × Nat)) :=
  s.readJob u (s.ctx u c).jobId (s.actor u c) ahead kind fuel va n

/-- A write of `n` bytes of virtual memory of job `id` that lie in one page. -/
def State.writeJob (s : State) (u : Nat) (id : BitVec 32) (a : Actor) (ahead : List Nat) (va : Int) (n v bad : Nat) :
    State × Option AddressFault :=
  if va < 0 ∨ 2 ^ 51 ≤ va then (s, some badVirtual)
  else
    match s.translate u id ahead .write va.toNat with
    | (s, .inl f) => (s, some f)
    | (s, .inr p) =>
      s.writePlace a p n v bad

/-- A write of `n` bytes of virtual memory that lie in one page, for context `c` of unit `u`. -/
def State.writeVirtual (s : State) (u : Nat) (c : Bool) (ahead : List Nat) (va : Int) (n v bad : Nat) :
    State × Option AddressFault :=
  s.writeJob u (s.ctx u c).jobId (s.actor u c) ahead va n v bad

end Sys2Proof.Machine
end

