-- ==== Sys2Proof/Machine/Streams.lean ====
section
/-!
DEFINITION. Background streams, prefetch and probe: their instructions, the granule that the memory port issues, and their
completion (09 R278 to R285; 12 R354, R355).
-/
namespace Sys2Proof.Machine

/-! ### Issue -/

/-- The counter that AUX names (09 R279). -/
def sigOf (o : AXForm) : Option Nat := if o.aux.getLsbD 3 then some (o.aux.toNat % 4) else none

/-- A free entry of the stream queue of the acting context. -/
def Ctx.freeStream (x : Ctx) : Option Nat := (List.range 16).find? fun k => (x.streams.find k).isNone

/-- A stream enters entry `k`. -/
def State.issueStream (s : State) (k : Nat) (o : AXForm) (t : Stream) : State :=
  let (s, op) := s.newOp s.cur.unit s.bank 1 (sigOf o) false true true
  s.modMe fun x => { x with
    streams := x.streams.put k { t with aux := o.aux.toNat, ds := o.ds.toNat, cnt := o.cnt.toNat, op := op } }

/-- [a, a + n) lies in banks of the acting context whose roles satisfy `ok`. -/
def State.streamBanks (s : State) (a n : Nat) (ok : Nat → Bool) : Bool :=
  let t := s.here
  decide (a + n ≤ 0x180000) && (banksOf a n).all fun b =>
    t.bankOwner b == s.bank && ok (t.role b) && !(t.dual && decide (max a (b * 65536 + 0xC800) < min (a + n) (b * 65536 + 65536)))

/-- A stream over dK: its checks at issue, a free entry, its copy of dK; the cursor moves on (09 R279, R280). -/
def streamInstr (h : StripHead) (o : AXForm) (kind : Nat) (bad : State → BitVec 2048 → Option Trap) (s : State) :
    Host.Outcome State Fault Refusal :=
  let k := o.ds.toNat
  let n := o.cnt.toNat + 1
  stripOnce h inCompute (fun s =>
    match s.descStop k with
    | some r => r
    | none =>
      match bad s (s.desc k) with
      | some t => .trap s t none
      | none =>
        match s.me.freeStream with
        | none => .wait 7 0 s
        | some e =>
          let t : Stream := { kind := kind, start := s.cursor k, imm := o.imm.toNat, desc := s.desc k }
          .done ((s.issueStream e o t).advance k n)) s

/-- BGIN (09 R279). -/
def execBgin (h : StripHead) (o : AXForm) (s : State) : Host.Outcome State Fault Refusal :=
  streamInstr h o 0 (fun s d =>
    if descSpace d != 2 then some s.operandTrap
    else if !s.streamBanks (o.imm.toNat * 64) ((o.cnt.toNat + 1) * descElen d) (· == 3) then some (localTrap (o.imm.toNat * 64))
    else none) s

/-- BGOUT (09 R279). -/
def execBgout (h : StripHead) (o : AXForm) (s : State) : Host.Outcome State Fault Refusal :=
  streamInstr h o 1 (fun s d =>
    if descSpace d != 2 then some s.operandTrap
    else if !s.streamBanks (o.imm.toNat * 64) ((o.cnt.toNat + 1) * descElen d) stripRole then some (localTrap (o.imm.toNat * 64))
    else none) s

/-- BGCODE (09 R279, R285). -/
def execBgcode (h : StripHead) (o : AXForm) (s : State) : Host.Outcome State Fault Refusal :=
  streamInstr h o 3 (fun s d => if descSpace d != 2 || descElen d != 64 then some s.operandTrap else none) s

/-- Window offset of mailbox `k` of the access strip. -/
def accessMailbox (c : Bool) (k : Nat) : Nat := 0x2B5100 + c.toNat * 0x10000 + 8 * k

/-- BGFILL (09 R279). -/
def execBgfill (h : StripHead) (o : AXForm) (s : State) : Host.Outcome State Fault Refusal :=
  let k := o.ds.toNat % 8
  stripOnce h inCompute (fun s =>
    let pa := windowPA s.cur.unit (accessMailbox s.bank k)
    let s := s.scrub (agentOf s.cur.unit s.bank) pa 8
    if !s.streamBanks (o.imm.toNat * 64) ((o.cnt.toNat + 1) * 768) (· == 3) then .trap s (localTrap (o.imm.toNat * 64)) none
    else if s.poisoned pa then .trap s (dataError 1 (pa % 2 ^ 22)) none
    else match s.me.freeStream with
      | none => .wait 7 0 s
      | some e => .done (s.issueStream e o { kind := 2, imm := o.imm.toNat, value := s.me.access.mailbox.look 0 k })) s

/-- TPREF (12 R354): it takes a stream-queue entry and runs in the background. -/
def execTpref (h : StripHead) (o : AXForm) (s : State) : Host.Outcome State Fault Refusal :=
  let k := o.ds.toNat
  stripOnce h inCompute (fun s =>
    match s.descStop k with
    | some r => r
    | none =>
      if descSpace (s.desc k) != 2 then .trap s s.operandTrap none
      else match s.me.freeStream with
        | none => .wait 7 0 s
        | some e =>
          let m := s.issueStream e o { kind := 4, start := s.cursor k, desc := s.desc k }
          .done ((m.schedule (m.cycle + Config.walkLatency m.fresh) (.pageWalkComplete m.cur.unit m.bank (.prefetch e))).used)) s

/-- The key under which a running TPROBE into a mailbox notes the markers it is ahead of. -/
def probeKey (mailbox : Nat) : Nat := 16 + mailbox

/-- TPROBE (12 R355). -/
def execTprobe (h : StripHead) (o : AXForm) (s : State) : Host.Outcome State Fault Refusal :=
  let k := o.ds.toNat
  stripOnce h inCompute (fun s =>
    match s.descStop k with
    | some r => r
    | none =>
      if descSpace (s.desc k) != 2 then .trap s s.operandTrap none
      else
        let va := descAddr (s.desc k) (s.cursor k)
        let mb := o.aux.toNat % 8
        let at_ := s.cycle + Config.walkLatency s.fresh
        -- an address outside the virtual range is handed on as 2^51, which has no translation
        let va := if va < 0 ∨ 2 ^ 51 ≤ va then 2 ^ 51 else va.toNat
        let m := s.modMe fun x => { x with streams := x.streams.put (probeKey mb) { kind := 5 } }
        .done (((m.schedule at_ (.pageWalkComplete m.cur.unit m.bank
          (.query mb va (o.imm.extractLsb' 0 2).toNat))).used).drainsAt at_)) s

/-! ### The memory port (09 R278, R280, R281) -/

/-- A stream faults at its element: it stops, and its context's control core takes the cause (09 R281). -/
def State.streamFaults (s : State) (u : Nat) (c : Bool) (k : Nat) (va : Int) (f : AddressFault) : State :=
  let t := ((s.ctx u c).streams.find k).getD { kind := 0 }
  let s := (s.recordFault u c va.toNat f).modCtx u c fun x => { x with
    streams := x.streams.put k { t with state := 1, cause := f.cause } }
  s.pend u c { cause := f.cause, eng := 1, i0 := BitVec.ofInt 64 (f.address va),
               i1 := BitVec.ofNat 64 (if f.cause = 0x11 ∧ f.info1 ≠ 0 then f.info1 else t.ds)
               i2 := BitVec.ofNat 64 (0x100 + k), i3 := BitVec.ofNat 64 t.done, rank := 16 + k }

/-- Bytes that a granule moves at byte `sent` of an element at `va`: up to the next 64-B boundary or the element's end. -/
def granuleBytes (va : Int) (sent elen : Nat) : Nat := min (elen - sent) (64 - ((va + sent) % 64).toNat)

/-- A stream after `n` more bytes of an element of `elen` bytes. -/
def Stream.moved (t : Stream) (n elen : Nat) : Stream :=
  if t.sent + n < elen then { t with sent := t.sent + n } else { t with sent := 0, done := t.done + 1 }

/-- Length of an element of a stream. -/
def Stream.elen (t : Stream) : Nat := if t.kind = 2 then 768 else descElen t.desc

/-- The stream after a granule: complete once its last byte has moved. -/
def State.streamMoves (s : State) (u : Nat) (c : Bool) (k n : Nat) : State :=
  let t := (((s.ctx u c).streams.find k).getD { kind := 0 }).moved n
    (((s.ctx u c).streams.find k).getD { kind := 0 }).elen
  if t.cnt < t.done then
    let s := s.modCtx u c fun x => { x with streams := x.streams.put k { t with state := 2 } }
    -- its last byte is durable when every granule request has completed
    let at_ := (s.tile u).granules.foldl max (s.cycle + 1 + Config.memoryLatency s.fresh)
    (s.schedule at_ (.streamComplete u c k)).used
  else s.modCtx u c fun x => { x with streams := x.streams.put k t }

/-- A read of device memory is a sample of source 1 (13 R385). -/
def State.readSample (s : State) (u : Nat) : State :=
  if (s.tile u).mon.isEmpty then s else (s.sample u 1 (Config.memoryLatency s.fresh)).used

/-- The next granule of stream `k`. -/
def State.streamStep (s : State) (u : Nat) (c : Bool) (k : Nat) (t : Stream) : State :=
  let va := descAddr t.desc (t.start + t.done)
  let dst := windowPA u (t.imm * 64 + t.done * t.elen + t.sent)
  let n := granuleBytes va t.sent t.elen
  let s := if t.sent = 0 then s.traceEvent u 3 1 c (BitVec.ofNat 64 (4 * 2 ^ 52 + (va % (2 ^ 51 : Nat)).toNat)) else s
  match t.kind with
  | 0 =>
    match s.readVirtual u c t.ahead .read 1 (va + t.sent) n with
    | (s, .inl f) => s.streamFaults u c k (va + t.sent) f
    | (s, .inr (v, bad)) => ((s.readSample u).storePA dst n v |>.poisonBytes dst n bad).streamMoves u c k n
  | 1 =>
    let s := s.scrub (agentOf u c) dst n
    match s.writeVirtual u c t.ahead (va + t.sent) n (s.loadPA dst n) (s.poisonMask dst n) with
    | (s, some f) => s.streamFaults u c k (va + t.sent) f
    | (s, none) => s.streamMoves u c k n
  | 2 =>
    let pa := windowPA u (t.imm * 64 + t.done * 768 + t.sent)
    let v := (List.range 8).foldl (fun acc i => acc + t.value.toNat * 2 ^ (64 * i)) 0
    (s.storePA pa 64 v).streamMoves u c k 64
  | _ =>
    match s.readVirtual u c t.ahead .code 2 va 64 with
    | (s, .inl f) => s.streamFaults u c k va f
    | (s, .inr (v, bad)) =>
      let line := t.imm + t.done
      let pa := windowPA u (lineOffset line)
      let s := ((s.readSample u).storePA pa 64 v).poisonBytes pa 64 bad
      (s.mod u fun h => { h with tags := h.tags.put (line % 4096) (some (c, line)) }).streamMoves u c k 64

/-- Banks of the scratchpad bytes that the next granule of a stream reads or writes. -/
def Stream.banksNow (t : Stream) : List Nat :=
  if t.kind = 2 then banksOf (t.imm * 64 + t.done * 768 + t.sent) 64
  else if t.kind < 2 then
    banksOf (t.imm * 64 + t.done * t.elen + t.sent) (granuleBytes (descAddr t.desc (t.start + t.done)) t.sent t.elen)
  else []

/-- A granule request of the memory port is outstanding for the time of one access to memory (09 R278). -/
def State.requestGranule (s : State) (u : Nat) : State :=
  (s.mod u fun t => { t with granules := t.granules ++ [s.cycle + 1 + Config.memoryLatency s.fresh] }).used

/-- Streams of a tile that have a granule to move whose banks have granted nothing in this cycle: 16 for context B, plus the
entry (07 R205, 09 R278); none while 512 requests are outstanding. They stand while the context is frozen, but run on in a step
(09 R291). -/
def Tile.streamsReady (t : Tile) : List Nat :=
  if 512 ≤ t.granules.length then [] else
  let of := fun (c : Bool) =>
    let x := t.ctx c
    if x.frozen && t.stepping.isNone then [] else
      (x.streams.filter fun e => e.2.state == 0 && decide (e.2.kind < 4) && e.2.banksNow.all fun b => !t.granted.contains b).map
        fun e => 16 * c.toNat + e.1
  of false ++ of true

/-- STREAM_GRANULE (09 R278): the next stream in turn moves one granule, the last grant of its banks in the cycle (07 R205). -/
def execStreamGranule (u : Nat) (s : State) : Host.Outcome State Fault Refusal :=
  let t := s.tile u
  let ready := t.streamsReady
  .next <|
    match (match ready.find? (fun k => decide (t.lastServed < k)) with
      | some k => some k
      | none => ready.head?) with
    | none => s
    | some k =>
      let c := decide (16 ≤ k)
      match (s.ctx u c).streams.find (k % 16) with
      | none => s
      | some q =>
        let s := s.mod u fun t => { t with lastServed := k, granted := q.banksNow ++ t.granted }
        (if q.kind = 2 then s else s.requestGranule u).streamStep u c (k % 16) q

/-- STREAM_COMPLETE (09 R278): the last byte is durable; the entry frees when its counter has gained its one. -/
def execStreamComplete (u : Nat) (c : Bool) (k : Nat) (s : State) : Host.Outcome State Fault Refusal :=
  .next <|
    match (s.ctx u c).streams.find k with
    | some t => if t.state = 2 then s.opDone u c t.op else s
    | none => s

/-- A FAULTED stream runs again from its element (09 R281). -/
def State.retryStream (s : State) (u : Nat) (c : Bool) (k : Nat) : State :=
  s.modCtx u c fun x =>
    match x.streams.find k with
    | some t => if t.state = 1 then { x with streams := x.streams.put k { t with state := 0, cause := 0 } } else x
    | none => x

/-! ### Walks of TPREF and TPROBE (12 R349, R354, R355) -/

/-- The result word of TPROBE. -/
def probeWord : AddressFault ⊕ Place → Word
  | .inr p => fields [(1, 63), (p.sz, 60), (p.tracked.toNat, 59), (p.hc.toNat, 58), (p.pa, 0)]
  | .inl f => fields [(f.level, 60), (f.reason % 4, 56), (f.reason, 8), (f.cause, 0)]

/-- An address in each page that `n` bytes from `va` on may touch. -/
def pagePoints (va : Int) (n : Nat) : List Int :=
  va :: ((List.range (n / 4096 + 1)).map fun (i : Nat) => (va / 4096 + 1 + (i : Int)) * 4096).filter fun p => decide (p < va + n)

/-- One translation of a prefetch: a page that a read would fault on leaves nothing cached (12 R354). -/
def State.prefetch (s : State) (u slot root : Nat) (ahead : List Nat) (va : Int) : State :=
  if va < 0 ∨ 2 ^ 51 ≤ va then s
  else match s.walk u slot root ahead va.toNat with
    | (m, .leaf e sz) => match s.checkLeaf .read va.toNat e sz with
      | .inr _ => m
      | .inl _ => s
    | _ => s

/-- PAGE_WALK_COMPLETE (12 R349, R354, R355). -/
def execPageWalkComplete (u : Nat) (c : Bool) (w : WalkPurpose) (s : State) : Host.Outcome State Fault Refusal :=
  .next <|
    match w with
    | .prefetch entry =>
      match (s.ctx u c).streams.find entry with
      | none => s
      | some t =>
        let s := match s.rootOf (s.ctx u c).jobId with
          | none => s
          | some (slot, root) =>
            (List.range (t.cnt + 1)).foldl (fun s i =>
              (pagePoints (descAddr t.desc (t.start + i)) t.elen).foldl (fun s va => s.prefetch u slot root t.ahead va) s) s
        (s.modCtx u c fun x => { x with streams := x.streams.put entry { t with state := 2, done := t.cnt + 1 } }).opDone u c t.op
    | .query mb va kind =>
      let ahead := (((s.ctx u c).streams.find (probeKey mb)).getD { kind := 5 }).ahead
      let k : AccessKind := match kind with
        | 0 => .read
        | 1 => .write
        | 2 => .code
        | _ => .atomic
      let r := if 2 ^ 51 ≤ va then (s, .inl badVirtual) else s.translate u (s.ctx u c).jobId ahead k va
      let m := match r.2 with
        | .inl f => s.recordFault u c va { f with recorded := true }
        | .inr _ => r.1
      (m.modCtx u c fun x => { x with
        streams := x.streams.del (probeKey mb)
        access := { x.access with mailbox := x.access.mailbox.put mb (probeWord r.2) } }).clearPoison
        (windowPA u (accessMailbox c mb))

end Sys2Proof.Machine
end

