-- ==== Sys2Proof/Machine/Fabric.lean ====
section
/-!
DEFINITION. The packet plane at the sending side: packets as events, planes, the injection port, streams, packets kept until
they are acknowledged (10 R292 to R296, R300, R441).
-/
namespace Sys2Proof

/-- Flits of a packet (10 R292). -/
def Packet.flits (p : Packet) : Nat := (16 + 16 * p.len.toNat + 63) / 64

/-- Bytes [i, i + n) of a packet's payload. -/
def Packet.field (p : Packet) (i n : Nat) : Nat := Machine.bits p.payload.toNat (8 * i) (8 * n)

/-- DTILE names a tile, a steward or a service unit (10 R292). -/
def Packet.placed (p : Packet) : Bool := decide (p.dtile.toNat < 784) || decide (1020 ≤ p.dtile.toNat)

end Sys2Proof

namespace Sys2Proof.Machine

/-! ### Packets -/

/-- The context that a label names (10 R292). -/
def labelContext (label : Nat) : Bool := label.testBit 15

/-- The arrival of a packet, by its type (10 R293); one with a reserved type or DTILE, or too long, is dropped. -/
def arrival (link : Nat) (p : Packet) : Event :=
  if !p.placed || decide (16 < p.len.toNat) then .reservedTypePacket link p
  else match p.type.toNat with
    | 0x01 => .write p
    | 0x02 => .writem p
    | 0x03 => .read p
    | 0x04 => .rreply p
    | 0x05 => .cread p
    | 0x06 => .creply p
    | 0x07 => .rcount p
    | 0x08 => .rslot p
    | 0x09 => .atom p
    | 0x0A => .ares p
    | 0x0B => .red p
    | 0x0C => .ack p
    | 0x0D => .nack p
    | 0x0E => .probe p
    | 0x0F => .back p
    | 0x10 => .ready p
    | 0x11 => .fail p
    | 0x12 => .cmark p
    | 0x13 => .creport p
    | 0x14 => .fault p
    | 0x15 => .free p
    | 0x16 => .barrier p
    | 0x17 =>
      match p.field 4 1 with
      | 0 => .whistleFreeze p
      | 1 => .whistleResume p
      | _ => .whistleJobStep p
    | _ => .reservedTypePacket link p

/-- Header fields of a packet from a unit of this module. -/
def State.header (s : State) (type src ddev dtile label : Nat) : Packet where
  type := BitVec.ofNat 6 type
  sdev := BitVec.ofNat 10 s.device
  stile := BitVec.ofNat 10 src
  ddev := BitVec.ofNat 10 ddev
  dtile := BitVec.ofNat 10 dtile
  label := BitVec.ofNat 16 label

/-! ### Planes (10 R294, R323) -/

/-- A plane whose link at this end is usable. -/
def State.planeUp (s : State) (p : Nat) : Bool :=
  let st := (s.links.look {} p).state
  st == 1 || st == 2

/-- The first usable plane after plane `p`, wrapping after 71. -/
def State.planeAfter (s : State) (p : Nat) : Option Nat :=
  ((List.range 72).map fun i => (p + 1 + i) % 72).find? s.planeUp

/-! ### Sending -/

/-- No link: a packet of this module has come by none. -/
def noLink : Nat := 312

/-- The cycle in which a packet of this module that leaves at cycle `depart` arrives: after its transit, and not before an earlier
packet of its unit, whose accesses take effect in issue order (08 R239, R242). -/
def State.arrivesAt (s : State) (depart : Nat) (p : Packet) : Nat :=
  max (depart + 1 + Config.transit s.fresh) (if p.stile.toNat < 784 then (s.tile p.stile.toNat).lastIn else 0)

/-- A packet leaves at cycle `depart`: one for this module arrives there after its transit; one for another, or a barrier
flit, whose DDEV is a group, leaves by a plane. With no usable plane it is lost, and an ordered one is resent (10 R296); a RED packet
waits at the port of its barrier plane while that is not up (01 R36). -/
def State.carryPacket (s : State) (depart : Nat) (plane : Option Nat) (p : Packet) : State :=
  if p.ddev.toNat = s.device ∧ p.type ≠ 0x16 then
    let at_ := s.arrivesAt depart p
    let s := if p.stile.toNat < 784 then s.mod p.stile.toNat fun t => { t with lastIn := at_ } else s
    (s.schedule at_ (arrival noLink p)).used
  else match plane with
    | none => s
    | some q =>
      if p.type = 0x0B ∧ !s.planeUp q then { s with portWait := s.portWait ++ [(q, p)] }
      else
      -- the link-level acknowledgement of the packet measures its port (13 R385, source 9)
      (s.dieSample (q / 18) 9 (q % 18) (s.links.look {} q).lat).emit (.packet depart q p)

/-- A packet enters the injection port of unit `u`, at one flit per cycle (10 R300); while a step of a frozen tile runs it is
held at the egress (14 R405). -/
def State.inject (s : State) (u : Nat) (plane : Option Nat) (p : Packet) : State :=
  let t := s.tile u
  if t.stepping.isSome then s.mod u fun t => { t with heldOut := t.heldOut ++ [(plane, p)] }
  else
    let start := max s.cycle t.portFree
    let s := s.mod u fun t => { t with portFree := start + p.flits }
    s.carryPacket (start + p.flits - 1) plane p

/-- What waits at ports that are up again leaves. -/
def State.drainPorts (s : State) : State :=
  let go := fun (e : Nat × Packet) => s.planeUp e.1
  (s.portWait.filter go).foldl (fun s e => s.carryPacket s.cycle (some e.1) e.2)
    { s with portWait := s.portWait.filter fun e => !go e }

/-- An unordered packet of unit `u`. -/
def State.post (s : State) (u : Nat) (p : Packet) : State := s.inject u (s.planeAfter 71) p

/-- An unordered packet of a service unit. -/
def State.postService (s : State) (p : Packet) : State := s.carryPacket s.cycle (s.planeAfter 71) p

/-- The service unit of a die (10 R292). -/
def serviceUnit (die : Nat) : Nat := 0x3FC + die

/-- A packet is of a stream. -/
def TxStream.isFor (t : TxStream) (ddev dtile label : Nat) : Bool := t.ddev == ddev && t.dtile == dtile && t.label == label

/-- The sending side of a stream of unit `u`; a new one starts at sequence 0 (10 R294). -/
def State.txOf (s : State) (u ddev dtile label : Nat) : TxStream :=
  ((s.tile u).tx.find? (·.isFor ddev dtile label)).getD { ddev := ddev, dtile := dtile, label := label }

/-- A kept packet is of the stream (device, tile, label). -/
def Kept.isFor (k : Kept) (ddev dtile label : Nat) : Bool :=
  k.pkt.ddev.toNat == ddev && k.pkt.dtile.toNat == dtile && k.pkt.label.toNat == label

/-- Two packets are of one stream of their unit. -/
def Kept.sameStream (k q : Kept) : Bool := k.isFor q.pkt.ddev.toNat q.pkt.dtile.toNat q.pkt.label.toNat

/-- Room for `n` more packets in the retransmit buffer, and in the stream's window (10 R294, R296). -/
def Tile.room (t : Tile) (ddev dtile label n : Nat) : Bool :=
  decide (t.kept.length + n ≤ 512) && decide ((t.kept.filter (·.isFor ddev dtile label)).length + n ≤ 4096)

/-- An X-class transfer may send `n` more packets of a stream: there is room, and none waits for it (10 R294, R296). -/
def State.canSend (s : State) (u ddev dtile label n : Nat) : Bool :=
  let t := s.tile u
  t.waitOut.isEmpty && t.room ddev dtile label n

/-- An ordered packet of unit `u` takes its stream's next sequence and plane, leaves, and is kept until acknowledged (10 R294,
R296). -/
def State.launchOrdered (s : State) (u : Nat) (k : Kept) : State :=
  let p := k.pkt
  let tx := s.txOf u p.ddev.toNat p.dtile.toNat p.label.toNat
  let plane := s.planeAfter tx.plane
  let p := { p with seq := BitVec.ofNat 16 tx.seq }
  let tx' := { tx with seq := (tx.seq + 1) % 65536, plane := plane.getD tx.plane }
  let s := s.mod u fun t => { t with
    tx := t.tx.filter (fun q => !q.isFor tx.ddev tx.dtile tx.label) ++ [tx']
    kept := t.kept ++ [{ k with pkt := p, sentAt := s.cycle, places := [] }] }
  s.inject u plane p

/-- It leaves at once if there is room for it and no earlier packet of its stream waits; else it waits (10 R294, R296). -/
def State.launchOrWait (s : State) (u : Nat) (k : Kept) : State :=
  let t := s.tile u
  if t.room k.pkt.ddev.toNat k.pkt.dtile.toNat k.pkt.label.toNat 1 && !t.waitOut.any k.sameStream then s.launchOrdered u k
  else s.mod u fun t => { t with waitOut := t.waitOut ++ [k] }

/-- An ordered packet of unit `u` (10 R294, R296). `part`: it is a part of operation `op`. -/
def State.sendOrdered (s : State) (u : Nat) (k : Kept) (part : Bool) : State :=
  if part then (s.opPart u k.c k.op).launchOrWait u k else s.launchOrWait u { k with op := 0 }

/-- The packets of a tile that have waited for room leave, in order; those of a frozen context stay. -/
def State.launchWaiting (s : State) (u : Nat) : State :=
  let ks := (s.tile u).waitOut
  if ks.isEmpty then s
  else ks.foldl (fun s k =>
    if (s.ctx u k.c).frozen then s.mod u fun t => { t with waitOut := t.waitOut ++ [k] } else s.launchOrWait u k)
    (s.mod u fun t => { t with waitOut := [] })

/-- A kept packet is sent again on the stream's next plane. -/
def State.resend (s : State) (u : Nat) (p : Packet) : State :=
  let tx := s.txOf u p.ddev.toNat p.dtile.toNat p.label.toNat
  let plane := s.planeAfter tx.plane
  let turn := fun (q : TxStream) => if q.isFor tx.ddev tx.dtile tx.label then { q with plane := plane.getD q.plane } else q
  let s := s.mod u fun t => { t with tx := t.tx.map turn }
  s.inject u plane p

/-! ### Data packets (10 R293) -/

/-- A WRITE or WRITEM of `n` bytes from unit `off` of a slot on: a WRITE if they are whole 64-B units. -/
def dataPacket (head : Packet) (lslot off n v bad : Nat) (last : Bool) : Packet :=
  let p := { head with lslot := BitVec.ofNat 4 lslot, off := BitVec.ofNat 28 off, fL := last }
  if n % 64 = 0 then
    { p with type := 1, len := BitVec.ofNat 5 (n / 16), payload := BitVec.ofNat 2048 v, bad := BitVec.ofNat 32 bad }
  else
    { p with
      type := 2, len := BitVec.ofNat 5 (1 + (n + 15) / 16), payload := BitVec.ofNat 2048 (n + v * 2 ^ 128)
      bad := BitVec.ofNat 32 (bad * 4) }

/-- How the next bytes of a stream are packed: 256 B while there are as many, then a whole number of units or a WRITEM of at
most 240 B, or 192 B before one. `ended`: no more bytes come. 0: wait for more. -/
def nextLength (rest : Nat) (ended : Bool) : Nat :=
  if 256 ≤ rest then 256
  else if !ended then 0
  else if rest % 64 = 0 ∨ rest ≤ 240 then rest else 192

/-- The words of a byte mask that hold a marked byte. -/
def wordMask (bytes n : Nat) : Nat := maskOf (fun i => bits bytes (8 * i) 8 != 0) ((n + 7) / 8)

/-- The mask of the bytes of marked words. -/
def byteMaskOf (words n : Nat) : Nat := maskOf (fun i => words.testBit (i / 8)) n

/-! ### Acknowledgement at the sender (10 R296, R298) -/

/-- Sequence `q` is covered by a cumulative acknowledgement up to `last`. -/
def coveredBy (last q : Nat) : Bool := decide ((last + 65536 - q) % 65536 < 32768)

/-- The stream of kept packets has made progress. -/
def State.progress (s : State) (u ddev dtile label : Nat) : State :=
  s.mod u fun t => { t with kept := t.kept.map fun k => if k.isFor ddev dtile label then { k with age := 0 } else k }

/-- The frozen contexts' clocks pause (10 R296). -/
def State.frozenAt (s : State) (u : Nat) (c : Bool) : Bool := (s.ctx u c).frozen

/-- RETRANSMIT_TIMEOUT (10 R296): every kept packet of the stream is sent again. -/
def execRetransmitTimeout (u ddev dtile label : Nat) (s : State) : Host.Outcome State Fault Refusal :=
  let ks := (s.tile u).kept.filter (·.isFor ddev dtile label)
  .next (ks.foldl (fun s k => s.resend u k.pkt) (s.progress u ddev dtile label))

/-- A kept packet of a stream changed. -/
def State.modKept (s : State) (u ddev dtile label seq : Nat) (f : Kept → Kept) : State :=
  s.mod u fun t => { t with kept := t.kept.map fun k => if k.isFor ddev dtile label && k.pkt.seq.toNat == seq then f k else k }

/-- NACK_RETRY (10 R305): the refused packet is sent again, once its job runs. -/
def execNackRetry (u ddev dtile label seq : Nat) (s : State) : Host.Outcome State Fault Refusal :=
  .next <|
    match (s.tile u).kept.find? fun k => k.isFor ddev dtile label && k.pkt.seq.toNat == seq with
    | none => s
    | some k => if s.frozenAt u k.c then s else (s.modKept u ddev dtile label seq fun k => { k with retry := none }).resend u k.pkt

/-- NACK (10 R298): the packet is sent again after its retry-after, which a freeze pauses (10 R296). -/
def execNack (p : Packet) (s : State) : Host.Outcome State Fault Refusal :=
  let u := p.dtile.toNat
  let s := s.progress u p.sdev.toNat p.stile.toNat p.label.toNat
  .next (s.modKept u p.sdev.toNat p.stile.toNat p.label.toNat p.seq.toNat fun k => { k with retry := some (p.field 0 4) })

/-- A packet that no receiver takes is dropped and counted in its incoming link, if it has come by one (10 R292, R324). -/
def execReservedTypePacket (link : Nat) (_p : Packet) (s : State) : Host.Outcome State Fault Refusal :=
  let l := s.links.look {} link
  .next (if link < noLink then { s with links := s.links.put link { l with drop := cap32 (l.drop + 1) } } else s)

end Sys2Proof.Machine
end

