-- ==== Sys2Proof/Machine/Circuits.lean ====
section
/-!
DEFINITION. The circuit plane: paths and reservations, probes and their answers, flow meters, runs of beats and their
departures, teardown (10 R311 to R322; 12 R362, R363; 13 R380).
-/
namespace Sys2Proof.Machine

/-! ### Circuit IDs (12 R362) -/

/-- The circuit ID of a sender. -/
def circuitId (dev u : Nat) (src : CircuitSource) : BitVec 26 :=
  BitVec.ofNat 26 (dev * 65536 + u * 64 + (match src with
    | .meter k => k
    | .handle c h => 32 + 16 * c.toNat + h))

/-- What holds the circuit of an ID at its sender. -/
def circuitSource (cid : Nat) : CircuitSource :=
  if cid.testBit 5 then .handle (cid.testBit 4) (cid % 16) else .meter (cid % 16)

/-! ### Paths (10 R311, 12 R362) -/

/-- The die of a place in the grid of clusters. -/
def dieAtCluster (r c : Nat) : Nat := r / 3 * 2 + c / 4

/-- The pair of two neighbouring dies. -/
def diePair (a b : Nat) : Nat :=
  match min a b, max a b with
  | 0, 1 => 0
  | 0, _ => 1
  | 1, _ => 2
  | _, _ => 3

/-- The segment from one cluster to its neighbour. -/
def hop (r c r' c' : Nat) : Segment :=
  let d := dieAtCluster r c
  let d' := dieAtCluster r' c'
  if d = d' then .wire d (r % 3 * 4 + c % 4) (if c < c' then 1 else if c' < c then 3 else if r < r' then 2 else 0)
  else .sub (diePair d d') (decide (d < d'))

/-- The way from one cluster to another: along its row first, then along the column. -/
def pathFrom : Nat → Nat → Nat → Nat → Nat → List Segment
  | 0, _, _, _, _ => []
  | n + 1, r, c, r', c' =>
    if c != c' then
      let k := if c < c' then c + 1 else c - 1
      hop r c r k :: pathFrom n r k r' c'
    else if r != r' then
      let k := if r < r' then r + 1 else r - 1
      hop r c k c :: pathFrom n k c r' c'
    else []

/-- The path of segments between the clusters of two tiles. -/
def pathBetween (u v : Nat) : List Segment :=
  pathFrom 16 (rowOfTile u / 4) (colOfTile u / 4) (rowOfTile v / 4) (colOfTile v / 4)

/-- The path from tile `u` to tile `v`. -/
def pathIn (u v : Nat) : List Segment := pathBetween u v ++ [.port (dieOf v) (clusterOf v) (posOf v)]

/-- The tile beside fabric port `p`. -/
def portTile (p : Nat) : Nat := p / 18 * 192 + Config.portPlace p % 192

/-- The path from tile `u` to fabric port `p`: to the port's place, then the port. -/
def pathOut (u p : Nat) : List Segment := pathBetween u (portTile p) ++ [.fabric p]

/-- Cycles of a path within the module: one per tile hop and one per crosspoint (10 R311). -/
def pathCycles (u v : Nat) : Nat :=
  distance (rowOfTile u) (rowOfTile v) + distance (colOfTile u) (colOfTile v)
    + distance (rowOfTile u / 4) (rowOfTile v / 4) + distance (colOfTile u / 4) (colOfTile v / 4) + 1

/-! ### Reservations (12 R362, R363) -/

/-- Control-space offset of the first entry of a framed link's table. -/
def subTable (pair : Nat) (low : Bool) (sub : Nat) : Nat := 0x94000 + 0x2000 * pair + 0x80 * sub + (if low then 0 else 0x10000)
/-- See `subTable`. -/
def fabricTable (p : Nat) : Nat := 0x90000 + 0x80 * p
/-- Offset of a crosspoint's table. -/
def crossTable (die cluster : Nat) : Nat := 0x80000 + 0x100 * (12 * die + cluster)

/-- The number of a die-to-die sub-link among the module's links. -/
def subLink (pair sub : Nat) : Nat := 72 + 60 * pair + sub

/-- An entry of a reservation table is free. -/
def State.isFree (s : State) (off : Nat) : Bool := (s.resv.find off).isNone

/-- An entry becomes TENTATIVE. -/
def State.reserve (s : State) (off : Nat) (cid : BitVec 26) : State :=
  { s with resv := s.resv.put off { state := 1, cid := cid } }

/-- One alternative of a hop: its table, its entries there, the slot set it takes, the link it is of. -/
structure Alternative where
  table : Nat
  entries : List Nat
  set : Nat
  link : Option Nat := none

/-- The slot sets of `k` slots, from set `prev` on with wrap (10 R312, R316). -/
def slotSets (k prev : Nat) : List Nat := (List.range (24 / k)).map fun i => (prev + i) % (24 / k)

/-- The slot sets of a framed link as alternatives. -/
def linkAlternatives (table link k prev : Nat) : List Alternative :=
  (slotSets k prev).map fun j =>
    { table := table, entries := (List.range k).map fun i => table + 4 * (j * k + i), set := j, link := some link }

/-- The alternatives of a hop of a circuit of `k` slots, in the order in which a probe tries them (10 R316). -/
def Segment.alternatives (k prev : Nat) : Segment → List Alternative
  | .wire d c dir => (List.range 4).map fun w =>
      { table := crossTable d c, entries := [crossTable d c + 4 * (4 * dir + w)], set := prev }
  | .port d c p => [{ table := crossTable d c, entries := [crossTable d c + 4 * (16 + p)], set := prev }]
  | .sub q low => (List.range 60).flatMap fun i => linkAlternatives (subTable q low i) (subLink q i) k prev
  | .fabric p => linkAlternatives (fabricTable p) p k prev

/-- An alternative may be reserved: its link is UP with its full width and its entries are free. -/
def State.isOpen (s : State) (a : Alternative) : Bool :=
  a.link.all (fun l => (s.links.look {} l).state == 1) && a.entries.all s.isFree

/-- The link whose sending end holds an entry. -/
def linkOfEntry (off : Nat) : Option Nat :=
  if 0x90000 ≤ off ∧ off < 0x92400 then some ((off - 0x90000) / 0x80)
  else if 0x94000 ≤ off then some (subLink ((off - 0x94000) % 0x10000 / 0x2000) ((off - 0x94000) % 0x2000 / 0x80))
  else none

/-- The latency of the links of this module on which a circuit holds slots. -/
def State.linkLatency (s : State) (cid : BitVec 26) : Nat :=
  ((s.resv.filter (·.2.cid == cid)).filterMap fun e => linkOfEntry e.1).eraseDups.foldl (fun n l => n + (s.links.look {} l).lat) 0

/-- The circuit that a probe is for. -/
def Probing.cid (q : Probing) : BitVec 26 := BitVec.ofNat 26 (q.pkt.field 10 4)

/-- Every entry of a circuit freed; a probe for it goes no further. -/
def State.releaseCircuit (s : State) (cid : BitVec 26) : State :=
  { s with resv := s.resv.filter fun e => e.2.cid != cid, probes := s.probes.filter fun q => q.cid != cid }

/-- Every entry of a circuit HELD: READY has passed. -/
def State.confirmCircuit (s : State) (cid : BitVec 26) : State :=
  { s with resv := s.resv.map fun e => if e.2.cid = cid then (e.1, { e.2 with state := 2 }) else e }

/-- The fabric plane on which a circuit holds slots. -/
def State.circuitPlane (s : State) (cid : BitVec 26) : Option Nat :=
  (s.resv.find? fun e => e.2.cid == cid && decide (0x90000 ≤ e.1) && decide (e.1 < 0x92400)).map fun e => (e.1 - 0x90000) / 0x80

/-- The planes that a probe of a tile tries, in order (10 R316). -/
def planeOrder (die : Nat) : List Nat :=
  (List.range 18).map (18 * die + ·) ++ (List.range 72).filter fun p => p / 18 != die

/-! ### Meters and handles -/

/-- A parameter of an injection port (13 R380). -/
def Tile.param (t : Tile) (p : Nat) : Nat :=
  match p with
  | 0 => t.fm.look 65536 0
  | 1 => t.fm.look 16384 1
  | 2 => t.fm.look 3 2
  | 3 => t.fm.look 65536 3
  | 4 => t.fm.look 4096 4
  | 5 => t.fm.look 4 5
  | _ => t.fm.look 1 6

/-- Meter entry `k` of unit `u`. -/
def State.meter (s : State) (u k : Nat) : Meter := (s.tile u).meters.look {} k

/-- A meter entry changed. -/
def State.modMeter (s : State) (u k : Nat) (f : Meter → Meter) : State :=
  s.mod u fun t => { t with meters := t.meters.put k (f (t.meters.look {} k)) }

/-- Handle `h` of a context. -/
def State.handle (s : State) (u : Nat) (c : Bool) (h : Nat) : Handle := (s.ctx u c).handles.look {} h

/-- A handle changed. -/
def State.modHandle (s : State) (u : Nat) (c : Bool) (h : Nat) (f : Handle → Handle) : State :=
  s.modCtx u c fun x => { x with handles := x.handles.put h (f (x.handles.look {} h)) }

/-! ### Probes (10 R316, R319, R441) -/

/-- A probe of unit `u` for a circuit. -/
def State.probePacket (s : State) (u : Nat) (src : CircuitSource) (ddev dtile label lslot want wrap unit : Nat) : Packet :=
  { s.header 0x0E u ddev (serviceUnit (dieOf dtile)) label with
    fP := true, lslot := BitVec.ofNat 4 lslot, len := 1
    payload := BitVec.ofNat 2048 (dtile + want * 2 ^ 16 + wrap * 2 ^ 32 + unit * 2 ^ 48
      + (circuitId s.device u src).toNat * 2 ^ 80) }

/-- The answer to a probe, or a release: circuit ID, cause, slots granted, plane, backtracks, latency. -/
def State.circuitPacket (s : State) (type src ddev dtile : Nat) (cid : Nat) (cause nslot plane backs lat : Nat) : Packet :=
  { s.header type src ddev dtile 0 with
    len := 1
    payload := BitVec.ofNat 2048 (cid + cause * 2 ^ 32 + nslot * 2 ^ 40 + plane * 2 ^ 48 + backs * 2 ^ 56 + lat * 2 ^ 64) }

/-- A probe leaves unit `u`; it reaches its first hop in the next cycle. -/
def State.launchProbe (s : State) (u : Nat) (p : Packet) : State :=
  if (s.tile u).stepping.isSome then s.mod u fun t => { t with heldOut := t.heldOut ++ [(s.planeAfter 71, p)] }
  else s.schedule (s.cycle + 1) (.probe p)

/-- A packet held at the egress of a stepped tile leaves (14 R405); a probe begins its way. -/
def State.sendHeld (s : State) (plane : Option Nat) (p : Packet) : State :=
  if p.type = 0x0E then s.schedule (s.cycle + 1) (.probe p) else s.carryPacket s.cycle plane p

/-- The destination of a probe answers: FAIL with cause 6 unless its slot is SPACE 0 with W; else the circuit is bound
(10 R316). -/
def State.bindCircuit (s : State) (p : Packet) (nslot plane lat : Nat) : State :=
  let v := p.field 0 2 % 1024
  let c := labelContext p.label.toNat
  let cid := BitVec.ofNat 26 (p.field 10 4)
  let x := s.ctx v c
  let l := x.slots.look {} p.lslot.toNat
  let src := serviceUnit (dieOf v)
  if l.space != 0 || l.perm % 2 != 1 || isSteward v || (x.life != .running) then
    (s.releaseCircuit cid).postService (s.circuitPacket 0x11 src p.sdev.toNat p.stile.toNat cid.toNat 6 0 0 0 0)
  else
    let r : RxCircuit := { cid := cid, c := c, slot := p.lslot.toNat, label := p.label.toNat, sdev := p.sdev.toNat,
                           stile := p.stile.toNat, wrap := p.field 4 2, runUnit := p.field 6 4 % 2 ^ 28
                           anchored := cid.getLsbD 5 }
    let s := s.mod v fun t => { t with rxc := t.rxc.filter (fun q => q.cid != cid) ++ [r] }
    -- READY passes the reservations of this module
    let s := if p.sdev.toNat = s.device then s else s.confirmCircuit cid
    s.postService (s.circuitPacket 0x10 src p.sdev.toNat p.stile.toNat cid.toNat 0 nslot plane 0 lat)

/-- An own probe fails: FAIL comes back with its cause, every reservation released. -/
def State.failProbe (s : State) (p : Packet) (cause : Nat) : State :=
  let cid := p.field 10 4 % 2 ^ 26
  (s.releaseCircuit (BitVec.ofNat 26 cid)).postService
    (s.circuitPacket 0x11 p.dtile.toNat p.sdev.toNat p.stile.toNat cid cause 0 0 0 0)

/-- A probe takes its way through the module, as the only one of its circuit. -/
def State.startProbe (s : State) (q : Probing) : State := { s with probes := s.probes.filter (fun e => e.cid != q.cid) ++ [q] }

/-- The slots that a probe asks for. -/
def Probing.slots (q : Probing) : Nat := max 1 (q.pkt.field 2 1)

/-- The source module's egress: the first plane of `planes` with a free slot set is tried; with none the probe has failed (10 R316). -/
def State.tryPlanes (s : State) (q : Probing) (planes : List Nat) : State :=
  let free := fun (p : Nat) => ((Segment.fabric p).alternatives q.slots 0).any s.isOpen
  match planes.dropWhile fun p => !free p with
  | [] => s.failProbe q.pkt 5
  | p :: rest => s.startProbe { q with
      ahead := pathOut q.pkt.stile.toNat p, behind := [], from_ := 0, set := 0, plane := some p, planes := rest }

/-- One backtrack more; the one past FMBACK is FAIL (10 R316). -/
def State.backtrack (s : State) (q : Probing) (k : Probing → State) : State :=
  let q := { q with backs := q.backs + 1 }
  if q.limit.any (· < q.backs) then s.failProbe q.pkt 5 else k q

/-- A hop without a free alternative returns BACK: the hop before it releases its reservation and tries its next one; before the first hop
stand the egress with its planes, the module the probe has come from, or nothing. -/
def State.probeBlocked (s : State) (q : Probing) : State :=
  match q.behind with
  | (g, i, set) :: rest => s.backtrack q fun q =>
      let mine := ((g.alternatives q.slots set)[i]?.map (·.entries)).getD []
      { s with resv := s.resv.filter fun e => !mine.contains e.1 }.startProbe
        { q with ahead := g :: q.ahead, behind := rest, from_ := i + 1, set := set }
  | [] =>
    if q.pkt.sdev.toNat != s.device then
      s.postService (s.circuitPacket 0x0F q.pkt.dtile.toNat q.pkt.sdev.toNat q.pkt.stile.toNat q.cid.toNat 0 0 0 (q.pkt.field 3 1) 0)
    else if q.plane.isSome then s.backtrack q fun q => s.tryPlanes q q.planes
    else s.failProbe q.pkt 5

/-- A probe has reserved its way through the module: it leaves by its plane, or has reached its destination (10 R316). -/
def State.probeThrough (s : State) (q : Probing) : State :=
  let u := q.pkt.stile.toNat
  let v := q.pkt.field 0 2 % 1024
  if q.pkt.sdev.toNat != s.device then
    s.bindCircuit q.pkt q.slots 0 (pathCycles (portTile q.pkt.via) v + s.linkLatency q.cid)
  else match q.plane with
    | some p => s.emit (.packet s.cycle p { q.pkt with
        payload := q.pkt.payload &&& ~~~(0xFF#2048 <<< 24) ||| BitVec.ofNat 2048 (q.backs % 256 * 2 ^ 24) })
    | none => s.bindCircuit q.pkt (if dieOf u = dieOf v then 0 else q.slots) 0xFF (pathCycles u v + s.linkLatency q.cid)

/-- The job of a circuit whose sender or receiver is on this module is frozen (12 R363). -/
def State.circuitFrozen (s : State) (cid : BitVec 26) : Bool :=
  let u := bits cid.toNat 6 10
  if bits cid.toNat 16 10 = s.device then match circuitSource cid.toNat with
    | .handle c _ => (s.ctx u c).frozen
    | .meter k => (s.ctx u (s.meter u k).c).frozen
  else
    (s.probes.any fun q => q.cid == cid && (s.ctx (q.pkt.field 0 2 % 1024) (labelContext q.pkt.label.toNat)).frozen)
      || s.units.any fun e => e.2.rxc.any fun r => r.cid == cid && (e.2.ctx r.c).frozen

/-- One hop of a probe in a cycle in which the tables `granted` have granted a request; a probe whose table has waits, and one of a
frozen job is parked (10 R316, R325; 12 R363). -/
def State.moveProbe (s : State) (granted : List Nat) (q : Probing) : State × List Nat :=
  if s.circuitFrozen q.cid then (s.startProbe q, granted)
  else match q.ahead with
    | [] => (s.probeThrough q, granted)
    | g :: rest =>
      let alts := g.alternatives q.slots q.set
      match (alts.zip (List.range alts.length)).find? fun e => decide (q.from_ ≤ e.2) && s.isOpen e.1 with
      | none => (s.probeBlocked q, granted)
      | some (a, i) =>
        if granted.contains a.table then (s.startProbe q, granted)
        else ((a.entries.foldl (fun s e => s.reserve e q.cid) s).startProbe
          { q with ahead := rest, behind := (g, i, q.set) :: q.behind, from_ := 0, set := a.set }, a.table :: granted)

/-- Every probe takes a hop, in ascending circuit ID (12 R363). -/
def State.moveProbes (s : State) : State :=
  let qs : Tab Probing := s.probes.foldl (fun t q => t.put q.cid.toNat q) []
  (qs.foldl (fun (acc : State × List Nat) e => acc.1.moveProbe acc.2 e.2) ({ s with probes := [] }, [])).1

/-- The backtracks a circuit's probe may make (10 R316). -/
def State.backsAllowed (s : State) (u : Nat) : CircuitSource → Nat
  | .meter k => (s.meter u k).back
  | .handle c h => (s.handle u c h).back

/-- PROBE (10 R316): an own probe goes through the module; one from outside to its tile. -/
def execProbe (p : Packet) (s : State) : Host.Outcome State Fault Refusal :=
  let u := p.stile.toNat
  let v := p.field 0 2 % 1024
  let own := decide (p.sdev.toNat = s.device)
  let q : Probing := { pkt := p, ahead := [], limit := if own then some (s.backsAllowed u (circuitSource (p.field 10 4))) else none }
  .next <|
    if own && p.ddev.toNat != s.device then s.tryPlanes q (planeOrder (dieOf u))
    else if 768 ≤ v then
      if own then s.failProbe p 6
      else s.postService (s.circuitPacket 0x11 p.dtile.toNat p.sdev.toNat u (p.field 10 4 % 2 ^ 26) 6 0 0 0 0)
    else s.startProbe { q with ahead := pathIn (if own then u else portTile p.via) v }

/-- The probe that a circuit's sender launched, as its state gives it. -/
def State.probeOf (s : State) (u : Nat) (src : CircuitSource) : Packet :=
  match src with
  | .meter k =>
    let m := s.meter u k
    s.probePacket u src m.ddev m.dtile m.label m.slot m.want 0 0
  | .handle c h =>
    let e := s.handle u c h
    s.probePacket u src e.ddev e.dtile 0 e.slot e.want e.wrap e.offset

/-- BACK (10 R316): the egress releases its plane and tries its next one, or the probe has failed. -/
def execBack (p : Packet) (s : State) : Host.Outcome State Fault Refusal :=
  let u := p.dtile.toNat
  let cid := BitVec.ofNat 26 (p.field 0 4)
  let src := circuitSource cid.toNat
  let order := planeOrder (dieOf u)
  let rest := match s.circuitPlane cid with
    | some old => (order.dropWhile (· != old)).drop 1
    | none => []
  let q : Probing := { pkt := s.probeOf u src, ahead := [], backs := p.field 7 1, limit := some (s.backsAllowed u src) }
  let s := s.releaseCircuit cid
  .next (s.backtrack q fun q => s.tryPlanes q rest)

/-- The latency of a circuit that leaves the module, up to its port's link and with it (10 R311). -/
def State.wayOut (s : State) (u : Nat) (cid : BitVec 26) : Nat :=
  match s.circuitPlane cid with
  | some p => pathCycles u (portTile p) + s.linkLatency cid
  | none => 0

/-- What happens to a flow meter takes effect with the end of the cycle, and applies to packets from the next one on (10 R315). -/
def State.withEnd (s : State) (e : Event) (k : State → State) : State := if s.ended then k s else { s with atEnd := s.atEnd ++ [e] }

/-- READY (10 R315, R316, R319): the reservations are confirmed and the circuit is open; one that nobody waits for is freed. -/
def execReady (p : Packet) (s : State) : Host.Outcome State Fault Refusal :=
  let u := p.dtile.toNat
  let cid := BitVec.ofNat 26 (p.field 0 4)
  let drop := fun (s : State) =>
    (s.releaseCircuit cid).postService (s.circuitPacket 0x15 u p.sdev.toNat p.stile.toNat cid.toNat 0 0 0 0 0)
  .next <|
    match circuitSource cid.toNat with
    | .meter k => s.withEnd (.ready p) fun s =>
      if (s.meter u k).state = 2 then
        (s.confirmCircuit cid).modMeter u k fun m => { m with
          state := 4, handoff := true, inRun := false, timer := (s.tile u).param 4, latency := p.field 8 4 + s.wayOut u cid, number := 0 }
      else drop s
    | .handle c h =>
      if (s.handle u c h).state = 1 then
        (s.confirmCircuit cid).modHandle u c h fun e => { e with
          state := 2, nslot := p.field 5 1, plane := if e.ddev = s.device then 0xFF else (s.circuitPlane cid).getD 0
          latency := p.field 8 4 + s.wayOut u cid, runUnit := e.offset, number := 0 }
      else drop s

/-- RESERVATION_TIMEOUT (12 R363): a TENTATIVE entry frees. -/
def execReservationTimeout (entry : Nat) (s : State) : Host.Outcome State Fault Refusal :=
  .next <|
    match s.resv.find entry with
    | some r => if r.state = 1 then { s with resv := s.resv.del entry } else s
    | none => s

/-- METER_PROBE_TIMEOUT (10 R315). -/
def execMeterProbeTimeout (u k : Nat) (s : State) : Host.Outcome State Fault Refusal :=
  .next (if (s.meter u k).state = 2 then s.modMeter u k fun m => { m with state := 3, timer := (s.tile u).param 3 } else s)

/-- HANDLE_PROBE_TIMEOUT (10 R319). -/
def execHandleProbeTimeout (u : Nat) (c : Bool) (h : Nat) (s : State) : Host.Outcome State Fault Refusal :=
  .next (if (s.handle u c h).state = 1 then s.modHandle u c h fun e => { e with state := 5, cause := 9 } else s)

/-- HOLDOFF_EXPIRY (10 R315). -/
def execHoldoffExpiry (u k : Nat) (s : State) : Host.Outcome State Fault Refusal :=
  .next (if (s.meter u k).state = 3 then s.modMeter u k fun m => { m with state := 1 } else s)

/-- Meter entries after a decay: counts halve, and a COUNTING entry left at 0 is freed; it pauses while the job is
frozen. -/
def Tile.decayed (t : Tile) : Tab Meter :=
  (t.meters.map fun e =>
    if (e.2.state = 1 ∨ e.2.state = 3) ∧ (t.ctx e.2.c).frozen = false then (e.1, { e.2 with count := e.2.count / 2 }) else e).filter
      fun e => e.2.state != 1 || e.2.count != 0 || (t.ctx e.2.c).frozen

/-- METER_DECAY (10 R314, R315). -/
def execMeterDecay (u : Nat) (s : State) : Host.Outcome State Fault Refusal :=
  .next (s.mod u fun t => { t with meters := t.decayed })

/-! ### Runs of beats (10 R311, R317, R321) -/

/-- A run changed. -/
def State.modRun (s : State) (u run : Nat) (f : TxRun → TxRun) : State :=
  s.mod u fun t => match t.runs.find run with
    | some r => { t with runs := t.runs.put run (f r) }
    | none => t

/-- Beats of a run that are to depart. -/
def TxRun.total (r : TxRun) : Nat := if r.source.isEmpty then r.data.length else r.source.length

/-- The element that beat `i` of a run begins in, and its address at the sender. -/
def TxRun.elementOf (r : TxRun) (i : Nat) : Nat × Nat :=
  match r.source[i]?, r.data[i]? with
  | some ps, _ => (64 * i / r.elen, ((ps.head?.map (·.1)).getD 0) - 64 * i % r.elen)
  | none, some d => d.2.2
  | none, none => (0, 0)

/-- The unit of beat `i` of a run. -/
def TxRun.unitOf (r : TxRun) (i : Nat) : Nat := if r.wrap = 0 then r.unit + i else (r.unit + i) % r.wrap

/-- The slots that a circuit holds on its first framed link; none on one die. -/
def State.firstSlots (s : State) (u : Nat) (cid : BitVec 26) (ddev dtile : Nat) : List Nat :=
  let path := if ddev = s.device then pathIn u dtile else pathOut u ((s.circuitPlane cid).getD 0)
  let tables := path.filterMap fun g => match g with
    | .sub q low => some ((List.range 60).map fun i => subTable q low i)
    | .fabric p => some [fabricTable p]
    | _ => none
  match tables.head? with
  | none => []
  | some ts => ts.flatMap fun b => (List.range 24).filter fun k => match s.resv.find (b + 4 * k) with
    | some r => r.cid == cid
    | none => false

/-- The cycle of slot `n`, counted from cycle 0: a slot is 0.64 ns of 85 cycles in 100 ns (10 R311). -/
def slotCycle (n : Nat) : Nat := (n * 68 + 124) / 125

/-- The next departure after slot `last`, no earlier than cycle `from_`: its slot and cycle; the next cycle on one die. -/
def nextDeparture (slots : List Nat) (last from_ : Nat) : Nat × Nat :=
  if slots.isEmpty then (0, from_)
  else
    let start := max (last + 1) (from_ * 125 / 68)
    match ((List.range 64).map (start + ·)).find? fun n => slots.contains (n % 32) && decide (from_ ≤ slotCycle n) with
    | some n => (n, slotCycle n)
    | none => (0, from_)

/-- The next beat of a run is to depart no earlier than cycle `from_`. -/
def State.scheduleBeat (s : State) (u run : Nat) (from_ : Nat) : State :=
  match (s.tile u).runs.find run with
  | none => s
  | some r =>
    let (n, at_) := nextDeparture (s.firstSlots u (circuitId s.device u r.src) r.ddev r.dtile) r.slotNo from_
    let s := s.modRun u run fun r => { r with slotNo := n }
    if at_ ≤ s.cycle then s.due (.circuitDeparture u run) else s.schedule at_ (.circuitDeparture u run)

/-- The latency of a run's circuit. -/
def State.circuitLatency (s : State) (u : Nat) : CircuitSource → Nat
  | .meter k => (s.meter u k).latency
  | .handle c h => (s.handle u c h).latency

/-- A beat leaves: it arrives at its tile after the circuit's latency, or leaves the module. -/
def State.sendBeat (s : State) (u : Nat) (r : TxRun) (v : BitVec 512) (bad : BitVec 8) : State :=
  let cid := circuitId s.device u r.src
  if r.ddev = s.device then s.schedule (s.cycle + 1 + s.circuitLatency u r.src) (.circuitBeat r.dtile cid r.number v bad false)
  else s.emit (.beat cid ((s.circuitPlane cid).getD 0) r.number v bad)

/-- A CMARK of `n` beats ends run `run` in its stream (10 R317, R441). -/
def State.sendMark (s : State) (u run : Nat) (r : TxRun) (n : Nat) : State :=
  let p := { s.header 0x12 u r.ddev r.dtile r.label with
    fL := r.last, len := 1, payload := BitVec.ofNat 2048 (n + (circuitId s.device u r.src).toNat * 2 ^ 32) }
  let s := s.modRun u run fun r => { r with ended := true }
  s.sendOrdered u { pkt := p, c := r.c, op := r.op, elem := 0, run := some run } false

/-- The next run of a circuit begins where run `r` of `n` beats ends: the sender's running unit and run number move on. -/
def State.nextRun_ (s : State) (u : Nat) (r : TxRun) (n : Nat) : State :=
  match r.src with
  | .meter k => s.modMeter u k fun m => { m with number := r.number + 1 }
  | .handle c h => s.modHandle u c h fun e => { e with number := r.number + 1, runUnit := r.unitOf n }

/-- The deviation trap of a sender (10 R321). -/
def State.deviates (s : State) (u : Nat) (c : Bool) (h beat kind : Nat) : State :=
  s.pend u c { cause := 0x1A, eng := 1, i0 := BitVec.ofNat 64 h, i1 := BitVec.ofNat 64 beat, i2 := BitVec.ofNat 64 kind,
               i3 := BitVec.ofNat 64 (s.ctx u c).localCycle, rank := 1 }

/-- The handle number of a run's source. -/
def handleNumber : CircuitSource → Nat
  | .meter k => 16 + k
  | .handle _ h => h

/-- X-class transfers may read [a, a + n) of the scratchpad of context `c` of tile `u` (07 R207). -/
def State.mayTransfer (s : State) (u : Nat) (c : Bool) (a n : Nat) : Bool :=
  let t := s.tile u
  decide (a + n ≤ 0x180000) && (banksOf a n).all fun b =>
    t.bankOwner b == c && stripRole (t.role b) && !(t.dual && decide (max a (b * 65536 + 0xC800) < min (a + n) (b * 65536 + 65536)))

/-- The bytes of a beat from its pieces, with the mask of the poisoned ones. -/
def State.beatBytes (s : State) (u : Nat) : List (Nat × Nat) → Nat × Nat
  | [] => (0, 0)
  | (a, n) :: rest =>
    let (v, bad) := s.beatBytes u rest
    (s.loadPA (windowPA u a) n + v * 2 ^ (8 * n), s.poisonMask (windowPA u a) n + bad * 2 ^ n)

/-- A beat of an XCIR whose granule cannot be read: it deviates; else it departs. -/
def State.departSource (s : State) (u run : Nat) (r : TxRun) (ps : List (Nat × Nat)) : State × Bool :=
  let s := ps.foldl (fun s p => s.scrub (agentOf u r.c) (windowPA u p.1) p.2) s
  let (v, bad) := s.beatBytes u ps
  if ps.any (fun p => !s.mayTransfer u r.c p.1 p.2) || bad != 0 then
    ((s.deviates u r.c (handleNumber r.src) r.sent 1).mod u fun t => { t with runs := t.runs.del run }, false)
  else (s.sendBeat u r (BitVec.ofNat 512 v) 0, true)

/-- CIRCUIT_DEPARTURE (10 R317, R321): the next beat of a run departs; after the last beat of an XCIR a CMARK follows. -/
def execCircuitDeparture (u run : Nat) (s : State) : Host.Outcome State Fault Refusal :=
  .next <|
    match (s.tile u).runs.find run with
    | none => s
    | some r =>
      let x := s.ctx u r.c
      let early := match r.word with
        | some w => decide (r.sent = 0) && !r.late && decide (x.localCycle < w)
        | none => false
      if r.torn || decide (r.total ≤ r.sent) then s
      else if x.frozen || early then s.scheduleBeat u run (s.cycle + 1)
      else if r.late then
        (s.deviates u r.c (handleNumber r.src) 0 0).mod u fun t => { t with runs := t.runs.del run }
      else
        let (s, sent) := match r.source[r.sent]? with
          | some ps => s.departSource u run r ps
          | none =>
            let (v, bad, _) := (r.data[r.sent]?).getD (0, 0, 0, 0)
            (s.sendBeat u r v bad, true)
        if !sent then s
        else
          let s := s.modRun u run fun r => { r with sent := r.sent + 1 }
          let s := match r.src with
            | .meter k => s.modMeter u k fun m => { m with beats := m.beats + 1 }
            | .handle c h => s.modHandle u c h fun e => { e with beats := e.beats + 1 }
          if r.sent + 1 < r.total then s.scheduleBeat u run (s.cycle + (if (s.firstSlots u (circuitId s.device u r.src) r.ddev
            r.dtile).isEmpty then 1 else 0))
          else if (r.word.isSome || r.closing) && !r.ended then s.sendMark u run r r.total
          else s

/-! ### Teardown (10 R322) -/

/-- The runs of a circuit whose CMARKs are not acknowledged, in order. -/
def Tile.runsOf (t : Tile) (src : CircuitSource) : List (Nat × TxRun) := t.runs.filter fun e => e.2.src == src

/-- The circuit-torn trap (10 R322). -/
def State.tornTrap (s : State) (u : Nat) (c : Bool) (src : CircuitSource) (g cause : Nat) : State :=
  if cause = 1 ∨ cause = 4 ∨ cause = 7 then
    s.pend u c { cause := 0x1C, eng := 1, i0 := BitVec.ofNat 64 (handleNumber src), i1 := BitVec.ofNat 64 g
                 i2 := BitVec.ofNat 64 cause, rank := 1 }
  else s

/-- The cause a circuit was torn with, and its context. -/
def State.tornBy (s : State) (u : Nat) : CircuitSource → Nat × Bool
  | .meter k => ((s.meter u k).groups, (s.meter u k).c)
  | .handle c h => ((s.handle u c h).cause, c)

/-- The CMARK of a teardown: `n` beats were sent in the run that stood. Its A flag tells it from one that ends a run (log entry 41). -/
def State.sendLastMark (s : State) (u : Nat) (c : Bool) (src : CircuitSource) (ddev dtile label n : Nat) : State :=
  s.sendOrdered u { c := c, op := 0, elem := 0, pkt := { s.header 0x12 u ddev dtile label with
    fA := true, len := 1, payload := BitVec.ofNat 2048 (n + (circuitId s.device u src).toNat * 2 ^ 32) } } false

/-- CIRCUIT_TEARDOWN (10 R322): the sender stops at the beat boundary, sends FREE and a CMARK with the beats sent; CREPORT
ends the teardown. `quiet`: at a boundary nothing is left to report, and FREE ends it (10 R325). -/
def State.tearCircuit (s : State) (u : Nat) (src : CircuitSource) (cause : Nat) (quiet : Bool := false) : State :=
  let cid := circuitId s.device u src
  let (open_, ddev, dtile, label, c) := match src with
    | .meter k => let m := s.meter u k; (m.state == 4, m.ddev, m.dtile, m.label, m.c)
    | .handle c h => let e := s.handle u c h; (e.state == 2, e.ddev, e.dtile, e.label, c)
  if !open_ then s
  else
    let s := match src with
      | .meter k => s.modMeter u k fun m =>
          if cause = 0 then {}
          else { m with state := 3, timer := (s.tile u).param 3, groups := cause, inRun := false, handoff := false, tearing := !quiet }
      | .handle _ h => s.modHandle u c h fun e => { e with
          state := if cause = 2 then (if quiet then 0 else 3) else 4, cause := cause, tearing := !quiet }
    let plane := (s.circuitPlane cid).getD 0
    let s := s.releaseCircuit cid
    let free := s.circuitPacket 0x15 u ddev dtile cid.toNat cause 0 0 0 0
    let s := if ddev = s.device then s.schedule (s.cycle + 1) (.free free) else s.emit (.packet s.cycle plane free)
    if quiet then s.tornTrap u c src 0 cause
    else
      let runs := (s.tile u).runsOf src
      let s := runs.foldl (fun s e => s.modRun u e.1 fun r => { r with torn := true, ended := true }) s
      match runs.find? fun e => !e.2.ended with
      | some (_, r) => s.sendLastMark u c src ddev dtile r.label r.sent
      | none => s.sendLastMark u c src ddev dtile label 0

/-- CIRCUIT_TEARDOWN as an event. -/
def execCircuitTeardown (u : Nat) (src : CircuitSource) (cause : Nat) (s : State) : Host.Outcome State Fault Refusal :=
  .next (s.tearCircuit u src cause)

/-- LEASE_EXPIRY (10 R320). -/
def execLeaseExpiry (u : Nat) (c : Bool) (h : Nat) (s : State) : Host.Outcome State Fault Refusal :=
  .next <|
    if (s.handle u c h).state = 2 then s.tearCircuit u (.handle c h) 1
    else if (s.handle u c h).state = 1 then
      (s.releaseCircuit (circuitId s.device u (.handle c h))).modHandle u c h fun e => { e with state := 5, cause := 1 }
    else s

/-- METER_IDLE_EXPIRY (10 R315). -/
def execMeterIdleExpiry (u k : Nat) (s : State) : Host.Outcome State Fault Refusal := .next (s.tearCircuit u (.meter k) 0)

/-- FAIL (10 R315, R316, R319, R322): the probe has failed; with cause 4 or 7 the circuit is torn away from its sender, a promoted one
also with cause 6. -/
def execFail (p : Packet) (s : State) : Host.Outcome State Fault Refusal :=
  let u := p.dtile.toNat
  let cid := BitVec.ofNat 26 (p.field 0 4)
  let src := circuitSource cid.toNat
  .next <|
    match src with
    | .meter k => s.withEnd (.fail p) fun s =>
      if (s.meter u k).state = 2 then
        (s.releaseCircuit cid).modMeter u k fun m => { m with state := 3, timer := (s.tile u).param 3 }
      else if p.field 4 1 = 7 ∨ p.field 4 1 = 4 ∨ p.field 4 1 = 6 then s.tearCircuit u src (p.field 4 1) else s
    | .handle c h =>
      if (s.handle u c h).state = 1 then (s.releaseCircuit cid).modHandle u c h fun e => { e with state := 5, cause := p.field 4 1 }
      else if p.field 4 1 = 7 ∨ p.field 4 1 = 4 then s.tearCircuit u src (p.field 4 1) else s

/-- FREE (10 R322): the reservations of a circuit end; its receiver knows that it is torn. -/
def execFree (p : Packet) (s : State) : Host.Outcome State Fault Refusal :=
  let cid := BitVec.ofNat 26 (p.field 0 4)
  let s := s.releaseCircuit cid
  .next <|
    if p.dtile.toNat < 768 then s.mod p.dtile.toNat fun t => { t with
      rxc := t.rxc.map fun r => if r.cid = cid then { r with torn := true } else r }
    else s

/-- A beat to be sent again: its run, unit, bytes, poisoned words, element and address. -/
structure Remaining where
  run : TxRun
  unit : Nat
  v : Nat
  bad : Nat
  place : Nat × Nat

/-- The beats of a torn run from beat `skip` on. -/
def State.remainder (s : State) (u skip : Nat) (r : TxRun) : List Remaining :=
  (List.range (r.total - skip)).map fun i =>
    let i := skip + i
    let (v, bad) := match r.source[i]? with
      | some ps => let (v, bad) := s.beatBytes u ps; (v, wordMask bad 64)
      | none => let d := (r.data[i]?).getD (0, 0, 0, 0); (d.1.toNat, d.2.1.toNat)
    { run := r, unit := r.unitOf i, v := v, bad := bad, place := r.elementOf i }

/-- Beats packed into WRITEs of up to 256 B over following units of one run, resent on the packet plane. -/
def State.resendBeats (s : State) (u : Nat) : Nat → List Remaining → State
  | 0, _ => s
  | _, [] => s
  | fuel + 1, e :: rest =>
    let r := e.run
    let same := fun (i : Nat) => match rest[i]? with
      | some q => q.run.op == r.op && q.unit == e.unit + i + 1
      | none => false
    let more := if !same 0 then 0 else if !same 1 then 1 else if !same 2 then 2 else 3
    let (v, bad) := (e :: rest.take more).foldr (fun q acc => (q.v + acc.1 * 2 ^ 512, q.bad + acc.2 * 2 ^ 8)) (0, 0)
    let last := !(rest.drop more).any fun q => q.run.op == r.op
    let p := dataPacket (s.header 1 u r.ddev r.dtile r.label) r.lslot e.unit (64 * (more + 1)) v bad last
    (s.sendOrdered u { pkt := p, c := r.c, op := r.op, elem := e.place.1, addr := e.place.2 } true).resendBeats u fuel (rest.drop more)

/-- Sender and context of a circuit whose teardown is to be reported: its cause, or none where nobody waits for the report. -/
def State.awaitsReport (s : State) (u : Nat) : CircuitSource → Bool
  | .meter k => (s.meter u k).tearing
  | .handle c h => (s.handle u c h).tearing

/-- CREPORT (10 R322): the run that stood at the receiver is resent on the packet plane from beat 16 G on, later ones whole, and the
teardown ends. -/
def execCreport (p : Packet) (s : State) : Host.Outcome State Fault Refusal :=
  let u := p.dtile.toNat
  let src := circuitSource (p.field 0 4)
  let g := p.field 4 4
  let f := p.field 8 4
  let runs := ((s.tile u).runsOf src).filter fun e => e.2.torn
  let beats := runs.flatMap fun e => if e.2.number < f then [] else s.remainder u (if e.2.number = f then 16 * g else 0) e.2
  let (cause, c) := s.tornBy u src
  let awaited := s.awaitsReport u src
  let s := s.resendBeats u beats.length beats
  let s := runs.foldl (fun s e => (s.mod u fun t => { t with runs := t.runs.del e.1 }).opDone u e.2.c e.2.op) s
  let s := match src with
    | .meter k => s.modMeter u k fun m => { m with tearing := false }
    | .handle c h => s.modHandle u c h fun e =>
        if e.state = 3 then {} else if e.tearing then { e with groups := g, tearing := false } else e
  .next (if awaited then s.tornTrap u c src g cause else s)

/-! ### Metered packets (10 R314, R315, R317) -/

/-- The meter entry that a packet of a key takes: its own, an IDLE one, or the COUNTING one with the lowest count. -/
def Tile.meterFor (t : Tile) (ddev dtile label : Nat) : Option Nat :=
  let key := fun k =>
    let m := t.meters.look {} k
    m.state != 0 && m.ddev == ddev && m.dtile == dtile && m.label == label
  match (List.range 16).find? key with
  | some k => some k
  | none =>
    if t.param 6 = 0 then none
    else match (List.range 16).find? fun k => (t.meters.look {} k).state == 0 with
      | some k => some k
      | none =>
        ((List.range 16).filter fun k => (t.meters.look {} k).state == 1).foldl (fun best k => match best with
          | some b => if (t.meters.look {} k).count < (t.meters.look {} b).count then some k else some b
          | none => some k) none

/-- The run of a promoted flow that still takes beats. -/
def Tile.openRun (t : Tile) (k : Nat) : Option (Nat × TxRun) := t.runs.find? fun e => e.2.src == .meter k && !e.2.closing && !e.2.ended

/-- The promoted flow's run ends, if it has one open: its CMARK follows the last beat (10 R317). -/
def State.endRun (s : State) (u k : Nat) : State :=
  match (s.tile u).openRun k with
  | none => s
  | some (id, r) =>
    let s := (s.modRun u id fun r => { r with closing := true }).nextRun_ u r r.total
    if r.total ≤ r.sent then s.sendMark u id r r.total else s

/-- The CMARKs of a promoted flow's ended runs that wait for their last beats take their places in the stream (10 R317). -/
def State.flushMarks (s : State) (u k : Nat) : State :=
  ((s.tile u).runs.filter fun e => e.2.src == .meter k && e.2.closing && !e.2.ended).foldl
    (fun s e => s.sendMark u e.1 e.2 e.2.total) s

/-- 64-B beats of a packet's payload, each with its element and address. -/
def beatsOf (e : Kept) : List (BitVec 512 × BitVec 8 × Nat × Nat) :=
  (List.range (e.pkt.len.toNat / 4)).map fun i =>
    (e.pkt.payload.extractLsb' (512 * i) 512, e.pkt.bad.extractLsb' (8 * i) 8, (e.places[i]?).getD (e.elem, e.addr))

/-- A packet's bytes put on a promoted circuit (10 R317). -/
def State.putBeats (s : State) (u k : Nat) (e : Kept) : State :=
  let p := e.pkt
  let m := s.meter u k
  let units := p.len.toNat / 4
  let s := s.modMeter u k fun m => { m with runUnit := m.runUnit + units }
  match (s.tile u).openRun k with
  | some (id, r) =>
    let idle := decide (r.total ≤ r.sent)
    let s := s.modRun u id fun r => { r with data := r.data ++ beatsOf e, last := p.fL }
    if idle then s.scheduleBeat u id (s.cycle + 1) else s
  | none =>
    let id := (s.tile u).nextRun
    let r : TxRun := { src := .meter k, op := e.op, c := e.c, number := m.number, ddev := p.ddev.toNat, dtile := p.dtile.toNat
                       lslot := p.lslot.toNat, unit := p.off.toNat, data := beatsOf e, label := p.label.toNat, last := p.fL }
    let s := s.mod u fun t => { t with runs := t.runs.put id r, nextRun := id + 1 }
    (s.opPart u e.c e.op).scheduleBeat u id (s.cycle + 1)

/-- A metered WRITE or WRITEM of XPUT or XSCAT: counted, and sent on the packet plane or its circuit. -/
def State.sendMetered (s : State) (u : Nat) (e : Kept) : State :=
  let p := e.pkt
  let t := s.tile u
  match t.meterFor p.ddev.toNat p.dtile.toNat p.label.toNat with
  | none => s.sendOrdered u e true
  | some k =>
    let old := s.meter u k
    let fresh := old.state = 0 || !(old.ddev == p.ddev.toNat && old.dtile == p.dtile.toNat && old.label == p.label.toNat)
    let m : Meter := if fresh then
        { state := 1, ddev := p.ddev.toNat, dtile := p.dtile.toNat, label := p.label.toNat, c := e.c }
      else old
    let m := { m with count := min 16777215 (m.count + p.len.toNat * 16), slot := if m.state = 4 then m.slot else p.lslot.toNat }
    if m.state = 4 then
      let s := s.modMeter u k fun _ => { m with timer := t.param 4 }
      let units := (p.len.toNat + 3) / 4 - (if p.type = 2 ∧ p.len.toNat % 4 = 1 then 1 else 0)
      if m.inRun && p.type == 1 && p.off.toNat == m.runUnit && p.lslot.toNat == m.slot then s.putBeats u k e
      else
        let s := (if m.inRun then s.endRun u k else s).flushMarks u k
        -- a WRITEM tail ends the run; any other packet opens a run and carries H
        if p.type = 2 ∧ m.handoff = false ∧ m.inRun ∧ p.off.toNat = m.runUnit ∧ p.lslot.toNat = m.slot then
          (s.modMeter u k fun m => { m with inRun := false }).sendOrdered u e true
        else
          (s.modMeter u k fun m => { m with
            handoff := false, inRun := true, runUnit := p.off.toNat + units, slot := p.lslot.toNat, number := m.number + 1 }).sendOrdered
            u { e with pkt := { p with fH := true } } true
    else if m.state = 1 ∧ t.param 0 ≤ m.count then
      let s := s.modMeter u k fun _ => { m with state := 2, age := 0, want := t.param 5, back := t.param 2 }
      (s.launchProbe u (s.probeOf u (.meter k))).sendOrdered u e true
    else (s.modMeter u k fun _ => m).sendOrdered u e true

/-- A CMARK follows the last beat of each instruction (10 R317). -/
def State.endRuns (s : State) (u : Nat) : State := (List.range 16).foldl (fun s k => s.endRun u k) s

end Sys2Proof.Machine
end

