-- ==== Sys2Proof/Machine/Landing.lean ====
section
/-!
DEFINITION. The packet plane and the circuit plane at the receiving side: landing slots and their checks, streams in order,
acknowledgements, reads, remote faults, beats (10 R293 to R299, R302, R303, R305, R313, R317, R321).
-/
namespace Sys2Proof.Machine

/-! ### Slots (10 R297, R298) -/

/-- Where a unit of a slot's region lies. -/
inductive Spot where
  | scratch (a : Nat)
  | virtual (va : Nat)
deriving DecidableEq, Repr

/-- The place of offset unit `i` of a slot; none beyond LIMIT without an overflow region (10 R297). -/
def LandingSlot.spot (l : LandingSlot) (i : Nat) : Option Spot :=
  if i < l.limit then some (if l.space = 0 then .scratch (l.base + 64 * i) else .virtual (l.base + 64 * i))
  else if l.ovf = 0 then none else some (.virtual (l.ovf + 64 * (i - l.limit)))

/-- The 64-B pieces of `n` bytes from unit `off` on: unit, first byte, length. -/
def landChunks (off n : Nat) : List (Nat × Nat × Nat) :=
  (List.range ((n + 63) / 64)).map fun i => (off + i, 64 * i, min 64 (n - 64 * i))

/-- [a, a + n) lies in an XCHG bank of context `c` of unit `u` (07 R207). -/
def State.mayLand (s : State) (u : Nat) (c : Bool) (a n : Nat) : Bool :=
  let t := s.tile u
  !isSteward u && decide (a + n ≤ 0x180000) && (banksOf a n).all fun b =>
    t.bankOwner b == c && t.role b == 4 && !(t.dual && decide (max a (b * 65536 + 0xC800) < min (a + n) (b * 65536 + 65536)))

/-- What becomes of a landing or a read. -/
inductive LandRes where
  /-- it is done; a read gives its bytes and their poison -/
  | ok (s : State) (v bad : Nat)
  | notReady (s : State)
  | refused (s : State) (code : Nat)
  | missing (s : State) (va : Nat) (f : AddressFault)
  /-- its receive fault has been declared unservable (10 R305) -/
  | dead (s : State)
  | conflict (s : State) (va : Nat) (f : AddressFault)

/-- The first check of 10 R298: the context is resident, in an exchange phase of its job, and its slot has a permission. -/
def State.slotOpen (s : State) (u : Nat) (c : Bool) (slot perm : Nat) : Bool :=
  !isSteward u && decide (u < 768) && (s.ctx u c).life == .running && s.exchange u c
    && ((s.ctx u c).slots.look {} slot).perm.testBit perm

/-- Translate every virtual piece, ahead of the markers of `ahead`. -/
def State.landPlaces (s : State) (u : Nat) (c : Bool) (ahead : List Nat) (kind : AccessKind) :
    List (Spot × Nat × Nat) → State × (Nat × AddressFault ⊕ List (Place × Nat × Nat))
  | [] => (s, .inr [])
  | (.scratch a, i, n) :: rest =>
    match s.landPlaces u c ahead kind rest with
    | (s, .inr ps) => (s, .inr (({ pa := windowPA u a, tracked := false }, i, n) :: ps))
    | r => r
  | (.virtual va, i, n) :: rest =>
    if 2 ^ 51 ≤ va then (s, .inl (va, badVirtual))
    else
      match s.translate u (s.ctx u c).jobId ahead kind va with
      | (s, .inl f) => (s, .inl (va, f))
      | (s, .inr p) =>
        match s.landPlaces u c ahead kind rest with
        | (s, .inr ps) => (s, .inr ((p, i, n) :: ps))
        | r => r

/-- A window address, as against HBM, host or peer memory. -/
def isWindow (pa : Nat) : Bool := pa / 2 ^ 52 == 0xE

/-- The stamp that a piece meets and may not pass. -/
def State.pieceConflict (s : State) (a : Actor) (kind : AccessKind) (ps : List (Place × Nat × Nat)) : Option (Nat × AddressFault) :=
  ps.findSome? fun e => if isWindow e.1.pa then none
    else (s.stampConflict e.1.tracked a.agent a.phase kind e.1.pa e.2.2).map fun f => (e.2.1, f)

/-- The bytes of the pieces, and the mask of the poisoned ones. -/
def State.readPieces (s : State) (a : Actor) : List (Place × Nat × Nat) → State × Nat × Nat
  | [] => (s, 0, 0)
  | (p, i, n) :: rest =>
    let (s, v, bad) :=
      if isWindow p.pa then
        let s := s.scrub a.agent p.pa n
        (s, s.loadPA p.pa n, s.poisonMask p.pa n)
      else match s.readPlace a p n with
        | (s, .inr (v, bad)) => (s, v, bad)
        | (s, .inl _) => (s, 0, 0)
    let (s, w, bad') := s.readPieces a rest
    (s, v * 2 ^ (8 * i) + w, bad * 2 ^ i ||| bad')

/-- The pieces written with the bytes of `v`, those of `bad` poisoned. -/
def State.writePieces (s : State) (a : Actor) (v bad : Nat) (ps : List (Place × Nat × Nat)) : State :=
  ps.foldl (fun s e =>
    let (p, i, n) := e
    let w := bits v (8 * i) (8 * n)
    let b := bits bad i n
    if isWindow p.pa then (s.storePA p.pa n w).poisonBytes p.pa n b else (s.writePlace a p n w b).1) s

/-- A landing of `n` bytes, or a read of them, at unit `off` of a slot: the checks of 10 R298 in their order, then the access; where the
pages are looked at, a packet whose receive fault is `dead` has its answer (10 R305). -/
def State.landSlot (s : State) (u : Nat) (c : Bool) (a : Actor) (write : Bool) (slot off n v bad : Nat) (dead : Bool := false) :
    LandRes :=
  let l := (s.ctx u c).slots.look {} slot
  if !s.slotOpen u c slot (if write then 0 else 1) then .notReady s
  else
    let chunks := landChunks off n
    let spots := chunks.filterMap fun e => (l.spot e.1).map fun p => (p, e.2.1, e.2.2)
    if spots.length < chunks.length then .refused s 1
    else if spots.any (fun e => match e.1 with
        | .scratch b => !s.mayLand u c b e.2.2
        | .virtual _ => false) then .refused s 2
    else if dead then .dead s
    else match s.landPlaces u c [] (if write then .write else .read) spots with
      | (s, .inl (va, f)) => .missing s va f
      | (s, .inr ps) =>
        if write && decide (l.expect < (s.ctx u c).landed.look 0 slot + n) then .refused s 5
        else match s.pieceConflict a (if write then .write else .read) ps with
          | some (i, f) =>
            let va := (spots.find? fun e => e.2.1 == i).map fun e => match e.1 with
              | .scratch b => b
              | .virtual b => b
            .conflict s (va.getD 0) f
          | none =>
            if write then
              let s := s.modCtx u c fun x => { x with landed := x.landed.put slot (x.landed.look 0 slot + n) }
              .ok (s.writePieces a v bad ps) 0 0
            else
              let (s, v, bad) := s.readPieces a ps
              .ok s v bad

/-! ### Reports (10 R298, R302, R305) -/

/-- A packet's stream and sequence are one's own. -/
def ReceiveFault.isFor (r : ReceiveFault) (p : Packet) : Bool :=
  r.sdev == p.sdev.toNat && r.stile == p.stile.toNat && r.label == p.label.toNat && r.seq == p.seq.toNat

/-- FAULT to the sender of a packet: cause, code, tag of a request, stamp found, address. Within the module it arrives at once. -/
def State.sendFault (s : State) (u : Nat) (p : Packet) (cause code tag va : Nat) (stamp : BitVec 32) : State :=
  let q := { s.header 0x14 u p.sdev.toNat p.stile.toNat p.label.toNat with
    seq := p.seq, len := 1
    payload := BitVec.ofNat 2048 (cause + code * 2 ^ 8 + tag * 2 ^ 16 + stamp.toNat * 2 ^ 32 + va * 2 ^ 64) }
  if p.sdev.toNat = s.device then s.due (.fault q) else s.post u q

/-- NACK of a packet with its retry-after (10 R298, R441). -/
def State.sendNack (s : State) (u : Nat) (p : Packet) (after : Nat) : State :=
  s.post u { s.header 0x0D u p.sdev.toNat p.stile.toNat p.label.toNat with
    seq := p.seq, len := 1, payload := BitVec.ofNat 2048 after }

/-- The remote-fault trap of a receiving context (10 R298). -/
def State.receiverTrap (s : State) (u : Nat) (c : Bool) (p : Packet) (code : Nat) : State :=
  s.pend u c { cause := 0x14, eng := 1, i0 := BitVec.ofNat 64 (p.sdev.toNat * 65536 + p.stile.toNat)
               i1 := BitVec.ofNat 64 (p.label.toNat * 65536 + p.seq.toNat), i2 := BitVec.ofNat 64 code }

/-- Bytes counted as landed without a landing, so that the phase can end (10 R298). -/
def State.countLanded (s : State) (u : Nat) (c : Bool) (slot n : Nat) : State :=
  s.modCtx u c fun x => { x with landed := x.landed.put slot (x.landed.look 0 slot + n) }

/-- The actor that a packet's sender is here (08 R235). -/
def State.packetActor (s : State) (u : Nat) (c : Bool) (p : Packet) : Actor where
  agent := if p.sdev.toNat != s.device then 0x800 + p.sdev.toNat
    else match (s.tile p.stile.toNat).kept.find? fun k =>
        k.isFor p.ddev.toNat p.dtile.toNat p.label.toNat && k.pkt.seq == p.seq with
      | some k => agentOf p.stile.toNat k.c
      | none => agentOf p.stile.toNat c
  phase := s.phaseOf u c

/-- A receive fault is logged, if it is new and there is room, with its notice (10 R302, R303, R304). -/
def State.logReceiveFault (s : State) (u : Nat) (c : Bool) (p : Packet) (va : Nat) (f : AddressFault) : State :=
  let x := s.ctx u c
  if x.rfq.any (·.2.isFor p) then s
  else match (List.range 64).find? fun k => (x.rfq.find k).isNone with
    | none => s
    | some k =>
      let e : ReceiveFault := { cause := f.cause, sdev := p.sdev.toNat, stile := p.stile.toNat, label := p.label.toNat
                                seq := p.seq.toNat, lslot := p.lslot.toNat, va := va }
      let s := s.modCtx u c fun x => { x with rfq := x.rfq.put k e }
      s.notice (dieOf u) (6 + u * 2 ^ 8 + c.toNat * 2 ^ 18 + k * 2 ^ 19 + f.cause * 2 ^ 25)

/-- The entry of a packet's receive fault freed. -/
def State.freeReceiveFault (s : State) (u : Nat) (c : Bool) (p : Packet) : State :=
  s.modCtx u c fun x => { x with rfq := x.rfq.filter fun e => !e.2.isFor p }

/-! ### Beats at the receiver (10 R313, R317, R321) -/

/-- A circuit at its receiver changed. -/
def State.modRxc (s : State) (u : Nat) (cid : BitVec 26) (f : RxCircuit → RxCircuit) : State :=
  s.mod u fun t => { t with rxc := t.rxc.map fun r => if r.cid = cid then f r else r }

/-- The deviation trap of a receiver (10 R321). -/
def State.receiverDeviates (s : State) (u : Nat) (r : RxCircuit) (i3 : Nat) : State :=
  s.pend u r.c { cause := 0x1A, eng := 1, i0 := BitVec.ofNat 64 (r.sdev * 65536 + r.stile), i1 := r.cid.setWidth 64
                 i2 := BitVec.ofNat 64 (r.slot * 2 ^ 28 + r.runUnit), i3 := BitVec.ofNat 64 i3 }

/-- The unit after one of a circuit. -/
def RxCircuit.unitAfter (r : RxCircuit) (o n : Nat) : Nat := if r.wrap = 0 then o + n else (o + n) % r.wrap

/-- The check of 10 R298 that refuses a beat: its code. -/
def State.beatRefused (s : State) (u : Nat) (r : RxCircuit) : Option Nat :=
  let x := s.ctx u r.c
  let l := x.slots.look {} r.slot
  let open_ := 64 * (r.runBeats % 16 - min (r.runBeats % 16) r.uncounted)
  if !s.slotOpen u r.c r.slot 0 then some 0
  else if l.limit ≤ r.runUnit ∨ l.space ≠ 0 then some 1
  else if !s.mayLand u r.c (l.base + 64 * r.runUnit) 64 then some 2
  else if l.expect < x.landed.look 0 r.slot + open_ + 64 then some 5
  else none

/-- A group commits: its counted bytes join LANDED, and its circuit's sender hears of it (10 R313). -/
def State.commitGroup (s : State) (u : Nat) (r : RxCircuit) (beats : Nat) : State :=
  let s := s.countLanded u r.c r.slot (64 * (beats - min beats r.uncounted))
  let s := s.modRxc u r.cid fun r => { r with uncounted := 0, runGroups := r.runGroups + 1, groups := r.groups + 1 }
  s.post u { s.header 0x0C u r.sdev r.stile r.label with
    len := 1, payload := BitVec.ofNat 2048 (r.groups + 1 + r.cid.toNat * 2 ^ 32) }

/-- A beat whose run is anchored lands at the running unit, or deviates (10 R313, R321). -/
def State.landBeat (s : State) (u : Nat) (r : RxCircuit) (v : BitVec 512) (bad : BitVec 8) : State :=
  let l := (s.ctx u r.c).slots.look {} r.slot
  let s := match s.beatRefused u r with
    | some code =>
      let s := s.receiverDeviates u r (2 + 256 * code)
      let s := if code = 5 then s else s.countLanded u r.c r.slot 64
      s.modRxc u r.cid fun r => { r with uncounted := r.uncounted + 1 }
    | none =>
      let pa := windowPA u (l.base + 64 * r.runUnit)
      (s.storePA pa 64 v.toNat).poisonBytes pa 64 (byteMaskOf bad.toNat 64)
  let s := s.modRxc u r.cid fun r => { r with runBeats := r.runBeats + 1, runUnit := r.unitAfter r.runUnit 1 }
  if (r.runBeats + 1) % 16 = 0 && !r.reported then
    match (s.tile u).rxc.find? (·.cid == r.cid) with
    | some r => s.commitGroup u r 16
    | none => s
  else s

/-- Beats that waited for the anchor of the run that now stands land, in order (10 R317). -/
def State.flushBeats (s : State) (u : Nat) (cid : BitVec 26) : Nat → State
  | 0 => s
  | fuel + 1 =>
    match (s.tile u).rxc.find? (·.cid == cid) with
    | none => s
    | some r =>
      match r.pre with
      | (n, v, bad) :: rest =>
        if n ≤ r.number && r.anchored then
          let s := s.modRxc u cid fun r => { r with pre := rest }
          (s.landBeat u { r with pre := rest } v bad).flushBeats u cid fuel
        else s
      | [] => s

/-- A packet with H has landed: it anchors a run of its stream's circuit (10 R317). -/
def State.anchor (s : State) (u : Nat) (c : Bool) (p : Packet) (n : Nat) : State :=
  match (s.tile u).rxc.find? fun r =>
      r.c == c && r.sdev == p.sdev.toNat && r.stile == p.stile.toNat && r.label == p.label.toNat && !r.cid.getLsbD 5 with
  | none => s
  | some r =>
    let s := s.modRxc u r.cid fun r => { r with
      anchored := true, number := r.number + 1, slot := p.lslot.toNat, runUnit := r.unitAfter p.off.toNat ((n + 63) / 64)
      runBeats := 0, runGroups := 0, uncounted := 0 }
    s.flushBeats u r.cid 256

/-! ### Delivery (10 R295, R298, R302, R317) -/

/-- What the delivery of the next packet of a stream does to the stream. -/
inductive Delivered where
  | advances
  /-- it is delivered and kept as faulted: it comes again -/
  | faulted
  /-- it waits where it is (a CMARK before its beats) -/
  | waits
  /-- it was refused and comes again -/
  | refused
deriving DecidableEq, Repr

/-- The outcome of a landing or a read for its packet. `n` bytes are counted where they are refused. -/
def State.settle (s : State) (u : Nat) (c : Bool) (p : Packet) (n tag : Nat) (write again : Bool) (r : LandRes) :
    State × Delivered × Option (Nat × Nat) :=
  let count := fun (s : State) => if write then s.countLanded u c p.lslot.toNat n else s
  match r with
  | .ok s v bad => (s.freeReceiveFault u c p, .advances, some (v, bad))
  | .notReady s => (s.sendNack u p 1024, if again then .faulted else .refused, none)
  | .refused s code =>
    let s := if code = 5 then s else count s
    (((s.freeReceiveFault u c p).receiverTrap u c p code).sendFault u p 0x14 code tag 0 0, .advances, none)
  | .conflict s va f =>
    ((count (s.freeReceiveFault u c p)).sendFault u p f.cause (if write then 1 else 0) tag va (BitVec.ofNat 32 f.info1), .advances, none)
  | .dead s =>
    let va := ((s.ctx u c).rfq.find? (·.2.isFor p)).elim 0 (·.2.va)
    (((count (s.freeReceiveFault u c p)).receiverTrap u c p 3).sendFault u p 0x14 3 tag va 0, .advances, none)
  | .missing s va f => (((s.recordFault u c va f).logReceiveFault u c p va f).sendNack u p 4096, .faulted, none)

/-- Data of a WRITE or WRITEM: its length, bytes and poisoned bytes (10 R293). -/
def Packet.data (p : Packet) : Nat × Nat × Nat :=
  if p.type = 2 then
    let n := bits p.payload.toNat 0 16
    (n, bits p.payload.toNat 128 (8 * n), byteMaskOf (p.bad.toNat / 4) n)
  else
    let n := 16 * p.len.toNat
    (n, bits p.payload.toNat 0 (8 * n), byteMaskOf p.bad.toNat n)

/-- The replies to a READ: data packets of up to 256 B, OFF their position (10 R293). -/
def State.sendReplies (s : State) (u : Nat) (p : Packet) (tag n v bad : Nat) : State :=
  (List.range ((n + 255) / 256)).foldl (fun s i =>
    let k := min 256 (n - 256 * i)
    s.post u { s.header 0x04 u p.sdev.toNat p.stile.toNat tag with
      off := BitVec.ofNat 28 (4 * i), len := BitVec.ofNat 5 ((k + 15) / 16)
      payload := BitVec.ofNat 2048 (bits v (2048 * i) (8 * k)), bad := BitVec.ofNat 32 (wordMask (bits bad (256 * i) k) k) }) s

/-- Beats of a circuit of this module are still on the wire. -/
def State.beatsOnWire (s : State) (u : Nat) (cid : BitVec 26) : Bool :=
  s.agenda.any fun e => match e.2 with
    | .circuitBeat v k .. => v == u && k == cid
    | _ => false

/-- CREPORT of a circuit (10 R293, R322): the groups committed of the run that stands at the receiver, and its number. -/
def State.sendReport (s : State) (u : Nat) (p : Packet) (cid : BitVec 26) (groups number : Nat) : State :=
  s.post u { s.header 0x13 u p.sdev.toNat p.stile.toNat p.label.toNat with
    seq := p.seq, len := 1, payload := BitVec.ofNat 2048 (cid.toNat + groups * 2 ^ 32 + number * 2 ^ 64) }

/-- The delivery of a CMARK: once its beats have landed it ends the run (10 R317). With A it is that of a teardown (log entry 41): once no
beat is on the wire its circuit's groups are reported, and none is committed any more (10 R322). On a torn circuit the beats of another
one may be lost, and no later run ends then. -/
def State.deliverMark (s : State) (u : Nat) (p : Packet) : State × Delivered :=
  let n := bits p.payload.toNat 0 32
  let cid := BitVec.ofNat 26 (bits p.payload.toNat 32 26)
  match (s.tile u).rxc.find? (·.cid == cid) with
  | none => (if p.fA then s.sendReport u p cid 0 0 else s, .advances)
  | some r =>
    if p.fA then
      if s.beatsOnWire u cid then (s, .waits)
      else ((s.modRxc u cid fun r => { r with torn := true, reported := true }).sendReport u p cid r.runGroups r.number, .advances)
    else if r.reported || r.stuck then (s, .advances)
    else if !r.anchored || decide (r.runBeats < n) then
      if r.torn && !s.beatsOnWire u cid then (s.modRxc u cid fun r => { r with stuck := true }, .advances) else (s, .waits)
    else
      let s := if r.runBeats % 16 = 0 then s else s.commitGroup u r (r.runBeats % 16)
      let s := s.modRxc u cid fun r => { r with runBeats := 0, runGroups := 0, uncounted := 0, number := r.number + 1 }
      (s.flushBeats u cid 256, .advances)

/-- Deliver one packet of a stream; `again`: it comes again after a receive fault. -/
def State.deliverPacket (s : State) (u : Nat) (c : Bool) (p : Packet) (again : Bool) : State × Delivered :=
  let a := s.packetActor u c p
  let dead := (s.ctx u c).rfq.any fun e => e.2.isFor p && e.2.dead
  match p.type.toNat with
  | 0x03 =>
    let n := bits p.payload.toNat 32 13
    let tag := bits p.payload.toNat 48 16
    let (s, d, got) := s.settle u c p n tag false again
      (s.landSlot u c a false p.lslot.toNat (bits p.payload.toNat 0 28) n 0 0 dead)
    match got with
    | some (v, bad) => (s.sendReplies u p tag n v bad, d)
    | none => (s, d)
  | 0x12 => s.deliverMark u p
  | _ =>
    let (n, v, bad) := Packet.data p
    let (s, d, got) := s.settle u c p n 0 true again (s.landSlot u c a true p.lslot.toNat p.off.toNat n v bad dead)
    if got.isSome && p.fH then (s.anchor u c p n, d) else (s, d)

/-! ### Streams at the receiver (10 R295, R296) -/

/-- A receiving stream is that of a packet. -/
def RxStream.isFor (r : RxStream) (p : Packet) : Bool :=
  r.sdev == p.sdev.toNat && r.stile == p.stile.toNat && r.label == p.label.toNat

/-- The receiving side of a packet's stream. -/
def State.rxOf (s : State) (u : Nat) (p : Packet) : RxStream :=
  ((s.tile u).rx.find? (·.isFor p)).getD { sdev := p.sdev.toNat, stile := p.stile.toNat, label := p.label.toNat }

/-- The receiving side of a packet's stream changed. -/
def State.modRx (s : State) (u : Nat) (p : Packet) (f : RxStream → RxStream) : State :=
  let r := f (s.rxOf u p)
  s.mod u fun t => { t with rx := t.rx.filter (fun q => !q.isFor p) ++ [r] }

/-- The last sequence that a cumulative acknowledgement covers: before the oldest faulted packet, or the last delivered. -/
def RxStream.covered (r : RxStream) : Nat :=
  let back := r.faulted.foldl (fun b q => max b ((r.seq + 65536 - q) % 65536)) 0
  (r.seq + 65535 - back) % 65536

/-- An acknowledgement of a stream (10 R296). -/
def State.sendAck (s : State) (u : Nat) (r : RxStream) : State :=
  s.post u { s.header 0x0C u r.sdev r.stile r.label with seq := BitVec.ofNat 16 r.covered }

/-- A packet has been delivered: its stream is acknowledged if it carries L or A, or is the 32nd since the last (10 R296). -/
def State.acknowledge (s : State) (u : Nat) (p : Packet) : State :=
  let r := s.rxOf u p
  if p.fL || p.fA || decide (32 ≤ r.unacked + 1) then
    (s.modRx u p fun r => { r with unacked := 0, timer := 0 }).sendAck u r
  else s.modRx u p fun r => { r with unacked := r.unacked + 1 }

/-- Deliver the packets of a stream that are next, in order. -/
def State.drainStream (s : State) (u : Nat) (c : Bool) (p : Packet) : Nat → State
  | 0 => s
  | fuel + 1 =>
    let r := s.rxOf u p
    match r.waiting.find? fun q => q.seq.toNat == r.seq with
    | none => s
    | some q =>
      let gone := fun (s : State) => s.modRx u p fun r => { r with waiting := r.waiting.filter fun w => w.seq != q.seq }
      match s.deliverPacket u c q false with
      | (s, .advances) =>
        (((gone s).modRx u p fun r => { r with seq := (r.seq + 1) % 65536 }).acknowledge u q).drainStream u c p fuel
      | (s, .faulted) =>
        ((gone s).modRx u p fun r => { r with
          seq := (r.seq + 1) % 65536, faulted := r.faulted ++ [q.seq.toNat] }).drainStream u c p fuel
      | (s, .waits) => s
      | (s, .refused) => gone s

/-- A packet of a stream arrives (10 R295, R296, R302): while its context is frozen it parks. -/
def State.receive (s : State) (p : Packet) : State :=
  let u := p.dtile.toNat
  let c := labelContext p.label.toNat
  if p.ddev.toNat != s.device then s
  else if 768 ≤ u then s.sendNack u p 1024
  else if s.frozenAt u c then s.schedule (s.cycle + 1) (arrival noLink p)
  else
    let r := s.rxOf u p
    let ahead := (p.seq.toNat + 65536 - r.seq) % 65536
    if r.faulted.contains p.seq.toNat then
      match s.deliverPacket u c p true with
      | (s, .advances) =>
        (s.modRx u p fun r => { r with faulted := r.faulted.filter (· != p.seq.toNat) }).acknowledge u p
      | (s, _) => s
    else if 32768 ≤ ahead then s.sendAck u r
    else if r.waiting.any (fun q => q.seq == p.seq) then s
    else if ahead != 0 && decide (1024 ≤ ((s.tile u).rx.map fun q => q.waiting.length).foldl (· + ·) 0) then s
    else (s.modRx u p fun r => { r with waiting := r.waiting ++ [p] }).drainStream u c p 65536

/-- WRITE (10 R293, R298). -/
def execWrite (p : Packet) (s : State) : Host.Outcome State Fault Refusal := .next (s.receive p)
/-- WRITEM (10 R293, R298). -/
def execWritem (p : Packet) (s : State) : Host.Outcome State Fault Refusal := .next (s.receive p)
/-- READ (10 R293, R298, R441). -/
def execRead (p : Packet) (s : State) : Host.Outcome State Fault Refusal := .next (s.receive p)
/-- CMARK (10 R317). -/
def execCmark (p : Packet) (s : State) : Host.Outcome State Fault Refusal := .next (s.receive p)

/-- ACK_TIMER (10 R296). -/
def execAckTimer (u sdev stile label : Nat) (s : State) : Host.Outcome State Fault Refusal :=
  let p : Packet := { sdev := BitVec.ofNat 10 sdev, stile := BitVec.ofNat 10 stile, label := BitVec.ofNat 16 label }
  let r := s.rxOf u p
  .next (if r.unacked = 0 then s else (s.modRx u p fun r => { r with unacked := 0, timer := 0 }).sendAck u r)

/-- CIRCUIT_BEAT (10 R313, R317, R321): written if its run is anchored, else kept before commit; an overrun tears the circuit. -/
def execCircuitBeat (u : Nat) (cid : BitVec 26) (n : Nat) (v : BitVec 512) (bad : BitVec 8) (late : Bool) (s : State) :
    Host.Outcome State Fault Refusal :=
  .next <|
    match (s.tile u).rxc.find? (·.cid == cid) with
    | none => s
    | some r =>
      if late then s.receiverDeviates u r 1
      else if n ≤ r.number && r.anchored && r.pre.isEmpty then
        let s := s.landBeat u r v bad
        let key : Packet := { sdev := BitVec.ofNat 10 r.sdev, stile := BitVec.ofNat 10 r.stile, label := BitVec.ofNat 16 r.label }
        -- a CMARK of any stream of the sender may now be delivered
        (s.tile u).rx.foldl (fun s q => if q.sdev = r.sdev ∧ q.stile = r.stile then
          s.drainStream u (labelContext q.label) { key with label := BitVec.ofNat 16 q.label } 65536 else s) s
      else if 256 ≤ r.pre.length ∨ 1024 ≤ ((s.tile u).rxc.map fun q => q.pre.length).foldl (· + ·) 0 then
        let s := s.modRxc u cid fun r => { r with pre := [] }
        let q := s.circuitPacket 0x11 u r.sdev r.stile cid.toNat 7 0 0 0 0
        if r.sdev = s.device then s.due (.fail q) else s.post u q
      else s.modRxc u cid fun r => { r with pre := r.pre ++ [(n, v, bad)] }

/-! ### What comes back to the sender -/

/-- A remote fault is raised in the sending context at its element; a strip still in the instruction stops (08 R253, 10
R298). `redo`: it goes on from that element and skips the others performed. -/
def State.remoteFault (s : State) (u : Nat) (c : Bool) (op elem : Nat) (redo : Bool) (t : Trap) : State :=
  let x := s.ctx u c
  let a := x.access
  let inside := a.op == some op && (a.state == 2 || a.state == 3 || a.state == 5)
  let s := if inside then
      s.modStrip u c 1 fun a => { a with
        state := 5, stall := 0, wait := 0
        done := if redo then ((a.done ++ List.range a.ust).filter (· != elem)) else a.done
        ust := if redo then min elem a.ust else a.ust }
    else s.modOp u c op fun o => { o with sig := none }
  s.pend u c { t with eng := 1, pos := a.pos, ust := elem, rank := 1 }

/-- `n` replies of a request have come: the request ends with its last. -/
def State.replied (s : State) (u tag : Nat) (n : Nat := 1) : State :=
  match (s.tile u).asked.find? fun q => q.tag == tag with
  | none => s
  | some q =>
    if q.left ≤ n then (s.mod u fun t => { t with asked := t.asked.filter fun w => w.tag != tag }).opDone u q.c q.op
    else s.mod u fun t => { t with asked := t.asked.map fun w => if w.tag = tag then { w with left := w.left - n } else w }

/-- FAULT (10 R298, 08 R238, R253). -/
def execFault (p : Packet) (s : State) : Host.Outcome State Fault Refusal :=
  let u := p.dtile.toNat
  let cause := p.field 0 1
  let code := p.field 1 1
  let tag := p.field 2 2
  let kept := (s.tile u).kept.find? fun k =>
    k.isFor p.sdev.toNat p.stile.toNat p.label.toNat && k.pkt.seq == p.seq
  let asked := (s.tile u).asked.find? fun q => q.tag == tag
  let trap := fun (addr elem : Nat) (va : Nat) =>
    if cause = 0x12 then
      ({ cause := cause, i0 := BitVec.ofNat 64 va, i1 := BitVec.ofNat 64 (p.field 4 4), i2 := BitVec.ofNat 64 code
         i3 := BitVec.ofNat 64 elem } : Trap)
    else
      { cause := cause, i0 := BitVec.ofNat 64 addr, i1 := BitVec.ofNat 64 (p.label.toNat * 65536 + p.seq.toNat)
        i2 := BitVec.ofNat 64 code, i3 := BitVec.ofNat 64 elem }
  .next <|
    match kept with
    | some k =>
      if k.pkt.type = 3 then
        let t := k.pkt.field 6 2
        match (s.tile u).asked.find? fun q => q.tag == t with
        | some q =>
          let s := s.mod u fun h => { h with asked := h.asked.filter fun w => w.tag != t }
          (s.remoteFault u q.c q.op q.elem false (trap q.va q.elem (p.field 8 8))).opDone u q.c q.op
        | none => s
      else s.remoteFault u k.c k.op k.elem false (trap k.addr k.elem (p.field 8 8))
    | none =>
      match asked with
      | some { use := .values ds, c := c, op := op, .. } =>
        -- one value of a combined read does not land; the others come with their reply
        match ds[p.seq.toNat]? with
        | some (_, elem, va) => (s.remoteFault u c op elem false (trap va elem va)).replied u tag
        | none => s
      | some q =>
        let s := s.mod u fun h => { h with asked := h.asked.filter fun w => w.tag != tag }
        let atom := match q.use with
          | .result _ => true
          | _ => false
        (s.remoteFault u q.c q.op q.elem atom (trap q.va q.elem q.va)).opDone u q.c q.op
      | none => s

/-- An acknowledged packet is let go: its part of the operation is durable; a run ended by it is complete (10 R296, R300). -/
def State.letGo (s : State) (u : Nat) (k : Kept) : State :=
  let s := if s.frozenAt u k.c || k.sentAt == 0 then s else s.sample u 2 (s.cycle - k.sentAt)
  let s := if k.op = 0 then s else s.opDone u k.c k.op
  match k.run with
  | none => s
  | some id =>
    match (s.tile u).runs.find id with
    | some r => if r.torn then s else (s.mod u fun t => { t with runs := t.runs.del id }).opDone u r.c r.op
    | none => s

/-- ACK (10 R296, R313). -/
def execAck (p : Packet) (s : State) : Host.Outcome State Fault Refusal :=
  let u := p.dtile.toNat
  .next <|
    if p.len = 0 then
      let covers := fun (k : Kept) => k.isFor p.sdev.toNat p.stile.toNat p.label.toNat && coveredBy p.seq.toNat k.pkt.seq.toNat
      let ks := (s.tile u).kept.filter covers
      let s := s.mod u fun t => { t with kept := t.kept.filter fun k => !covers k }
      ks.foldl (fun s k => s.letGo u k) (if ks.isEmpty then s else s.progress u p.sdev.toNat p.stile.toNat p.label.toNat)
    else
      match circuitSource (p.field 4 4) with
      | .meter _ => s
      | .handle c h => s.modHandle u c h fun e => { e with groups := p.field 0 4 }

/-- Bytes of a reply put into the pieces that take them: `at_` is the position of the first byte in the request. -/
def State.scatter (s : State) (u : Nat) (at_ n v bad : Nat) : Nat → List (Nat × Nat) → State
  | _, [] => s
  | start, (a, k) :: rest =>
    let lo := max start at_
    let hi := min (start + k) (at_ + n)
    let s := if lo < hi then
        let pa := windowPA u (a + (lo - start))
        (s.storePA pa (hi - lo) (bits v (8 * (lo - at_)) (8 * (hi - lo)))).poisonBytes pa (hi - lo) (bits bad (lo - at_) (hi - lo))
      else s
    s.scatter u at_ n v bad (start + k) rest

/-- RREPLY (10 R293, R301, R309): its bytes land at their stream positions. -/
def execRreply (p : Packet) (s : State) : Host.Outcome State Fault Refusal :=
  let u := p.dtile.toNat
  .next <|
    match (s.tile u).asked.find? fun q => q.tag == p.label.toNat with
    | none => s
    | some q =>
      if s.frozenAt u q.c then s.schedule (s.cycle + 1) (.rreply p)
      else match q.use with
        | .bytes dest =>
          let n := 16 * p.len.toNat
          (s.scatter u (64 * p.off.toNat) n p.payload.toNat (byteMaskOf p.bad.toNat n) 0 dest).replied u q.tag
        | _ => s

end Sys2Proof.Machine
end

