-- ==== Sys2Proof/Machine/Reduce.lean ====
section
/-!
DEFINITION. What an atomic does to its word, the contention caches, and the reduction windows (08 R250, R254 to R256; 10
R310).
-/
namespace Sys2Proof.Machine

/-! ### The new value of a word (08 R250) -/

/-- Bytes of the word of an atomic type: 0 n32, 1 i32, 2 n64, 3 i64, 4 f32, 5 bf16×2 (08 R249). -/
def atomWidth (ty : Nat) : Nat := if ty = 2 ∨ ty = 3 then 8 else 4

/-- One half of a packed BF16 sum. -/
def bf16Sum (a b : Nat) : Nat := (bf16.round 0 0 ((bf16.value a).add (bf16.value b))).bits

/-- The lesser, or greater, of two words by their type. -/
def pickWord (ty : Nat) (greater : Bool) (a b : Nat) : Nat :=
  if ty = 4 then fp32.pick greater a b
  else
    let n := 8 * atomWidth ty
    let less := if ty % 2 = 1 then decide (signedOf a n < signedOf b n) else decide (a < b)
    if less != greater then a else b

/-- The new value of a word for an operation: 0 add, 1 min, 2 max, 3 and, 4 or, 5 xor, 6 exchange, 7 compare and swap. -/
def combine (op ty old opnd cmp : Nat) : Nat :=
  match op with
  | 0 =>
    if ty = 4 then (fp32.round 0 0 ((fp32.value old).add (fp32.value opnd))).bits
    else if ty = 5 then bf16Sum (bits old 0 16) (bits opnd 0 16) + bf16Sum (bits old 16 16) (bits opnd 16 16) * 65536
    else (old + opnd) % 2 ^ (8 * atomWidth ty)
  | 1 => pickWord ty false old opnd
  | 2 => pickWord ty true old opnd
  | 3 => old &&& opnd
  | 4 => old ||| opnd
  | 5 => old ^^^ opnd
  | 6 => opnd
  | _ => if old = cmp then opnd else old

/-- The outcome of an atomic at its home: the old value, or the cause that leaves the word unchanged, with the stamp found. -/
inductive Performed where
  | old (v : Nat)
  | fault (cause : Nat) (stamp : BitVec 32)
deriving DecidableEq, Repr

/-- One atomic performed on a word of this module's HBM or of host memory (08 R237, R247, R250, R253). -/
def State.performAtom (s : State) (a : Actor) (p : Place) (op ty opnd cmp : Nat) : State × Performed :=
  let n := atomWidth ty
  let s := s.scrub a.agent p.pa n
  match s.stampConflict p.tracked a.agent a.phase .atomic p.pa n with
  | some f => (s, .fault f.cause (BitVec.ofNat 32 f.info1))
  | none =>
    if (s.firstPoison p.pa n).isSome then (s, .fault 0x13 0)
    else
      let old := s.loadPA p.pa n
      let s := (s.storePA p.pa n (combine op ty old opnd cmp) (some a.agent)).stampLines p.tracked a.agent a.phase .atomic p.pa n
      (s.tellHost p.pa, .old old)

/-! ### Contention caches (08 R256) -/

/-- The die of a page of 64 KiB. -/
def dieOfPage (page : Nat) : Nat := page / 2 ^ 22 % 4

/-- The entry of a page after an atomic of device `d`. -/
def Contention.count (e : Contention) (d now : Nat) : Contention :=
  let e := { e with used := now }
  if e.cand = d then { e with cnt := min (e.cnt + 1) 255 }
  else if e.cnt = 0 then { e with cand := d, cnt := 1 }
  else { e with cnt := e.cnt - 1 }

/-- A remote atomic to a tracked page is counted: a new entry replaces the least recently used HOME entry of its die, and a
page that reaches 64 migrates while fewer than 1,024 have. -/
def State.countContention (s : State) (d pa : Nat) : State :=
  let page := pa / 65536
  let here := s.contention.filter fun e => dieOfPage e.page == dieOfPage page
  let rest := s.contention.filter fun e => e.page != page
  match s.contention.find? fun e => e.page == page with
  | some e =>
    let e := e.count d s.cycle
    let moves := decide (64 ≤ e.cnt) && !e.migrated && decide ((here.filter (·.migrated)).length < 1024)
    { s with contention := rest ++ [{ e with migrated := e.migrated || moves }] }
  | none =>
    let fresh : Contention := { page := page, cand := d, cnt := 1, migrated := false, used := s.cycle }
    if here.length < 4096 then { s with contention := s.contention ++ [fresh] }
    else
      match (here.filter (fun e => !e.migrated)).foldl (fun (b : Option Contention) e => match b with
          | some v => if e.used < v.used then some e else some v
          | none => some e) none with
      | some v => { s with contention := (s.contention.filter (· != v)) ++ [fresh] }
      | none => s

/-- Every entry returns to HOME with a count of 0 as an exchange phase ends. -/
def State.clearContention (s : State) : State :=
  { s with contention := s.contention.map fun e => { e with cnt := 0, migrated := false } }

/-! ### Reduction windows (08 R254, R255) -/

/-- HOME of a window. -/
def State.windowHome (s : State) (w : Nat) : Nat := ((s.redwin.look 0 (4 * w)).extractLsb' 40 10).toNat

/-- JOB of a window. -/
def State.windowJob (s : State) (w : Nat) : BitVec 32 := (s.redwin.look 0 (4 * w + 1)).extractLsb' 32 32

/-- A window is in use. -/
def State.windowValid (s : State) (w : Nat) : Bool := (s.redwin.look 0 (4 * w)).getLsbD 63

/-- The reduction window of a job that holds a physical address, if any. -/
def State.windowAt (s : State) (job : BitVec 32) (pa : Nat) : Option Nat :=
  let dev := if pa / 2 ^ 52 = 2 then bits pa 40 10 else s.device
  if pa / 2 ^ 52 != 0 && pa / 2 ^ 52 != 2 then none
  else (List.range 8).find? fun w =>
    let base := ((s.redwin.look 0 (4 * w)).extractLsb' 16 24).toNat
    let size := ((s.redwin.look 0 (4 * w + 1)).extractLsb' 0 16).toNat
    s.windowValid w && s.windowJob w == job && s.windowHome w == dev && decide (base ≤ bits pa 16 24)
      && decide (bits pa 16 24 < base + size)

/-- A RED packet to a device: kind 0 a contribution, 1 a flush, 2 delivered, 3 a fault (log entry 9). -/
def State.redPacket (s : State) (dev kind : Nat) (m : Merged) (unit1 : Nat) : Packet :=
  { s.header 0x0B m.tile dev 0x3FC 0 with
    len := 2
    payload := BitVec.ofNat 2048 (kind + m.w * 2 ^ 8 + m.op * 2 ^ 16 + m.type * 2 ^ 24 + m.tile * 2 ^ 32 + m.word * 2 ^ 64
      + m.tracked.toNat * 2 ^ 127 + unit1 * 2 ^ 128) }

/-- The plane of a job's barrier tree, whatever the state of its port (01 R36). -/
def State.barrierPlane (s : State) (job : BitVec 32) : Option Nat :=
  match s.jobSlot job with
  | some j => some (s.job j).bplane
  | none => s.planeAfter 71

/-- A RED packet leaves on the barrier plane of its window's job. -/
def State.sendRed (s : State) (w : Nat) (p : Packet) : State := s.carryPacket s.cycle (s.barrierPlane (s.windowJob w)) p

/-- A record of this module joins its window: one more part of its operation, which goes through its tile's injection port
(08 R255, 10 R300, R310). The module keeps it, so that its own packet adds nothing at a home here. -/
def State.mergeRecord (s : State) (m : Merged) : State :=
  let s := { s with merged := s.merged ++ [m] }
  let s := s.opPart m.tile m.c m.opId
  s.inject m.tile (s.barrierPlane (s.windowJob m.w)) (s.redPacket (s.windowHome m.w) 0 m m.opnd.toNat)

/-- The flush of a window by a device; with the last of its contributors' flushes the window delivers. -/
def State.flushWindow (s : State) (w dev : Nat) : State :=
  let s := { s with flushes := s.flushes ++ [(w, dev)] }
  if s.windowHome w != s.device then
    s.sendRed w (s.redPacket (s.windowHome w) 1
      { w := w, dev := dev, tile := 0, word := 0, op := 0, type := 0, opnd := 0, opId := 0, c := false } 0)
  else if ((s.redwin.look 0 (4 * w + 2)).extractLsb' 0 10).toNat ≤ (s.flushes.filter (·.1 == w)).length then
    s.due (.reductionDelivery w)
  else s

/-- Numbers in rising order, each once. -/
def rising (ns : List Nat) : List Nat := (ns.foldl (fun (t : Tab Unit) n => t.put n ()) []).map (·.1)

/-- The records of a word in the order of 08 R255: contributors by device, then tiles, then issue order. -/
def inOrder (ms : List Merged) : List Merged :=
  (rising (ms.map (·.dev))).flatMap fun d =>
    let ds := ms.filter (·.dev == d)
    (rising (ds.map (·.tile))).flatMap fun t => ds.filter (·.tile == t)

/-- The value of merged records. -/
def mergedValue : List Merged → Nat
  | [] => 0
  | m :: ms => ms.foldl (fun v e => combine e.op e.type v e.opnd.toNat 0) m.opnd.toNat

/-- A fault of a word raised at one contributing record's tile. -/
def State.mergedFault (s : State) (cause : Nat) (st : BitVec 32) (m : Merged) : State :=
  if m.dev = s.device then
    let t : Trap := if cause = 0x12 then
        { cause := cause, i0 := BitVec.ofNat 64 m.va, i1 := BitVec.ofNat 64 st.toNat, i2 := 2, i3 := BitVec.ofNat 64 m.elem }
      else { cause := cause, i0 := BitVec.ofNat 64 m.va, i2 := 0, i3 := BitVec.ofNat 64 m.elem }
    s.remoteFault m.tile m.c m.opId m.elem false t
  else s.sendRed m.w (s.redPacket m.dev 3 m (cause + st.toNat * 256))

/-- The records of one word delivered at HOME as one atomic, or refused at every contributing tile. -/
def State.deliverWord (s : State) (phase : Nat) (ms : List Merged) : State :=
  match ms with
  | [] => s
  | m :: _ =>
    let tiles := (ms.map fun e => (e.dev, e.tile)).eraseDups.filterMap fun k => ms.find? fun e => (e.dev, e.tile) == k
    if ms.any fun e => e.op != m.op || e.type != m.type then tiles.foldl (fun s e => s.mergedFault 0x14 0 e) s
    else
      match s.performAtom { agent := 0xFFE, phase := phase } { pa := m.word, tracked := m.tracked } m.op m.type (mergedValue ms) 0 with
      | (s, .old _) => s
      | (s, .fault cause st) => tiles.foldl (fun s e => s.mergedFault cause st e) s

/-- The records of a window leave: those of this module complete their parts. -/
def State.windowDone (s : State) (w : Nat) : State :=
  let own := s.merged.filter fun m => m.w == w && m.dev == s.device
  let s := { s with merged := s.merged.filter (·.w != w), delivered := s.delivered ++ [w] }
  own.foldl (fun s m => s.opDone m.tile m.c m.opId) s

/-- REDUCTION_DELIVERY (08 R255): every touched word of the window is delivered, and the contributors hear of it. -/
def execReductionDelivery (w : Nat) (s : State) : Host.Outcome State Fault Refusal :=
  let phase := match s.jobSlot (s.windowJob w) with
    | some j => (s.job j).phase
    | none => 0
  let ms := inOrder (s.merged.filter (·.w == w))
  let words := (ms.map (·.word)).eraseDups
  let s := words.foldl (fun s a => s.deliverWord phase (ms.filter (·.word == a))) s
  let devs := ((s.flushes.filter (·.1 == w)).map (·.2)).filter (· != s.device)
  let s := devs.foldl (fun s d => s.sendRed w (s.redPacket d 2
    { w := w, dev := d, tile := 0, word := 0, op := 0, type := 0, opnd := 0, opId := 0, c := false } 0)) s
  .next (s.windowDone w)

/-- RED (08 R255, 10 R310): a contribution or a flush at the window's home; at a contributor, delivery or a fault. -/
def execRed (p : Packet) (s : State) : Host.Outcome State Fault Refusal :=
  let w := p.field 1 1 % 8
  let m : Merged :=
    { w := w, dev := p.sdev.toNat, tile := p.field 4 4, word := p.field 8 8 % 2 ^ 63, op := p.field 2 1, type := p.field 3 1
      opnd := BitVec.ofNat 64 (p.field 16 8), opId := 0, c := false, tracked := p.payload.getLsbD 127 }
  .next <|
    match p.field 0 1 with
    | 0 => if m.dev = s.device then s else { s with merged := s.merged ++ [m] }
    | 1 => s.flushWindow w p.sdev.toNat
    | 2 => s.windowDone w
    | _ =>
      match s.merged.find? fun e => e.w == w && e.dev == s.device && e.tile == m.tile && e.word == m.word with
      | some e => s.mergedFault (p.field 16 1) (BitVec.ofNat 32 (p.field 17 4)) e
      | none => s

end Sys2Proof.Machine
end

