-- ==== Sys2Proof/Machine/Transfers.lean ====
section
/-!
DEFINITION. The X-class transfers of the access strip, and the packets of combined reads and of routing counters (10 R300,
R301, R306 to R310, R321; 12 R360, R361).
-/
namespace Sys2Proof.Machine

/-! ### Route records (10 R300) -/

/-- The mask of the record bits [lo, lo + n). -/
def recordBits (lo n : Nat) : Nat := 2 ^ (lo + n) - 2 ^ lo

/-- DDEV, DTILE, LABEL, SLOT and OFFSET. -/
def routeFields : Nat := recordBits 0 10 + recordBits 16 10 + recordBits 32 16 + recordBits 48 4 + recordBits 64 28
/-- J. -/
def jField : Nat := recordBits 52 4
/-- LABEL. -/
def labelField : Nat := recordBits 32 16
/-- VA, over bytes 0 to 7. -/
def vaField : Nat := recordBits 0 51
/-- A scratchpad offset in WORD. -/
def wordField : Nat := recordBits 96 21

/-- The record of the transfer in progress. -/
def State.record (s : State) : Nat := s.strip.record.toNat
/-- DDEV of a record. -/
def recDdev (r : Nat) : Nat := bits r 0 10
/-- DTILE. -/
def recDtile (r : Nat) : Nat := bits r 16 10
/-- LABEL. -/
def recLabel (r : Nat) : Nat := bits r 32 16
/-- SLOT. -/
def recSlot (r : Nat) : Nat := bits r 48 4
/-- J. -/
def recJ (r : Nat) : Nat := bits r 52 4
/-- OFFSET. -/
def recOffset (r : Nat) : Nat := bits r 64 28
/-- WORD. -/
def recWord (r : Nat) : Nat := bits r 96 32
/-- VA. -/
def recVa (r : Nat) : Nat := bits r 0 51

/-- The record of `n` bytes at scratchpad offset `a`, in a CORE or XCHG bank of the context, or what stops the transfer. -/
def State.readRecord (s : State) (a n : Nat) : StripRes ⊕ State × Nat :=
  let t := s.here
  let b := bankOf a
  let pa := windowPA s.cur.unit a
  if t.bankOwner b != s.bank || !(t.role b == 0 || t.role b == 4) || inSpill t.dual a n then .inl (.trap s (localTrap a) none)
  else
    let s := s.scrub (agentOf s.cur.unit s.bank) pa n
    match s.firstPoison pa n with
    | some w => .inl (.trap s (dataError 1 (w % 2 ^ 22)) none)
    | none => .inr (s, s.loadPA pa n)

/-! ### Issue (08 R244; 10 R300) -/

/-- An operation of a context is durable. -/
def Op.isDurable (o : Op) : Bool := o.closed && o.left == 0

/-- A later X-class transfer or atomic waits: for one with ORD in progress, or, with ORD itself, for all earlier ones. -/
def Ctx.orderWaits (x : Ctx) (ord : Bool) : Bool :=
  x.ops.any fun o => !o.stream && !o.rel && !o.isDurable && (ord || o.ord)

/-- A transfer begins at its first micro-step: its order, its record of which it names `names`, its operation. `j`: a second
descriptor's cursor is noted. -/
def State.beginTransfer (s : State) (o : AXForm) (names : Nat) : StripRes ⊕ State :=
  if s.strip.op.isSome then .inr s
  else if s.me.orderWaits (o.aux.getLsbD 2) then .inl (.wait 7 0 s)
  else match s.readRecord (o.imm.toNat * 16) 16 with
    | .inl r => .inl r
    | .inr (s, r) =>
      if r &&& (2 ^ 128 - 1 - names) != 0 then .inl (.trap s s.operandTrap none)
      else
        let (s, id) := s.newOp s.cur.unit s.bank 0 (sigOf o) false false false (o.aux.getLsbD 2)
        .inr (s.modMyStrip fun t => { t with
          op := some id, record := BitVec.ofNat 128 r, start := s.cursor o.ds.toNat, start2 := s.cursor (bits r 52 4) })

/-- The number of the operation in progress. -/
def State.opId (s : State) : Nat := s.strip.op.getD 0

/-- A transfer of `last` micro-steps in an exchange phase; `body` is one element's. -/
def transfer (h : StripHead) (o : AXForm) (names : Nat) (last : State → Nat) (body : State → StripRes) (s : State) :
    Host.Outcome State Fault Refusal :=
  stripMany h inExchangeOnly last (fun s =>
    match s.beginTransfer o names with
    | .inl r => r
    | .inr s => body s) s

/-- The micro-step of an element ends; the last one ends the instruction, whose parts are then all sent. -/
def State.elementDone (s : State) (last cycles : Nat) : StripRes :=
  if s.strip.ust + 1 < last then .micro s cycles
  else .done (s.opClosed s.cur.unit s.bank s.opId) (cycles - 1)

/-- CNT + 1. -/
def elementsOf (o : AXForm) : Nat := o.cnt.toNat + 1

/-! ### Elements (09 R277; 10 R301) -/

/-- A fault of a virtual element (09 R281, 08 R238). -/
def addressTrap (f : AddressFault) (kind : Nat) (va : Int) (k i : Nat) : Trap :=
  { cause := f.cause, i0 := BitVec.ofInt 64 (f.address va)
    i1 := BitVec.ofNat 64 (if f.cause = 0x12 ∨ (f.cause = 0x11 ∧ f.info1 ≠ 0) then f.info1 else k)
    i2 := BitVec.ofNat 64 (if f.cause = 0x12 then kind else 0), i3 := BitVec.ofNat 64 i }

/-- The pieces of [va, va + n) within pages of 4 KiB: address, first byte, length. -/
def pagePieces (va n : Nat) : List (Spot × Nat × Nat) :=
  (List.range (n / 4096 + 2)).filterMap fun i =>
    let lo := if i = 0 then va else (va / 4096 + i) * 4096
    let hi := min (va + n) ((va / 4096 + i + 1) * 4096)
    if lo < hi then some (.virtual lo, lo - va, hi - lo) else none

/-- A source element read: its bytes with the poisoned ones, or its trap. -/
inductive Element where
  | bytes (s : State) (v bad : Nat)
  | trap (s : State) (t : Trap)

/-- Element `i` of the instruction, of `n` bytes, at address `a` of descriptor `k`; `own`: virtual memory must be this module's
HBM (10 R301). -/
def State.sourceBytes (s : State) (k : Nat) (a : Int) (n i : Nat) (own : Bool) : Element :=
  let u := s.cur.unit
  if descSpace (s.desc k) = 0 then
    if s.badLocal a n then .trap s (feedTrap 0x08 a k i)
    else
      let pa := windowPA u a.toNat
      let s := s.scrub (agentOf u s.bank) pa n
      .bytes s (s.loadPA pa n) (s.poisonMask pa n)
  else if a < 0 ∨ 2 ^ 51 < a.toNat + n then .trap (s.recordFault u s.bank a.toNat badVirtual) (addressTrap badVirtual 0 a k i)
  else
    match s.landPlaces u s.bank s.strip.ahead .read (pagePieces a.toNat n) with
    | (s, .inl (va, f)) => .trap (s.recordFault u s.bank va f) (addressTrap f 0 va k i)
    | (s, .inr ps) =>
      if own && ps.any fun e => decide (2 ^ 40 ≤ e.1.pa) then
        .trap s (addressTrap { cause := 0x11, info1 := 6, recorded := false } 0 a k i)
      else match s.pieceConflict (s.actor u s.bank) .read ps with
        | some (at_, f) => .trap s (addressTrap f 0 (a + at_) k i)
        | none =>
          let (s, v, bad) := (s.readSample u).readPieces (s.actor u s.bank) (ps.map fun e => (e.1, e.2.1, e.2.2))
          .bytes s v bad

/-- Element `i` of descriptor `k` from cursor `start`. -/
def State.sourceElement (s : State) (k start i : Nat) (own : Bool) : Element :=
  s.sourceBytes k (descAddr (s.desc k) (start + i)) (descElen (s.desc k)) i own

/-- An element that says where others go: a poisoned one is a data error (07 R220). -/
def State.controlElement (s : State) (k start i : Nat) : Element :=
  match s.sourceElement k start i false with
  | .bytes s v bad =>
    if bad = 0 then .bytes s v 0
    else .trap s { dataError 1 ((descAddr (s.desc k) (start + i)).toNat % 2 ^ 51 / 8 * 8) with i3 := BitVec.ofNat 64 i }
  | r => r

/-- A destination element of `n` bytes lies in XCHG banks. -/
def State.mayReceive (s : State) (a : Int) (n : Nat) : Bool := 0 ≤ a && s.mayLand s.cur.unit s.bank a.toNat n

/-- A reserved operand found at element `i`. -/
def State.elementOperand (s : State) (i : Nat) : Trap := { s.operandTrap with i3 := BitVec.ofNat 64 i }

/-- A trace entry of an X-class element (14 R408). -/
def State.traceX (s : State) (a : Int) : State := s.traceElements 3 [(a % (2 ^ 51 : Nat)).toNat]

/-! ### Bytes into packets (10 R293, R300) -/

/-- How `rest` bytes of a stream go: the lengths of its packets. -/
def packetLengths : Nat → Nat → Bool → List Nat
  | 0, _, _ => []
  | fuel + 1, rest, ended =>
    let n := nextLength rest ended
    if n = 0 then [] else n :: packetLengths fuel (rest - n) ended

/-- The same where the region wraps: no packet passes its end (10 R321). -/
def wrapLengths (wrap : Nat) : Nat → Nat → Nat → Bool → List Nat
  | 0, _, _, _ => []
  | fuel + 1, pos, rest, ended =>
    let n := min (nextLength rest ended) (64 * (wrap - pos))
    if n = 0 then [] else n :: wrapLengths wrap fuel ((pos + n / 64) % wrap) (rest - n) ended

/-- Packets of the lengths from the low bytes of `v`, the first at unit `off`, each to unit `place off`; `k` gives the packet
whose first byte is byte `b` of `v`. -/
def State.sendPieces (s : State) (u : Nat) (k : Nat → Kept) (lslot : Nat) (metered ended : Bool) (place : Nat → Nat) :
    Nat → Nat → Nat → Nat → List Nat → State
  | _, _, _, _, [] => s
  | b, off, v, bad, n :: ns =>
    let p := dataPacket (k b).pkt lslot (place off) n (bits v 0 (8 * n)) (wordMask (bits bad 0 n) n) (ended && ns.isEmpty)
    let places := (List.range (n / 64)).map fun j => ((k (b + 64 * j)).elem, (k (b + 64 * j)).addr)
    let s := if metered then s.sendMetered u { k b with pkt := p, places := places } else s.sendOrdered u { k b with pkt := p } true
    s.sendPieces u k lslot metered ended place (b + n) (off + n / 64) (v / 2 ^ (8 * n)) (bad / 2 ^ n) ns

/-- Cycles that a micro-step lasts until the flits it sent have entered the port (10 R300). -/
def State.portCycles (before after : State) : Nat :=
  let p := (after.tile before.cur.unit).portFree
  if p = (before.tile before.cur.unit).portFree then 1 else max 1 (p - before.cycle)

/-- Where the packets of a stream go. -/
structure Target where
  ddev : Nat
  dtile : Nat
  label : Nat
  lslot : Nat
  /-- the first unit -/
  off : Nat
  /-- the wrap of its units; 0: none -/
  wrap : Nat := 0
  metered : Bool

/-- One element of a stream sent to a target: its bytes join those carried, and full packets leave (10 R293, R301). -/
def State.streamElement (s : State) (k last : Nat) (own : Bool) (g : Target) : StripRes :=
  let t := s.strip
  let i := t.ust
  let d := s.desc k
  let n := descElen d
  match s.sourceElement k t.start i own with
  | .trap s f => .trap s f none
  | .bytes m v bad =>
    let ended := last ≤ i + 1
    let total := t.carryLen + n
    let first := g.off + (i * n - t.carryLen) / 64
    let lens := if g.wrap = 0 then packetLengths 32 total ended else wrapLengths g.wrap 160 (first % g.wrap) total ended
    if !s.canSend s.cur.unit g.ddev g.dtile g.label lens.length then .wait 7 0 s
    else
      let u := s.cur.unit
      let v := t.carry.toNat + v * 2 ^ (8 * t.carryLen)
      let bad := t.carryBad.toNat + bad * 2 ^ t.carryLen
      let a := descAddr d (t.start + i)
      let key := fun (b : Nat) =>
        let e := (i * n - t.carryLen + b) / n
        ({ pkt := s.header 1 u g.ddev g.dtile g.label, c := s.bank, op := s.opId, elem := e
           addr := (descAddr d (t.start + e) % (2 ^ 64 : Nat)).toNat } : Kept)
      let place := fun (o : Nat) => if g.wrap = 0 then o else o % g.wrap
      let m := (m.traceX a).sendPieces u key g.lslot g.metered ended place 0 first v bad lens
      let sent := lens.foldl (· + ·) 0
      let m := (m.modMyStrip fun q => { q with
        carry := BitVec.ofNat 8192 (v / 2 ^ (8 * sent)), carryBad := BitVec.ofNat 1024 (bad / 2 ^ sent)
        carryLen := total - sent }).setCursor k (t.start + i + 1)
      let m := if ended && g.metered then m.endRuns u else m
      m.elementDone last (State.portCycles s m)

/-- XPUT (10 R301). -/
def execXput (h : StripHead) (o : AXForm) (s : State) : Host.Outcome State Fault Refusal :=
  transfer h o routeFields (fun _ => elementsOf o) (fun s =>
    match s.descStop o.ds.toNat with
    | some r => r
    | none =>
      let r := s.record
      if descSpace (s.desc o.ds.toNat) = 1 then .trap s s.operandTrap none
      else s.streamElement o.ds.toNat (elementsOf o) true
        { ddev := recDdev r, dtile := recDtile r, label := recLabel r, lslot := recSlot r, off := recOffset r, metered := true }) s

/-- XSEND (10 R301): the mailboxes go in one packet with the first micro-step. -/
def execXsend (h : StripHead) (o : AXForm) (s : State) : Host.Outcome State Fault Refusal :=
  let n := elementsOf o
  transfer h o routeFields (fun _ => n) (fun s =>
    let u := s.cur.unit
    let r := s.record
    if s.strip.ust != 0 then s.elementDone n 1
    else if !s.canSend u (recDdev r) (recDtile r) (recLabel r) 1 then .wait 7 0 s
    else
      let s := s.scrub (agentOf u s.bank) (windowPA u (accessMailbox s.bank 0)) (8 * n)
      let v := (List.range n).foldl (fun v i => v + (s.me.access.mailbox.look 0 i).toNat * 2 ^ (64 * i)) 0
      let bad := s.poisonMask (windowPA u (accessMailbox s.bank 0)) (8 * n)
      let key : Kept := { pkt := s.header 1 u (recDdev r) (recDtile r) (recLabel r), c := s.bank, op := s.opId, elem := 0 }
      let m := s.sendPieces u (fun _ => key) (recSlot r) false true id 0 (recOffset r) v bad [8 * n]
      m.elementDone n (State.portCycles s m)) s

/-! ### Reads (10 R301, R309) -/

/-- A request of the acting context: one more part of its operation. -/
def State.ask (s : State) (elem va left : Nat) (use : ReplyUse) : State × Nat :=
  let u := s.cur.unit
  let tag := (s.here.nextTag + 1) % 65536
  let q : Asked := { tag := tag, c := s.bank, op := s.opId, elem := elem, va := va, left := left, use := use }
  ((s.modHere fun t => { t with nextTag := tag, asked := t.asked ++ [q] }).opPart u s.bank s.opId, tag)

/-- A READ of `n` bytes from unit `off` of a remote slot; its bytes go to the pieces; its element is at `va` (10 R293, R441). -/
def State.sendRead (s : State) (ddev dtile label lslot off n elem va : Nat) (ended : Bool) (dest : List (Nat × Nat)) : State :=
  let u := s.cur.unit
  let (s, tag) := s.ask elem va ((n + 255) / 256) (.bytes dest)
  let p := { s.header 0x03 u ddev dtile label with
    lslot := BitVec.ofNat 4 lslot, len := 1, fL := ended
    payload := BitVec.ofNat 2048 (off % 2 ^ 28 + n * 2 ^ 32 + tag * 2 ^ 48) }
  s.sendOrdered u { pkt := p, c := s.bank, op := s.opId, elem := elem, addr := va } false

/-- The pieces of scratchpad that bytes [lo, hi) of a destination stream take. -/
def streamPieces (d : BitVec 2048) (start lo hi : Nat) : List (Nat × Nat) :=
  let n := descElen d
  (List.range ((hi + n - 1) / n - lo / n)).map fun j =>
    let e := lo / n + j
    let b0 := max lo (e * n)
    let b1 := min hi ((e + 1) * n)
    ((descAddr d (start + e)).toNat + (b0 - e * n), b1 - b0)

/-- XGET (10 R301): one READ for each 4,096 B. -/
def execXget (h : StripHead) (o : AXForm) (s : State) : Host.Outcome State Fault Refusal :=
  let k := o.ds.toNat
  let last := elementsOf o
  transfer h o routeFields (fun _ => last) (fun s =>
    match s.descStop k with
    | some r => r
    | none =>
      let d := s.desc k
      let t := s.strip
      let i := t.ust
      let n := descElen d
      let a := descAddr d (t.start + i)
      let r := s.record
      if descSpace d != 0 then .trap s s.operandTrap none
      else if !s.mayReceive a n then .trap s (feedTrap 0x08 a k i) none
      else if !s.canSend s.cur.unit (recDdev r) (recDtile r) (recLabel r) 2 then .wait 7 0 s
      else
        let first := i * n - t.carryLen
        let total := t.carryLen + n
        let read := fun (s : State) (lo len : Nat) =>
          s.sendRead (recDdev r) (recDtile r) (recLabel r) (recSlot r) (recOffset r + lo / 64) len (lo / n)
            (descAddr d (t.start + lo / n)).toNat (lo + len == last * n) (streamPieces d t.start lo (lo + len))
        let m := s.traceX a
        let m := if 4096 ≤ total then read m first 4096 else m
        let rest := if 4096 ≤ total then total - 4096 else total
        let m := if last ≤ i + 1 ∧ rest ≠ 0 then read m (first + total - rest) rest else m
        ((m.modMyStrip fun q => { q with carryLen := rest }).setCursor k (t.start + i + 1)).elementDone last 1) s

/-- No element after element `i` of `last` satisfies `p`; one that cannot be read might (10 R293). -/
def State.noneAfter (s : State) (k start i last : Nat) (p : Nat → Bool) : Bool :=
  (List.range (last - (i + 1))).all fun j => match s.controlElement k start (i + 1 + j) with
    | .bytes _ x _ => !p x
    | .trap .. => false

/-- XCOMB (10 R309): one READ for each receipt; both cursors move on at issue. -/
def execXcomb (h : StripHead) (o : AXForm) (s : State) : Host.Outcome State Fault Refusal :=
  let k := o.ds.toNat
  let last := elementsOf o
  transfer h o (jField + labelField) (fun _ => last) (fun s =>
    let r := s.record
    let j := recJ r
    match s.descStop k, s.descStop j with
    | some r, _ => r
    | none, some r => r
    | none, none =>
      let dj := s.desc j
      if descSpace (s.desc k) = 1 || descElen (s.desc k) != 8 || descSpace dj != 0 then .trap s s.operandTrap none
      else
        let t := s.strip
        let i := t.ust
        match s.controlElement k t.start i with
        | .trap s f => .trap s f none
        | .bytes m v _ =>
          let m := if i = 0 then (m.setCursor k (t.start + last)).setCursor j (t.start2 + last) else m
          if v = 2 ^ 64 - 1 then m.elementDone last 1
          else
            let n := descElen dj
            let a := descAddr dj (t.start2 + i)
            if !s.mayReceive a n then .trap s (feedTrap 0x08 a j i) none
            else if !s.canSend s.cur.unit (bits v 0 10) (bits v 10 10) (recLabel r) 1 then .wait 7 0 s
            else
              -- the last READ to its destination
              let ended := m.noneAfter k t.start i last fun x => x != 2 ^ 64 - 1 && bits x 0 20 == bits v 0 20
              ((m.traceX a).sendRead (bits v 0 10) (bits v 10 10) (recLabel r) (bits v 48 4) (bits v 20 28) ((n + 63) / 64 * 64) i a.toNat
                ended [(a.toNat, n)]).elementDone last 1) s

/-- XSCAT (10 R301): row i of dJ, from its cursor on, goes to the unit that index i names. -/
def execXscat (h : StripHead) (o : AXForm) (s : State) : Host.Outcome State Fault Refusal :=
  let k := o.ds.toNat
  let last := elementsOf o
  transfer h o (routeFields + jField) (fun _ => last) (fun s =>
    let r := s.record
    let j := recJ r
    match s.descStop k, s.descStop j with
    | some r, _ => r
    | none, some r => r
    | none, none =>
      let dj := s.desc j
      if descSpace (s.desc k) = 1 || descElen (s.desc k) != 4 || descSpace dj = 1 then .trap s s.operandTrap none
      else
        let u := s.cur.unit
        let t := s.strip
        let i := t.ust
        match s.controlElement k t.start i with
        | .trap s f => .trap s f none
        | .bytes m x _ =>
          let move := fun (m : State) => (m.setCursor k (t.start + i + 1)).setCursor j (t.start2 + i + 1)
          let close := fun (m : State) => if last ≤ i + 1 then m.endRuns u else m
          if x = 0xFFFFFFFF then (close (move m)).elementDone last 1
          else
            let n := descElen dj
            match m.sourceElement j t.start2 i false with
            | .trap s f => .trap s f none
            | .bytes m v bad =>
              let lens := packetLengths 8 n true
              if !s.canSend u (recDdev r) (recDtile r) (recLabel r) lens.length then .wait 7 0 s
              else
                let a := descAddr dj (t.start2 + i)
                -- no later index sends a row
                let ended := m.noneAfter k t.start i last (· != 0xFFFFFFFF)
                let key : Kept := { pkt := s.header 1 u (recDdev r) (recDtile r) (recLabel r), c := s.bank, op := s.opId, elem := i
                                    addr := (a % (2 ^ 64 : Nat)).toNat }
                let m := (m.traceX a).sendPieces u (fun _ => key) (recSlot r) true ended id 0 (recOffset r + x * ((n + 63) / 64)) v bad lens
                let m := close (move m)
                m.elementDone last (State.portCycles s m)) s

/-! ### Circuits (10 R321) -/

/-- The pieces of the source stream that beat `b` takes. -/
def beatPieces (d : BitVec 2048) (start b : Nat) : List (Nat × Nat) := streamPieces d start (64 * b) (64 * b + 64)

/-- XCIR on a READY handle: every element is checked, then the run departs from local phase cycle WORD on. -/
def State.launchRun (s : State) (k n h : Nat) (r : Nat) : StripRes :=
  let u := s.cur.unit
  let c := s.bank
  let d := s.desc k
  let start := s.strip.start
  match (List.range n).find? fun i => s.badLocal (descAddr d (start + i)) (descElen d) with
  | some i => .trap s (feedTrap 0x08 (descAddr d (start + i)) k i) none
  | none =>
    let e := s.handle u c h
    let id := s.here.nextRun
    let run : TxRun :=
      { src := .handle c h, op := s.opId, c := c, number := e.number, ddev := e.ddev, dtile := e.dtile, lslot := e.slot
        unit := e.runUnit, wrap := e.wrap, source := (List.range (n * descElen d / 64)).map (beatPieces d start)
        word := some (recWord r), label := recLabel r, late := decide (recWord r < s.me.localCycle), last := true
        elen := max 1 (descElen d) }
    let m := (s.traceX (descAddr d start)).modHere fun t => { t with runs := t.runs.put id run, nextRun := id + 1 }
    let m := (m.opPart u c s.opId).nextRun_ u run run.total
    let m := m.modHandle u c h fun e => { e with label := recLabel r }
    let m := m.scheduleBeat u id (s.cycle + (recWord r - s.me.localCycle))
    (m.setCursor k (start + n)).elementDone 1 1

/-- XCIR (10 R321): on a TORN handle its stream goes to the circuit's slot and units on the packet plane. -/
def execXcir (h : StripHead) (o : AXForm) (s : State) : Host.Outcome State Fault Refusal :=
  let k := o.ds.toNat
  let n := elementsOf o
  let record := fun (s : State) => match s.strip.op with
    | some _ => s.record
    | none => s.loadPA (windowPA s.cur.unit (o.imm.toNat * 16)) 16
  let handleIn := fun (s : State) => s.handle s.cur.unit s.bank (bits (record s) 56 4)
  let last := fun (s : State) => if (handleIn s).state = 2 ∧ s.strip.ust = 0 then 1 else n
  transfer h o (labelField + recordBits 56 4 + recordBits 96 32) last (fun s =>
    match s.descStop k with
    | some r => r
    | none =>
      let r := s.record
      let e := handleIn s
      if descSpace (s.desc k) != 0 || (n * descElen (s.desc k)) % 64 != 0 then .trap s s.operandTrap none
      else if e.state = 2 ∧ s.strip.ust = 0 then s.launchRun k n (bits r 56 4) r
      else if e.state = 4 ∨ s.strip.ust ≠ 0 then
        let res := s.streamElement k n false
          { ddev := e.ddev, dtile := e.dtile, label := recLabel r, lslot := e.slot, off := e.runUnit, wrap := e.wrap, metered := false }
        match res with
        | .done m extra => .done (m.modHandle m.cur.unit m.bank (bits r 56 4) fun q =>
            let total := n * descElen (s.desc k) / 64
            { q with runUnit := if q.wrap = 0 then q.runUnit + total else (q.runUnit + total) % q.wrap }) extra
        | res => res
      else .trap s s.operandTrap none) s

/-! ### Combined reads (10 R306) -/

/-- A CREAD leaves: it holds its reads' offsets, bit 63 of each marking a tracked page (log entry 9). -/
def State.sendCread (s : State) (dev die : Nat) (es : List (Nat × Nat × Nat)) : State :=
  let u := s.cur.unit
  let dest := es.map fun e => ((recWord s.record) % 2 ^ 21 + 8 * e.1, e.1, e.2.1)
  let (s, tag) := s.ask ((es.head?.map (·.1)).getD 0) 0 (1 + es.length) (.values dest)
  let n := es.length
  let offs := es.foldr (fun e acc => e.2.2 + acc * 2 ^ 64) 0
  s.post u { s.header 0x05 u dev (serviceUnit die) (s.bank.toNat * 32768) with
    fC := true, len := BitVec.ofNat 5 (1 + (n + 1) / 2)
    payload := BitVec.ofNat 2048 (n + tag * 2 ^ 16 + s.phaseOf u s.bank % 2 ^ 32 * 2 ^ 64 + offs * 2 ^ 128) }

/-- Reads of a tile that are outstanding or wait in open packets. -/
def State.readsOut (s : State) : Nat :=
  (s.here.asked.map fun q => match q.use with
    | .values ds => ds.length
    | _ => 0).foldl (· + ·) 0 + (s.strip.open_.map fun e => e.2.2.length).foldl (· + ·) 0

/-- One read joins the open packet of its device and die; a full packet, or the oldest of nine, leaves. -/
def State.joinCread (s : State) (dev die : Nat) (e : Nat × Nat × Nat) : State :=
  let open_ := s.strip.open_
  let set := fun (s : State) (l : List (Nat × Nat × List (Nat × Nat × Nat))) => s.modMyStrip fun t => { t with open_ := l }
  match open_.find? fun q => q.1 == dev && q.2.1 == die with
  | some q =>
    let es := q.2.2 ++ [e]
    if 28 ≤ es.length then (set s (open_.filter (· != q))).sendCread dev die es
    else set s (open_.map fun w => if w = q then (dev, die, es) else w)
  | none =>
    let s := if open_.length < 8 then s
      else match open_.head? with
        | some q => (set s (open_.drop 1)).sendCread q.1 q.2.1 q.2.2
        | none => s
    set s (s.strip.open_ ++ [(dev, die, [e])])

/-- XGATH8 (10 R306). -/
def execXgath8 (h : StripHead) (o : AXForm) (s : State) : Host.Outcome State Fault Refusal :=
  let k := o.ds.toNat
  let last := elementsOf o
  transfer h o (vaField + wordField) (fun _ => last) (fun s =>
    let r := s.record
    match s.descStop k with
    | some r => r
    | none =>
      let d := s.desc k
      let u := s.cur.unit
      let t := s.strip
      let i := t.ust
      let dest := recWord r + 8 * i
      if descSpace d = 1 || !(descElen d == 4 || descElen d == 8) then .trap s s.operandTrap none
      else if recWord r % 64 != 0 then .trap s { cause := 0x07, i0 := BitVec.ofNat 64 (recWord r) } none
      else if !s.mayReceive dest 8 then .trap s (feedTrap 0x08 dest k i) none
      else if 1024 ≤ s.readsOut then .wait 7 0 s
      else match s.controlElement k t.start i with
        | .trap s f => .trap s f none
        | .bytes m x _ =>
          let va := recVa r + 8 * x
          let fail := fun (m : State) (f : AddressFault) =>
            StripRes.trap (m.recordFault u s.bank va f) (addressTrap f 0 va k i) none
          if 2 ^ 51 ≤ va then fail m badVirtual
          else match m.translate u s.me.jobId s.strip.ahead .read va with
            | (m, .inl f) => fail m f
            | (m, .inr p) =>
              if p.pa / 2 ^ 52 = 1 then fail m { cause := 0x11, recorded := false }
              else
                let dev := if p.pa / 2 ^ 52 = 2 then bits p.pa 40 10 else s.device
                let off := p.pa % 2 ^ 40 + (if p.tracked then 2 ^ 63 else 0)
                let m := ((m.traceX va).setCursor k (t.start + i + 1)).joinCread dev (bits p.pa 38 2) (i, va, off)
                let m := if last ≤ i + 1 then
                    let rest := m.strip.open_
                    rest.foldl (fun m q => m.sendCread q.1 q.2.1 q.2.2) (m.modMyStrip fun t => { t with open_ := [] })
                  else m
                m.elementDone last 1) s

/-- Who sent a packet to a service unit, with the phase it gives (08 R235). -/
def State.serviceActor (s : State) (p : Packet) : Actor where
  agent := if p.sdev.toNat != s.device then 0x800 + p.sdev.toNat else agentOf p.stile.toNat (labelContext p.label.toNat)
  phase := p.field 8 4

/-- CREAD (10 R306): the home reads each word; a stamp conflict is reported at its index. -/
def execCread (p : Packet) (s : State) : Host.Outcome State Fault Refusal :=
  let n := p.field 0 2
  let tag := p.field 2 2
  let a := s.serviceActor p
  let src := p.dtile.toNat
  let (s, v, bad, got) := (List.range n).foldl (fun (acc : State × Nat × Nat × Nat) i =>
    let (s, v, bad, got) := acc
    let w := p.field (16 + 8 * i) 8
    let place : Place := { pa := w % 2 ^ 40, tracked := w.testBit 63 }
    match s.readPlace a place 8 with
    | (s, .inr (x, b)) => (s, v + x * 2 ^ (64 * i), bad + (if b = 0 then 0 else 2 ^ i), got + 2 ^ i)
    | (s, .inl f) =>
      let q := { s.header 0x14 src p.sdev.toNat p.stile.toNat p.label.toNat with
        seq := BitVec.ofNat 16 i, len := 1
        payload := BitVec.ofNat 2048 (f.cause + tag * 2 ^ 16 + f.info1 * 2 ^ 32 + place.pa * 2 ^ 64) }
      (s.postService q, v, bad, got)) (s, 0, 0, 0)
  .next (s.postService { s.header 0x06 src p.sdev.toNat p.stile.toNat tag with
    fC := true, len := BitVec.ofNat 5 (1 + (n + 1) / 2)
    payload := BitVec.ofNat 2048 (n + got * 2 ^ 32 + v * 2 ^ 128), bad := BitVec.ofNat 32 (bad * 4) })

/-- CREPLY (10 R306): the values land in their places. -/
def execCreply (p : Packet) (s : State) : Host.Outcome State Fault Refusal :=
  let u := p.dtile.toNat
  .next <|
    match (s.tile u).asked.find? fun q => q.tag == p.label.toNat with
    | some { use := .values ds, c := c, tag := tag, .. } =>
      if s.frozenAt u c then s.schedule (s.cycle + 1) (.creply p)
      else
        let land := fun (s : State) (e : Nat × (Nat × Nat × Nat)) =>
          if (p.field 4 4).testBit e.1 then
            let pa := windowPA u e.2.1
            let s := s.storePA pa 8 (p.field (16 + 8 * e.1) 8)
            if p.bad.getLsbD (e.1 + 2) then s.setPoison pa else s
          else s
        -- the request ends with the reports of the values that do not land
        let got := ((List.range ds.length).filter fun i => (p.field 4 4).testBit i).length
        (((List.range ds.length).zip ds).foldl land s).replied u tag (1 + got)
    | _ => s

/-! ### Dispatch to experts (10 R307, R308; 12 R360, R361) -/

/-- Word `w` of route entry `e` of a die. -/
def State.routeWord (s : State) (die e w : Nat) : Word := s.route.look 0 (512 * die + 2 * e + w)

/-- Word `w` of group `g` of a die. -/
def State.groupWord (s : State) (die g w : Nat) : Word := s.group.look 0 (512 * die + 2 * g + w)

/-- The control-space offsets of a route entry and of a group entry (12 R360). -/
def routeOffset (die e : Nat) : Nat := 0x70000 + 0x1000 * die + 16 * e
/-- See `routeOffset`. -/
def groupOffset (die g : Nat) : Nat := 0x74000 + 0x1000 * die + 16 * g

/-- An entry of two words holds an uncorrectable one (12 R364). -/
def State.tablePoisoned (s : State) (off : Nat) : Bool := s.poisoned (controlPA off) || s.poisoned (controlPA (off + 8))

/-- A group may be used: VALID, and its tiles within the module (12 R361). -/
def groupOk (w0 : Word) : Bool :=
  let nt := bits w0.toNat 16 10
  w0.getLsbD 63 && decide (1 ≤ nt) && decide (nt ≤ 768) && decide (bits w0.toNat 32 10 + nt ≤ 768)

/-- Pairs of a tile that await their RSLOT. -/
def Tile.pairsOut (t : Tile) : Nat := (t.asked.filter fun q => match q.use with
  | .slot .. => true
  | _ => false).length

/-- RCOUNT of an expert to its counter's home. -/
def State.sendRcount (s : State) (u dev die expert tag : Nat) : State :=
  s.post u { s.header 0x07 u dev (serviceUnit die) 0 with
    len := 1, payload := BitVec.ofNat 2048 (tag + expert * 2 ^ 16) }

/-- A receipt stored in the scratchpad. -/
def State.storeReceipt (s : State) (u a v : Nat) : State := s.storePA (windowPA u a) 8 v

/-- XDISP (10 R308): each pair reads its route entry and asks its expert's counter. -/
def execXdisp (h : StripHead) (o : AXForm) (s : State) : Host.Outcome State Fault Refusal :=
  let k := o.ds.toNat
  let last := elementsOf o
  transfer h o (jField + labelField + wordField) (fun _ => last) (fun s =>
    let r := s.record
    let j := recJ r
    match s.descStop k, s.descStop j with
    | some r, _ => r
    | none, some r => r
    | none, none =>
      let dj := s.desc j
      let u := s.cur.unit
      let t := s.strip
      let i := t.ust
      let receipt := recWord r + 8 * i
      if descSpace (s.desc k) = 1 || descElen (s.desc k) != 8 || descSpace dj = 1 then .trap s s.operandTrap none
      else if !s.mayReceive receipt 8 then .trap s (feedTrap 0x08 receipt k i) none
      else if 256 ≤ s.here.pairsOut then .wait 7 0 s
      else match s.controlElement k t.start i with
        | .trap s f => .trap s f none
        | .bytes m x _ =>
          let expert := bits x 32 32
          let move := fun (m : State) => m.setCursor k (t.start + i + 1)
          if expert = 0xFFFFFFFF then (move (m.storeReceipt u receipt (2 ^ 64 - 1))).elementDone last 1
          else
            let entry := routeOffset (dieOf u) expert
            let w0 := m.routeWord (dieOf u) expert 0
            let w1 := m.routeWord (dieOf u) expert 1
            let n := descElen dj
            let a := descAddr dj (bits x 0 32)
            if 255 < expert then .trap s (s.elementOperand i) none
            else if s.tablePoisoned entry then .trap s { dataError 1 entry with i3 := BitVec.ofNat 64 i } none
            else if !w0.getLsbD 63 then .trap s (s.elementOperand i) none
            else match m.sourceBytes j a n i false with
              | .trap s f => .trap s f none
              | .bytes m v bad =>
                let (m, tag) := (m.traceX a).ask i (a % (2 ^ 64 : Nat)).toNat 1
                  (.slot expert (recLabel r) (a % (2 ^ 64 : Nat)).toNat n v bad receipt w0 false)
                (move (m.sendRcount u (bits w1.toNat 2 10) (bits w1.toNat 0 2) expert tag)).elementDone last 1) s

/-- An RCOUNT is granted: the counter's value before its increment goes back. -/
def State.countRoute (s : State) (p : Packet) : State :=
  let die := p.dtile.toNat - 0x3FC
  let e := p.field 2 1
  let r := s.routeUnit.look {} die
  let old := r.live.look 0 e
  let s := { s with routeUnit := s.routeUnit.put die { r with live := r.live.put e (cap32 (old + 1)), granted := e :: r.granted } }
  s.postService { s.header 0x08 p.dtile.toNat p.sdev.toNat p.stile.toNat (p.field 0 2) with
    len := 1, payload := BitVec.ofNat 2048 old }

/-- RCOUNT (13 R377): granted, unless its counter has granted one in this cycle; then it waits. -/
def execRcount (p : Packet) (s : State) : Host.Outcome State Fault Refusal :=
  let die := p.dtile.toNat - 0x3FC
  let r := s.routeUnit.look {} die
  .next (if r.granted.contains (p.field 2 1) then { s with routeUnit := s.routeUnit.put die { r with waiting := r.waiting ++ [p] } }
    else s.countRoute p)

/-- A cycle begins at the route units: what has waited is granted, of each counter the first (13 R377). -/
def State.grantRoutes (s : State) : State :=
  s.routeUnit.foldl (fun s e =>
    let s := { s with routeUnit := s.routeUnit.put e.1 { e.2 with granted := [], waiting := [] } }
    e.2.waiting.foldl (fun s p =>
      match execRcount p s with
      | .next m => m
      | _ => s) s) s

/-- What a slot sequence number makes of a pair whose entry is `entry`: the fallback expert to count, or the group, the sequence and the
kind (10 R308). -/
def routed (entry : Word) (v : Nat) (fallback : Bool) : Nat ⊕ (Nat × Nat × Nat) :=
  let w := entry.toNat
  if fallback then .inr (bits w 0 8, v, 2)
  else
    let replica := w.testBit 62
    let g := if replica && v % 2 == 1 then bits w 16 8 else bits w 0 8
    let gs := if replica then v / 2 else v
    if bits w 40 16 ≤ gs then .inl (bits w 32 8) else .inr (g, gs, if replica then v % 2 else 0)

/-- A request ends with its part of its operation. -/
def State.forget (s : State) (u : Nat) (q : Asked) : State :=
  (s.mod u fun t => { t with asked := t.asked.filter fun w => w.tag != q.tag }).opDone u q.c q.op

/-- A pair that cannot be routed is a reserved operand at its element (12 R361), or a data error where an entry is uncorrectable
(12 R364). -/
def State.misrouted (s : State) (u : Nat) (q : Asked) (bad : Option Nat) : State :=
  let t : Trap := match bad with
    | some off => dataError 1 off
    | none => { cause := 0x02, i0 := 7, i1 := ((s.fetch u q.c (s.ctx u q.c).access.pos).map fun e => e.1.setWidth 64).getD 0 }
  (s.remoteFault u q.c q.op q.elem false { t with i3 := BitVec.ofNat 64 q.elem }).forget u q

/-- RSLOT (10 R308): the row goes to its group's tile and the receipt is written, or the fallback expert is counted. -/
def execRslot (p : Packet) (s : State) : Host.Outcome State Fault Refusal :=
  let u := p.dtile.toNat
  let die := dieOf u
  .next <|
    match (s.tile u).asked.find? fun q => q.tag == p.label.toNat with
    | none => s
    | some q =>
      if s.frozenAt u q.c then s.schedule (s.cycle + 1) (.rslot p)
      else match q.use with
        | .slot expert label addr n row bad receipt entry fallback =>
          match routed entry (p.field 0 4) fallback with
          | .inl f =>
            let next := s.routeWord die f 0
            if s.tablePoisoned (routeOffset die f) then s.misrouted u q (some (routeOffset die f))
            else if !next.getLsbD 63 then s.misrouted u q none
            else
              let s := s.mod u fun t => { t with asked := t.asked.map fun w =>
                if w.tag = q.tag then { w with use := .slot expert label addr n row bad receipt next true } else w }
              s.sendRcount u s.device die f q.tag
          | .inr (g, gs, kind) =>
            let w0 := s.groupWord die g 0
            if s.tablePoisoned (groupOffset die g) then s.misrouted u q (some (groupOffset die g))
            else if !groupOk w0 then s.misrouted u q none
            else
              let nt := bits w0.toNat 16 10
              let dev := bits w0.toNat 48 10
              let tile := bits w0.toNat 32 10 + gs % nt
              let unit := ((bits (s.groupWord die g 1).toNat 0 28) + gs / nt * ((n + 63) / 64)) % 2 ^ 28
              let slot := bits w0.toNat 0 4
              let lens := packetLengths 8 n true
              if !s.canSend u dev tile label lens.length then s.schedule (s.cycle + 1) (.rslot p)
              else
                let key : Kept := { pkt := s.header 1 u dev tile label, c := q.c, op := q.op, elem := q.elem, addr := addr }
                let s := s.sendPieces u (fun _ => key) slot false true id 0 unit row bad lens
                (s.storeReceipt u receipt (dev + tile * 2 ^ 10 + unit * 2 ^ 20 + slot * 2 ^ 48 + kind * 2 ^ 52
                  + expert * 2 ^ 54)).forget u q
        | _ => s

/-! ### Reductions and slots (10 R297, R301, R310) -/

/-- Types and operations that XRED takes. -/
def reductionTakes (ty op : Nat) : Bool :=
  match ty with
  | 0 => decide (op < 6)
  | 1 => decide (op < 6)
  | 4 => decide (op < 3)
  | 5 => op == 0
  | _ => false

/-- The 4-byte words of an element merged at rising addresses, or the first that may not be with its fault. -/
def State.mergeWords (s : State) (i ty op : Nat) : Nat → Nat → Nat → State ⊕ (Nat × AddressFault)
  | 0, _, _ => .inl s
  | n + 1, va, v =>
    let u := s.cur.unit
    let c := s.bank
    if 2 ^ 51 ≤ va then .inr (va, badVirtual)
    else match s.translate u s.me.jobId s.strip.ahead .atomic va with
      | (_, .inl f) => .inr (va, f)
      | (s, .inr p) =>
        match s.windowAt s.me.jobId p.pa with
        | none => .inr (va, { cause := 0x11, info1 := 5, recorded := false })
        | some w =>
          let m : Merged := { w := w, dev := s.device, tile := u, word := p.pa % 2 ^ 40, op := op, type := ty
                              opnd := BitVec.ofNat 64 (v % 2 ^ 32), opId := s.opId, c := c, elem := i, va := va, tracked := p.tracked }
          (s.mergeRecord m).mergeWords i ty op n (va + 4) (v / 2 ^ 32)

/-- XRED (10 R310). -/
def execXred (h : StripHead) (o : AXForm) (s : State) : Host.Outcome State Fault Refusal :=
  let k := o.ds.toNat
  let last := elementsOf o
  transfer h o (vaField + recordBits 64 16) (fun _ => last) (fun s =>
    match s.descStop k with
    | some r => r
    | none =>
      let d := s.desc k
      let r := s.record
      let t := s.strip
      let i := t.ust
      let n := descElen d
      let va := recVa r + i * n
      if descSpace d != 0 || n % 4 != 0 || !reductionTakes (bits r 64 8) (bits r 72 8) then .trap s s.operandTrap none
      else if recVa r % 4 != 0 then .trap s { cause := 0x07, i0 := BitVec.ofNat 64 (recVa r) } none
      else match s.sourceElement k t.start i false with
        | .trap s f => .trap s f none
        | .bytes m v bad =>
          if bad != 0 then .trap m { dataError 1 ((descAddr d (t.start + i)).toNat / 8 * 8) with i3 := BitVec.ofNat 64 i } none
          else match (m.traceX (descAddr d (t.start + i))).mergeWords i (bits r 64 8) (bits r 72 8) (n / 4) va v with
            | .inr (at_, f) => .trap (m.recordFault s.cur.unit s.bank at_ f) (addressTrap f 2 at_ k i) none
            | .inl m =>
              let m := m.setCursor k (t.start + i + 1)
              m.elementDone last (State.portCycles s m)) s

/-- A record of a landing slot that XLAND may write (10 R297, R301). -/
def landRecordOk (r : Nat) : Bool :=
  let space := bits r 64 8
  let perm := bits r 72 8
  let zero := bits r 51 13 == 0 && bits r 74 22 == 0 && bits r 179 13 == 0 && bits r 232 24 == 0
  let armed := (space == 0 && bits r 21 43 == 0 || space == 2) && bits r 0 6 == 0 && bits r 128 6 == 0
    && decide (1 ≤ bits r 96 32) && decide (bits r 96 32 < 2 ^ 28)
  zero && (perm == 0 || armed)

/-- XLAND (10 R301). -/
def execXland (h : StripHead) (o : AXForm) (s : State) : Host.Outcome State Fault Refusal :=
  let a := o.imm.toNat * 16
  let k := o.ds.toNat
  stripOnce h inExchangeOnly (fun s =>
    if s.me.orderWaits false then .wait 7 0 s
    else if a % 32 != 0 then .trap s { cause := 0x07, i0 := BitVec.ofNat 64 a } none
    else match s.readRecord a 32 with
      | .inl r => r
      | .inr (s, r) =>
        if !landRecordOk r then .trap s s.operandTrap none
        else
          let w := fun (i : Nat) => BitVec.ofNat 64 (bits r (64 * i) 64)
          .done (s.modMe fun x =>
            let old := x.slots.look {} k
            { x with
              slots := x.slots.put k (slotOfWords (w 0) (w 1) (w 2) (w 3))
              landed := if old.perm = 0 then x.landed.put k 0 else x.landed })) s

end Sys2Proof.Machine
end

