-- ==== Sys2Proof/Machine/Atomics.lean ====
section
/-!
DEFINITION. The atomic instructions of the access strip, and their records at the home (08 R248 to R253).
-/
namespace Sys2Proof.Machine

/-- The operation of an atomic begins at its first micro-step. -/
def State.beginAtomic (s : State) (o : AXForm) : StripRes ⊕ State :=
  if s.strip.op.isSome then .inr s
  else if s.me.orderWaits (o.aux.getLsbD 2) then .inl (.wait 7 0 s)
  else
    let (s, id) := s.newOp s.cur.unit s.bank 0 (sigOf o) false false false (o.aux.getLsbD 2)
    .inr (s.modMyStrip fun t => { t with op := some id, start := s.cursor o.ds.toNat })

/-- Records of a tile that are outstanding. -/
def Tile.recordsOut (t : Tile) : Nat := (t.asked.filter fun q => match q.use with
  | .result _ => true
  | _ => false).length

/-- A record as it stands in the scratchpad: address, operand, compare value, type, reserved bytes. -/
structure AtomRecord where
  addr : Nat
  opnd : Nat
  cmp : Nat
  ty : Nat
  rest : Nat
deriving DecidableEq, Repr

/-- A record from its 32 bytes (08 R249). -/
def atomRecord (v : Nat) : AtomRecord where
  addr := bits v 0 64
  opnd := bits v 64 64
  cmp := bits v 128 64
  ty := bits v 192 8
  rest := bits v 200 56

/-- A record without a reserved field, of a type the instruction takes. -/
def AtomRecord.legal (r : AtomRecord) (takes : Nat → Bool) : Bool :=
  decide (r.addr < 2 ^ 51) && decide (r.ty < 6) && r.rest == 0 && takes r.ty

/-- ATOM of one record: tag, operation, type, attributes of its page, phase, address, operands. -/
def State.atomPacket (s : State) (tag op : Nat) (r : AtomRecord) (p : Place) : Packet :=
  let u := s.cur.unit
  let n := 8 * atomWidth r.ty
  let dev := if p.pa / 2 ^ 52 = 2 then bits p.pa 40 10 else s.device
  let pa := if p.pa / 2 ^ 52 = 2 then p.pa % 2 ^ 40 else p.pa
  let die := if p.pa / 2 ^ 52 = 1 then dieOf u else bits p.pa 38 2
  { s.header 0x09 u dev (serviceUnit die) (s.bank.toNat * 32768) with
    len := 3
    payload := BitVec.ofNat 2048 (tag + op * 2 ^ 16 + r.ty * 2 ^ 24 + p.tracked.toNat * 2 ^ 32 + p.hc.toNat * 2 ^ 33
      + s.phaseOf u s.bank % 2 ^ 32 * 2 ^ 64 + pa * 2 ^ 128 + r.opnd % 2 ^ n * 2 ^ 192 + r.cmp % 2 ^ n * 2 ^ 256) }

/-- A record leaves the tile: merged in a reduction window, or sent to its home (08 R251). -/
def State.sendAtom (s : State) (op i : Nat) (r : AtomRecord) (p : Place) (dest : Option Nat) : State :=
  let u := s.cur.unit
  match (if dest.isNone && decide (op < 6) then s.windowAt s.me.jobId p.pa else none) with
  | some w =>
    s.mergeRecord { w := w, dev := s.device, tile := u, word := p.pa % 2 ^ 40, op := op, type := r.ty
                    opnd := BitVec.ofNat 64 (r.opnd % 2 ^ (8 * atomWidth r.ty)), opId := s.opId, c := s.bank, elem := i, va := r.addr
                    tracked := p.tracked }
  | none =>
    let (s, tag) := s.ask i r.addr 1 (.result dest)
    s.post u (s.atomPacket tag op r p)

/-- The micro-step of record `i` of an atomic. -/
def atomStep (o : AXForm) (op : Nat) (takes : Nat → Bool) (s : State) : StripRes :=
  let k := o.ds.toNat
  let last := elementsOf o
  let u := s.cur.unit
  let t := s.strip
  let i := t.ust
  match s.descStop k with
  | some r => r
  | none =>
    if descSpace (s.desc k) != 0 then .trap s s.operandTrap none
    else if t.done.contains i then s.elementDone last 1
    else if 256 ≤ s.here.recordsOut then .wait 7 0 s
    else
      let a := descAddr (s.desc k) (t.start + i)
      let dest := o.imm.toNat * 64 + 8 * i
      if a % 32 != 0 then .trap s { cause := 0x07, i0 := BitVec.ofInt 64 a, i1 := BitVec.ofNat 64 k, i3 := BitVec.ofNat 64 i } none
      else if s.badLocal a 32 then .trap s (feedTrap 0x08 a k i) none
      else if o.imm != 0xFFFF && !s.mayReceive dest 8 then .trap s (feedTrap 0x08 dest k i) none
      else
        let pa := windowPA u a.toNat
        let s := s.scrub (agentOf u s.bank) pa 32
        match s.firstPoison pa 32 with
        | some w => .trap s { dataError 1 (w % 2 ^ 22) with i3 := BitVec.ofNat 64 i } none
        | none =>
          let r := atomRecord (s.loadPA pa 32)
          if !r.legal takes then .trap s (s.elementOperand i) none
          else if r.addr % atomWidth r.ty != 0 then
            .trap s { cause := 0x07, i0 := BitVec.ofNat 64 r.addr, i1 := BitVec.ofNat 64 k, i3 := BitVec.ofNat 64 i } none
          else match s.translate u s.me.jobId s.strip.ahead .atomic r.addr with
            | (s, .inl f) => .trap (s.recordFault u s.bank r.addr f) (addressTrap f 2 r.addr k i) none
            | (m, .inr p) =>
              ((m.traceX r.addr).sendAtom op i r p (if o.imm = 0xFFFF then none else some dest)
                |>.setCursor k (t.start + i + 1)).elementDone last 1

/-- An atomic instruction in an exchange phase (08 R248, R252). -/
def atomic (h : StripHead) (o : AXForm) (op : Nat) (takes : Nat → Bool) (s : State) : Host.Outcome State Fault Refusal :=
  stripMany h inExchangeOnly (fun _ => elementsOf o) (fun s =>
    match s.beginAtomic o with
    | .inl r => r
    | .inr s => atomStep o op takes s) s

/-- The integer types. -/
def integerType (ty : Nat) : Bool := decide (ty < 4)

/-- AADD (08 R250). -/
def execAadd (h : StripHead) (o : AXForm) (s : State) : Host.Outcome State Fault Refusal := atomic h o 0 integerType s
/-- AFADD (08 R250). -/
def execAfadd (h : StripHead) (o : AXForm) (s : State) : Host.Outcome State Fault Refusal := atomic h o 0 (· == 4) s
/-- ABFADD (08 R250). -/
def execAbfadd (h : StripHead) (o : AXForm) (s : State) : Host.Outcome State Fault Refusal := atomic h o 0 (· == 5) s
/-- AMIN (08 R250). -/
def execAmin (h : StripHead) (o : AXForm) (s : State) : Host.Outcome State Fault Refusal := atomic h o 1 (· < 5) s
/-- AMAX (08 R250). -/
def execAmax (h : StripHead) (o : AXForm) (s : State) : Host.Outcome State Fault Refusal := atomic h o 2 (· < 5) s
/-- AAND (08 R250). -/
def execAand (h : StripHead) (o : AXForm) (s : State) : Host.Outcome State Fault Refusal := atomic h o 3 integerType s
/-- AOR (08 R250). -/
def execAor (h : StripHead) (o : AXForm) (s : State) : Host.Outcome State Fault Refusal := atomic h o 4 integerType s
/-- AXOR (08 R250). -/
def execAxor (h : StripHead) (o : AXForm) (s : State) : Host.Outcome State Fault Refusal := atomic h o 5 integerType s
/-- AXCHG (08 R250). -/
def execAxchg (h : StripHead) (o : AXForm) (s : State) : Host.Outcome State Fault Refusal := atomic h o 6 (· < 6) s
/-- ACAS (08 R250). -/
def execAcas (h : StripHead) (o : AXForm) (s : State) : Host.Outcome State Fault Refusal := atomic h o 7 (· < 6) s

/-- ATOM (08 R251, R253, R256): the record is performed at its home, which answers with the old value or a fault. -/
def execAtom (p : Packet) (s : State) : Host.Outcome State Fault Refusal :=
  let tag := p.field 0 2
  let pa := p.field 16 8
  let place : Place := { pa := pa, tracked := p.payload.getLsbD 32, hc := p.payload.getLsbD 33 }
  let s := if p.sdev.toNat != s.device && place.tracked && decide (pa < 2 ^ 40) then s.countContention p.sdev.toNat pa else s
  .next <|
    match s.performAtom (s.serviceActor p) place (p.field 2 1) (p.field 3 1) (p.field 24 8) (p.field 32 8) with
    | (s, .old v) =>
      s.postService { s.header 0x0A p.dtile.toNat p.sdev.toNat p.stile.toNat tag with
        len := 1, payload := BitVec.ofNat 2048 v }
    | (s, .fault cause st) =>
      let q := { s.header 0x14 p.dtile.toNat p.sdev.toNat p.stile.toNat p.label.toNat with
        len := 1, payload := BitVec.ofNat 2048 (cause + 2 * 2 ^ 8 + tag * 2 ^ 16 + st.toNat * 2 ^ 32 + pa * 2 ^ 64) }
      s.postService q

/-- ARES (08 R252): the result lands. -/
def execAres (p : Packet) (s : State) : Host.Outcome State Fault Refusal :=
  let u := p.dtile.toNat
  .next <|
    match (s.tile u).asked.find? fun q => q.tag == p.label.toNat with
    | some { use := .result dest, c := c, tag := tag, .. } =>
      if s.frozenAt u c then s.schedule (s.cycle + 1) (.ares p)
      else
        let s := match dest with
          | some a => s.storePA (windowPA u a) 8 (p.field 0 8)
          | none => s
        s.replied u tag
    | _ => s

end Sys2Proof.Machine
end

