-- ==== Sys2Proof/Machine/Branch.lean ====
section
/-!
DEFINITION. The branches, calls and jumps of the control core (04 R107, R124).
-/
namespace Sys2Proof.Machine

/-- B (04 R124). -/
def execB (o : CoreForm) (s : State) : Host.Outcome State Fault Refusal :=
  coreInstr o {} (fun _ m _ => .branch m (some (targetOf o)) false) s

/-- BNA (04 R124): annuls its delay slots when not taken. -/
def execBna (o : CoreForm) (s : State) : Host.Outcome State Fault Refusal :=
  coreInstr o {} (fun _ m _ => .branch m (some (targetOf o)) false) s (fun s => .branch s none true)

/-- BTA (04 R124): annuls its delay slots when taken. -/
def execBta (o : CoreForm) (s : State) : Host.Outcome State Fault Refusal :=
  coreInstr o {} (fun _ m _ => .branch m (some (targetOf o)) true) s

/-- The registers of a compare-and-branch. -/
def comparesAB (o : CoreForm) : CoreSpec := { reads := [(o.a.toNat, o.la), (o.b.toNat, o.lb)] }

/-- BCMP (04 R124). -/
def execBcmp (o : CoreForm) (s : State) : Host.Outcome State Fault Refusal :=
  coreInstr o (comparesAB o) (fun _ m vs =>
    if intCondition o.x.toNat (nth vs 0) (nth vs 1) then .branch m (some (targetOf o)) false else .done m) s

/-- BCMPNA (04 R124): annuls its delay slots when not taken. -/
def execBcmpna (o : CoreForm) (s : State) : Host.Outcome State Fault Refusal :=
  coreInstr o (comparesAB o) (fun _ m vs =>
    if intCondition o.x.toNat (nth vs 0) (nth vs 1) then .branch m (some (targetOf o)) false else .branch m none true) s
    (fun s => .branch s none true)

/-- The link of a call: the position of the successor of the entry second after it (04 R124). DESIGN CHOICE (log entry 52):
where that successor cannot be formed (line absent, end of the chain) the link is 0x7F_FFFF. -/
def State.link (s : State) : Word :=
  let q := s.refresh s.cur.unit s.bank s.me.queue
  (s.entryAfter s.cur.unit s.bank q.f2).word

/-- CALL (04 R124). -/
def execCall (o : CoreForm) (s : State) : Host.Outcome State Fault Refusal :=
  coreInstr o { writes := [.sreg 1] } (fun _ m _ =>
    .branch (m.wroteS 1 m.link) (some (targetOf o)) false) s

/-- CALLR (04 R124). -/
def execCallr (o : CoreForm) (s : State) : Host.Outcome State Fault Refusal :=
  coreInstr o { reads := [(o.a.toNat, o.la)], writes := [.sreg 1] } (fun _ m vs =>
    .branch (m.wroteS 1 m.link) (some ((nth vs 0).extractLsb' 0 23)) false) s

/-- JR (04 R124). -/
def execJr (o : CoreForm) (s : State) : Host.Outcome State Fault Refusal :=
  coreInstr o { reads := [(o.a.toNat, o.la)] } (fun _ m vs => .branch m (some ((nth vs 0).extractLsb' 0 23)) false) s

end Sys2Proof.Machine
end

