-- ==== Sys2Proof/Machine/Counters.lean ====
section
/-!
DEFINITION. The control core's instructions over circuits, routing counters, flow meters and health monitors (10 R318 to
R320; 13 R377 to R382, R385 to R387).
-/
namespace Sys2Proof.Machine

/-! ### Circuits (10 R318 to R320) -/

/-- A COPEN request whose fields are in range and whose reserved bits are zero (10 R318). -/
def requestLegal (v : Nat) : Bool :=
  bits v 10 6 == 0 && bits v 26 6 == 0 && bits v 36 4 == 0 && bits v 92 4 == 0
    && decide (bits v 0 10 ≤ 575) && decide (bits v 16 10 ≤ 767)
    && decide (1 ≤ bits v 40 8) && decide (bits v 40 8 ≤ 24) && bits v 96 32 != 0

/-- The handle that a COPEN request `v` opens. -/
def openedHandle (v back : Nat) : Handle where
  state := 1
  lease := bits v 96 32
  ddev := bits v 0 10
  dtile := bits v 16 10
  slot := bits v 32 4
  wrap := bits v 48 16
  offset := bits v 64 28
  runUnit := bits v 64 28
  want := bits v 40 8
  back := back

/-- COPEN (10 R318): the request is read in the issue cycle. -/
def execCopen (o : CoreForm) (s : State) : Host.Outcome State Fault Refusal :=
  coreInstr o { reads := [(o.a.toNat, o.la)], writes := [.sreg o.d.toNat] } (fun s m vs =>
    withRequest (nth vs 0).toNat 16 16 s m fun m v =>
      let u := m.cur.unit
      let c := m.bank
      match (List.range 16).find? fun h => (m.me.handles.look {} h).state == 0 with
      | none => m.result o.d.toNat (BitVec.allOnes 64)
      | some h =>
        let m := m.modHandle u c h fun _ => openedHandle v ((m.tile u).param 2)
        let p := m.probeOf u (.handle c h)
        let m := if requestLegal v then m.launchProbe u p else m.failProbe p 8
        m.result o.d.toNat (BitVec.ofNat 64 h)) s

/-- An instruction on handle sA[3:0]. -/
def handleInstr (o : CoreForm) (p : CoreSpec) (body : State → State → Nat → List Word → CoreRes) (s : State) :
    Host.Outcome State Fault Refusal :=
  coreInstr o p (fun s m vs => if 16 ≤ (nth vs 0).toNat then s.badOperand else body s m (nth vs 0).toNat vs) s

/-- CHOLD (10 R318, R320). -/
def execChold (o : CoreForm) (s : State) : Host.Outcome State Fault Refusal :=
  handleInstr o { reads := [(o.a.toNat, o.la), (o.b.toNat, o.lb)] } (fun s m h vs =>
    if (s.me.handles.look {} h).state = 0 then .trap { cause := 0x02, i0 := 13, i1 := s.me.slotWord } none
    else .done (m.modHandle m.cur.unit m.bank h fun e =>
      { e with lease := max e.lease (min (nth vs 1).toNat 4294967295) })) s

/-- CCLOSE (10 R318, R320, R322). -/
def execCclose (o : CoreForm) (s : State) : Host.Outcome State Fault Refusal :=
  handleInstr o { reads := [(o.a.toNat, o.la)] } (fun s m h _ =>
    let u := m.cur.unit
    let src := CircuitSource.handle m.bank h
    match (s.me.handles.look {} h).state with
    | 0 => .trap { cause := 0x02, i0 := 13, i1 := s.me.slotWord } none
    | 1 => .done ((m.releaseCircuit (circuitId m.device u src)).modHandle u m.bank h fun _ => {})
    | 2 => .done (m.tearCircuit u src 2)
    | 3 => .done m
    | _ =>
      -- TORN with beats to resend closes when they are reported; else the handle is free
      .done (m.modHandle u m.bank h fun e => if e.tearing then { e with state := 3 } else {})) s

/-- CSTAT (10 R318, R319). -/
def execCstat (o : CoreForm) (s : State) : Host.Outcome State Fault Refusal :=
  handleInstr o (usesA o) (fun _ m h _ =>
    let e := m.me.handles.look {} h
    m.result o.d.toNat (match o.x.toNat with
      | 0 => e.status
      | 1 => BitVec.ofNat 64 e.lease
      | 2 => BitVec.ofNat 64 e.beats
      | _ => BitVec.ofNat 64 e.latency)) s

/-! ### Routing counters (13 R377 to R379) -/

/-- Cycles of a read of a route unit: at most 40. -/
def State.routeDelay (s : State) : Nat := min 40 (max 1 (Config.routeLatency s.fresh))

/-- The route unit of a die takes a snapshot (13 R378). -/
def State.snapRoutes (s : State) (die : Nat) : State :=
  let r := s.routeUnit.look {} die
  { s with routeUnit := s.routeUnit.put die { r with snap := r.live, live := [], seq := cap32 (r.seq + 1) } }

/-- What RCREAD reads of a route unit (13 R379). -/
def State.routeValue (s : State) (die sel e : Nat) : Nat :=
  let r := s.routeUnit.look {} die
  match sel with
  | 0 => r.snap.look 0 e
  | 1 => r.live.look 0 e
  | _ => r.seq

/-- A tile context of another job may not use the route unit of a die (13 R378). -/
def State.routeDenied (s : State) (die : Nat) : Bool :=
  !isSteward s.cur.unit && s.me.jobId != (s.routeUnit.look {} die).job

/-- A result that a route unit gives later; one into s2 holds the core, and comes a cycle before it is ready (04 R102). -/
def routeResult (o : CoreForm) (die : Nat) (dest : CoreDest) (s m : State) : CoreRes :=
  let e := Event.pipelinedResultWrite m.cur.unit m.bank dest 0 0 0
  if s.routeDenied die then .trap { cause := 0x11, i0 := BitVec.ofNat 64 die } none
  else if o.d = 2 then .late (m.used.schedule (m.cycle + s.routeDelay - 1) e) { at_ := none }
  else
    .done ((m.modMe fun x => { x with busy := if o.d = 0 then x.busy else .sreg o.d.toNat :: x.busy }).used.schedule
      (m.cycle + s.routeDelay) e)

/-- RCSNAP (13 R378). -/
def execRcsnap (o : CoreForm) (s : State) : Host.Outcome State Fault Refusal :=
  coreInstr o (usesA o s.routeDelay) (fun s m vs =>
    let die := (nth vs 0).toNat
    if 4 ≤ die then s.badOperand
    else routeResult o die (.snapshot o.d.toNat die) s m) s

/-- RCREAD (13 R379). -/
def execRcread (o : CoreForm) (s : State) : Host.Outcome State Fault Refusal :=
  coreInstr o (usesA o s.routeDelay) (fun s m vs =>
    let a := (nth vs 0).toNat
    if 1024 ≤ a then s.badOperand
    else
      let die := a / 256
      let sel := o.x.toNat
      routeResult o die (.counter o.d.toNat die sel (a % 256)) s m) s

/-! ### Flow meters (13 R380 to R382) -/

/-- A legal value of a parameter (13 R380). -/
def paramLegal (p v : Nat) : Bool :=
  match p with
  | 0 => decide (1 ≤ v) && decide (v < 2 ^ 24)
  | 1 => (List.range 17).any fun k => v == 2 ^ (8 + k)
  | 2 => decide (v ≤ 15)
  | 3 => decide (1 ≤ v) && decide (v ≤ 2 ^ 24)
  | 4 => decide (1 ≤ v) && decide (v ≤ 2 ^ 20)
  | 5 => decide (1 ≤ v) && decide (v ≤ 24)
  | _ => decide (v ≤ 1)

/-- FMSET (13 R381): the value takes effect 64 cycles after issue. -/
def execFmset (o : CoreForm) (s : State) : Host.Outcome State Fault Refusal :=
  coreInstr o { privileged := true, reads := [(o.a.toNat, o.la), (o.b.toNat, o.lb)] } (fun s m vs =>
    let a := (nth vs 0).toNat
    let p := o.x.toNat
    let v := (nth vs 1).toNat
    let all := a == 1024
    if (768 ≤ a ∧ all = false) ∨ paramLegal p v = false then s.badOperand
    else .done ((if all then List.range 768 else [a]).foldl (fun m u =>
      m.mod u fun t => { t with fmNext := t.fmNext ++ [(m.cycle + 64, p, v)] }) m)) s

/-- The parameters of a port that take effect in this cycle; FMEN 0 frees every COUNTING entry (13 R380). -/
def Tile.takeParams (t : Tile) (now : Nat) : Tile :=
  (t.fmNext.filter fun e => decide (e.1 ≤ now)).foldl (fun t e =>
    { t with
      fm := t.fm.put e.2.1 e.2.2
      fmNext := t.fmNext.filter fun q => decide (now < q.1)
      meters := if e.2.1 = 6 ∧ e.2.2 = 0 then t.meters.filter fun q => q.2.state != 1 else t.meters }) t

/-- The word of a meter entry (13 R382). -/
def Meter.word (m : Meter) (w : Nat) : Word :=
  match w with
  | 0 => fields [(m.state, 61), (m.count, 32), (m.timer, 0)]
  | _ => fields [(m.ddev, 26), (m.dtile, 16), (m.label, 0)]

/-- FMREAD (13 R382), 2 cy. -/
def execFmread (o : CoreForm) (s : State) : Host.Outcome State Fault Refusal :=
  coreInstr o (usesA o 2) (fun s m vs =>
    let a := (nth vs 0).toNat
    let tile := a / 16
    let st := isSteward s.cur.unit
    if 2 ^ 14 ≤ a ∨ (st = false ∧ tile ≠ 0) ∨ (st = true ∧ 768 ≤ tile) then s.badOperand
    else
      let u := if st then tile else s.cur.unit
      let x := o.x.toNat
      m.resultLater 2 o.d.toNat (if 8 ≤ x then BitVec.ofNat 64 ((m.tile u).param (x - 8)) else (m.meter u (a % 16)).word x)) s

/-! ### Health monitors (13 R385 to R387) -/

/-- A configuration that HISTCFG writes: no reserved bit, a source of the kind, its instance in range (13 R385, R386). -/
def monitorLegal (die : Bool) (v : Word) : Bool :=
  let sel := (v.extractLsb' 8 8).toNat
  v &&& 0xFF0F00F0 == 0 && match (v.extractLsb' 0 4).toNat with
    | 0 => true
    | 8 => die && decide (sel ≤ 3)
    | 9 => die && decide (sel ≤ 17)
    | 10 => die && decide (sel ≤ 7)
    | 11 => die && sel == 0
    | 12 => die && sel == 0
    | n => !die && decide (n ≤ 4) && sel == 0

/-- Why the monitor that sA[3:0] names may not be used by the acting unit: reserved operand or ownership. -/
def State.monitorStop (s : State) (a : Nat) : Option CoreRes :=
  let die := a.testBit 3
  let st := isSteward s.cur.unit
  if !die && (bits a 1 2 != 0 || st) then some s.badOperand
  else if die && !st then some (.trap { cause := 0x11, i0 := BitVec.ofNat 64 (a % 16) } none)
  else none

/-- The monitor that sA[3:0] names. -/
def State.namedMonitor (s : State) (a : Nat) : Monitor :=
  if a.testBit 3 then s.dieMon.look {} (8 * dieOf s.cur.unit + a % 8) else s.here.mon.look {} (a % 2)

/-- That monitor replaced. -/
def State.setMonitor (s : State) (a : Nat) (v : Monitor) : State :=
  if a.testBit 3 then { s with dieMon := s.dieMon.put (8 * dieOf s.cur.unit + a % 8) v }
  else s.modHere fun t => { t with mon := t.mon.put (a % 2) v }

/-- HISTCFG (13 R386). -/
def execHistcfg (o : CoreForm) (s : State) : Host.Outcome State Fault Refusal :=
  coreInstr o { reads := [(o.a.toNat, o.la), (o.b.toNat, o.lb)] } (fun s m vs =>
    let a := (nth vs 0).toNat
    if 16 ≤ a then s.badOperand
    else match s.monitorStop a with
      | some r => r
      | none =>
        if !monitorLegal (a.testBit 3) (nth vs 1) then s.badOperand
        else .done (m.setMonitor a (Monitor.configure (nth vs 1)))) s

/-- HISTRD (13 R387), 2 cy. -/
def execHistrd (o : CoreForm) (s : State) : Host.Outcome State Fault Refusal :=
  coreInstr o (usesA o 2) (fun s m vs =>
    let a := (nth vs 0).toNat
    if 2 ^ 10 ≤ a ∨ 36 ≤ a / 16 then s.badOperand
    else match s.monitorStop (a % 16) with
      | some r => r
      | none =>
        let v := m.namedMonitor (a % 16)
        let m := if o.x.getLsbD 0 then m.setMonitor (a % 16) (Monitor.configure v.config) else m
        m.resultLater 2 o.d.toNat (v.word (a / 16))) s

end Sys2Proof.Machine
end

