-- ==== Sys2Proof/Machine/Control.lean ====
section
/-!
DEFINITION. Instructions of the control core over strips, phases, counters, time, control state registers and traces
(04 R125, R126; 09 R261 to R264; 13 R366, R367, R371, R372, R375, R376; 14 R395, R396, R410).
-/
namespace Sys2Proof.Machine

/-! ### Strips (09 R261 to R264) -/

/-- The engine that X[2:0] names. -/
def engineX (o : CoreForm) : Nat := o.x.toNat % 8

/-- SGO (09 R261). -/
def execSgo (o : CoreForm) (s : State) : Host.Outcome State Fault Refusal :=
  let e := engineX o
  let reg := o.x.getLsbD 4
  coreInstr o { compute := e != 1 && !isSteward s.cur.unit, reads := if reg then [(o.a.toNat, o.la)] else [] } (fun s m vs =>
    if isSteward s.cur.unit then s.badOperand
    else if (s.me.strip e).state = 2 then .trap { cause := 0x02, i0 := 11 } none
    else
      let target : Pos := if reg then (nth vs 0).extractLsb' 0 23 else targetOf o
      let m := if e = 1 then m.abandon m.cur.unit m.bank else m
      let m := m.modStrip m.cur.unit m.bank e fun t => { t.clean with state := 1, pos := target, el := o.x.getLsbD 3 }
      .done (if e = 2 then m.modHere fun t => { t with scan := none } else m)) s

/-- The strips that X[3:0] names. -/
def stripsX (o : CoreForm) : List Nat := (List.range 4).filterMap fun i => if o.x.getLsbD i then some (i + 1) else none

/-- SSTART and SSTOP name a strip that does not run in exchange phases. -/
def namesCompute (o : CoreForm) : Bool := o.x.extractLsb' 1 3 != 0

/-- SSTART (09 R262): the common start cycle is two after issue. -/
def execSstart (o : CoreForm) (s : State) : Host.Outcome State Fault Refusal :=
  coreInstr o { compute := namesCompute o && !isSteward s.cur.unit } (fun s m _ =>
    if isSteward s.cur.unit then s.badOperand
    else if (stripsX o).any (fun e => (s.me.strip e).state == 0) then .trap { cause := 0x02, i0 := 12 } none
    else .done ((stripsX o).foldl (fun m e => m.modStrip m.cur.unit m.bank e fun t =>
      if t.state = 2 then t
      else { t with state := 2, next := if t.state = 1 ∨ t.state = 4 then m.cycle + 2 else max t.next (m.cycle + 2) }) m)) s

/-- SSTOP (09 R263). -/
def execSstop (o : CoreForm) (s : State) : Host.Outcome State Fault Refusal :=
  coreInstr o {} (fun s m _ =>
    if isSteward s.cur.unit then s.badOperand
    else .done ((stripsX o).foldl (fun m e => m.modStrip m.cur.unit m.bank e fun t =>
      if t.state = 2 then { t with state := 3 } else t) m)) s

/-- GSET (09 R264). -/
def execGset (o : CoreForm) (s : State) : Host.Outcome State Fault Refusal :=
  let imm := o.x.getLsbD 4
  coreInstr o { preds := if imm then [] else [o.a.toNat % 16] } (fun s m _ =>
    if isSteward s.cur.unit then s.badOperand
    else
      let v := (if imm then o.imm.getLsbD 0 else m.me.readP (o.a.toNat % 16)) != o.x.getLsbD 3
      let i := o.d.toNat % 8
      .done (m.modStrip m.cur.unit m.bank (engineX o) fun t =>
        { t with guards := (t.guards &&& ~~~BitVec.twoPow 8 i) ||| (if v then BitVec.twoPow 8 i else 0) })) s

/-! ### Phases (13 R366, R367) -/

/-- PHEND (13 R366): it stands at F0 until the start pulse releases it. -/
def execPhend (o : CoreForm) (s : State) : Host.Outcome State Fault Refusal :=
  coreInstr o {} (fun s m _ =>
    if isSteward s.cur.unit then s.badOperand
    else if s.me.released then .done (m.modMe fun x => { x with released := false })
    else if s.me.atPhend then .wait 8 m
    else if s.me.pulseDue then .wait 8 (m.modMe fun x => { x with atPhend := true })
    else .wait 8 (m.modMe fun x => { x with phend := true, atPhend := true, arrived := false, checked := false })) s

/-- PHBUD (13 R367): the new budget counts from the next compute phase. -/
def execPhbud (o : CoreForm) (s : State) : Host.Outcome State Fault Refusal :=
  let reg := o.x.getLsbD 0
  coreInstr o { reads := if reg then [(o.a.toNat, o.la)] else [] } (fun s m vs =>
    let v : BitVec 32 := if reg then (nth vs 0).extractLsb' 0 32 else o.imm.setWidth 32
    if v = 0 then s.badOperand else .done (m.modMe fun x => { x with budget := v })) s

/-! ### Timelines (13 R375, R376) -/

/-- TLSIG (13 R375). -/
def execTlsig (o : CoreForm) (s : State) : Host.Outcome State Fault Refusal :=
  let k := o.x.toNat % 16
  coreInstr o {} (fun s m _ =>
    if !isSteward s.cur.unit && decide (4 ≤ k) then s.badOperand
    else
      let rel := o.x.getLsbD 4
      let (m, _) := m.newOp m.cur.unit m.bank 0 (some k) rel false true false (if rel then m.me.storesOut else 0)
      .done (m.drainOps m.cur.unit m.bank)) s

/-- The unit and context of an agent value (08 R235). -/
def agentPlace (a : Nat) : Option (Nat × Bool) :=
  if a < 0x600 then some (a / 2, a % 2 == 1) else if a < 0x610 then some (768 + (a - 0x600), false) else none

/-- The counter that a TLWAIT compares, or why it traps (13 R376). -/
def State.timelineView (s : State) (a k : Nat) : Nat ⊕ Trap :=
  match agentPlace a with
  | none => .inr { cause := 0x02, i0 := 7, i1 := s.me.slotWord }
  | some (u, c) =>
    let y := s.ctx u c
    if !isSteward u && decide (4 ≤ k) then .inr { cause := 0x02, i0 := 7, i1 := s.me.slotWord }
    else if isSteward u then .inl (y.tl.look 0 k)
    else if y.life == .free then .inl 0
    else if !isSteward s.cur.unit && y.jobId != s.me.jobId then .inr { cause := 0x11, i0 := BitVec.ofNat 64 a }
    else if y.life == .placed || y.life == .loading then .inl 0
    else .inl (y.tl.look 0 k)

/-- TLWAIT (13 R376). -/
def execTlwait (o : CoreForm) (s : State) : Host.Outcome State Fault Refusal :=
  coreInstr o { reads := [(o.a.toNat, o.la), (o.b.toNat, o.lb)] } (fun s m vs =>
    if 0x1000 ≤ (nth vs 0).toNat then s.badOperand
    else match s.timelineView (nth vs 0).toNat (o.x.toNat % 16) with
      | .inr t => .trap t none
      | .inl n => if (nth vs 1).toNat ≤ n then .done m else .wait 8 s) s

/-! ### Time (13 R371, R372) -/

/-- WAITT (13 R371): its last cycle is the one before the first edge at or after the time, or its only one. -/
def execWaitt (o : CoreForm) (s : State) : Host.Outcome State Fault Refusal :=
  coreInstr o { reads := [(o.a.toNat, o.la)] } (fun s m vs =>
    if (nth vs 0).toNat * timePerNs ≤ s.time + s.timeStep then .done m else .wait 8 s) s

/-- RDCYC (13 R372). -/
def execRdcyc (o : CoreForm) (s : State) : Host.Outcome State Fault Refusal :=
  coreInstr o { writes := [.sreg o.d.toNat] } (fun _ m _ => m.result o.d.toNat (BitVec.ofNat 64 m.cycle)) s

/-- OFFSET as word 2 of 13 R368 shows it, and the flags beside it. -/
def Servo.status (v : Servo) : Word :=
  fields [(v.lock.toNat, 63), (v.hold.toNat, 62), (wrap 32 v.offset, 0)]

/-- RDTIME (13 R372), 2 cy. -/
def execRdtime (o : CoreForm) (s : State) : Host.Outcome State Fault Refusal :=
  coreInstr o { writes := [.sreg o.d.toNat], lat := 2 } (fun _ m _ =>
    m.resultLater 2 o.d.toNat (match o.x.toNat with
      | 0 => BitVec.ofNat 64 m.ns
      | 1 => BitVec.ofNat 64 (m.ns % 2 ^ 48 * 65536 + m.frac)
      | _ => m.servo.status)) s

/-- RDPHASE (13 R372). -/
def execRdphase (o : CoreForm) (s : State) : Host.Outcome State Fault Refusal :=
  coreInstr o { writes := [.sreg o.d.toNat] } (fun _ m _ =>
    let st := isSteward m.cur.unit
    m.result o.d.toNat (match o.x.toNat with
      | 0 => BitVec.ofNat 64 (m.phaseOf m.cur.unit m.bank)
      | 1 => if st then 0 else BitVec.ofNat 64 m.me.localCycle
      | _ => if st || m.inExchange then 0 else BitVec.ofNat 64 m.me.deadline)) s

/-! ### Traps of software (14 R395, R396) -/

/-- TRAP (14 R395). -/
def execTrap (o : CoreForm) (s : State) : Host.Outcome State Fault Refusal :=
  coreInstr o {} (fun s m _ => .after m { cause := 0x20, i0 := o.imm.setWidth 64, i1 := s.me.pc.setWidth 64 }) s

/-- BRK (14 R395). -/
def execBrk (o : CoreForm) (s : State) : Host.Outcome State Fault Refusal :=
  coreInstr o {} (fun s m _ => .after m { cause := 0x21, i0 := o.imm.setWidth 64, i1 := s.me.pc.setWidth 64 }) s

/-- ERET (14 R396). -/
def execEret (o : CoreForm) (s : State) : Host.Outcome State Fault Refusal :=
  coreInstr o {} (fun s m _ =>
    if !s.me.inHandler then .trap { cause := 0x02, i0 := 17 } none
    else
      let m := m.traceEvent m.cur.unit 1 0 m.bank (BitVec.ofNat 64 (s.me.pc.toNat * 2 ^ 23 + (s.me.epc.extractLsb' 0 23).toNat))
      .moved (m.returnFromTrap m.cur.unit m.bank)) s

/-! ### Control state registers and fences (04 R103 to R105, R125, R126) -/

/-- The register index of MFC and MTC. -/
def indexOf (o : CoreForm) : Nat := (o.imm.extractLsb' 0 12).toNat

/-- What MFC reads: of ctl.fpend, on a tile, the flags of what has completed before this cycle (04 R125). -/
def State.mfcWord (s : State) (i : Nat) : Word :=
  if i = 0x25 ∧ isSteward s.cur.unit = false then s.me.flagsSeen.setWidth 64 else s.ctlRead s.cur.unit s.bank i

/-- MFC (04 R125). -/
def execMfc (o : CoreForm) (s : State) : Host.Outcome State Fault Refusal :=
  coreInstr o { writes := [.sreg o.d.toNat] } (fun _ m _ =>
    m.result o.d.toNat (m.mfcWord (indexOf o))) s

/-- MTC (04 R103 to R105, R125). -/
def execMtc (o : CoreForm) (s : State) : Host.Outcome State Fault Refusal :=
  coreInstr o { reads := [(o.b.toNat, o.lb)] } (fun s m vs =>
    let v := nth vs 0
    let i := indexOf o
    if ctlMask i = 0 ∨ v &&& ~~~ctlMask i ≠ 0 then .trap { cause := 0x03, i1 := s.me.slotWord } none
    else if (i = 0x30 ∨ i = 0x31) ∧ dispLegal v = false then s.badOperand
    else .done (m.modMe fun x => x.ctlWrite i v)) s

/-- Every earlier load and store of the context has made its bank access (04 R126). -/
def Ctx.accessesDone (x : Ctx) : Bool := x.accesses.isEmpty

/-- Every started strip segment has executed SEND (04 R126). -/
def Ctx.stripsSent (x : Ctx) : Bool :=
  [1, 2, 3, 4].all fun e => (x.strip e).state == 0 || (x.strip e).state == 1 || (x.strip e).state == 4

/-- FENCE local (04 R126). -/
def execFenceLocal (o : CoreForm) (s : State) : Host.Outcome State Fault Refusal :=
  coreInstr o {} (fun s m _ => if s.me.accessesDone then .done m else .wait 8 s) s

/-- FENCE strips (04 R126). -/
def execFenceStrips (o : CoreForm) (s : State) : Host.Outcome State Fault Refusal :=
  coreInstr o {} (fun s m _ => if s.me.accessesDone && s.me.stripsSent then .done m else .wait 8 s) s

/-! ### The trace buffer (14 R410) -/

/-- TRACE.cfg (14 R410). -/
def execTraceCfg (o : CoreForm) (s : State) : Host.Outcome State Fault Refusal :=
  coreInstr o { reads := [(o.a.toNat, o.la)] } (fun s m vs =>
    let v := nth vs 0
    if v &&& 0x0000F0FF00000001 ≠ 0 ∨ v.getLsbD 43 then s.badOperand
    else .done (m.modHere fun t => { t with trace := t.trace.control v })) s

/-- TRACE.mark (14 R410). -/
def execTraceMark (o : CoreForm) (s : State) : Host.Outcome State Fault Refusal :=
  coreInstr o { reads := [(o.a.toNat, o.la)] } (fun _ m vs =>
    .done (m.traceEvent m.cur.unit 4 0 m.bank (nth vs 0))) s

/-- TRACE.trig (14 R410): a trigger match at the current HEAD. -/
def execTraceTrig (o : CoreForm) (s : State) : Host.Outcome State Fault Refusal :=
  coreInstr o {} (fun _ m _ =>
    .done (m.modHere fun h =>
      let t := h.trace
      let n := (t.ctl.extractLsb' 48 13).toNat
      let ctl := t.ctl &&& 0x7FFFFFFFFFFFFFFF
      { h with trace := { t with
          ctl := if n = 0 then ctl ||| BitVec.twoPow 64 62 else ctl
          tidx := t.head
          post := if n = 0 then none else some n } })) s

end Sys2Proof.Machine
end

