-- ==== Sys2Proof/Machine/Queues.lean ====
section
/-!
DEFINITION. Task records, the task queues, readiness and the order of selection, and TSPAWN (11 R327 to R329, R334).
-/
namespace Sys2Proof.Machine

/-! ### Task records (11 R327) -/

/-- `n` bytes at byte `i` of a record. -/
def recField (t : BitVec 1024) (i n : Nat) : Nat := bits t.toNat (8 * i) (8 * n)

/-- IMAGE of a task. -/
def taskImage (t : BitVec 1024) : Nat := recField t 0 8
/-- ROWS of a task. -/
def taskRows (t : BitVec 1024) : Nat := recField t 16 1
/-- COLS of a task. -/
def taskCols (t : BitVec 1024) : Nat := recField t 17 1
/-- NMOD of a task. -/
def taskModules (t : BitVec 1024) : Nat := recField t 18 2
/-- PRI of a task. -/
def taskPri (t : BitVec 1024) : Nat := bits t.toNat 160 3
/-- MODE of a task: 0 single-context, 1 dual A, 2 dual B. -/
def taskMode (t : BitVec 1024) : Nat := bits t.toNat 163 2
/-- REPL of a task. -/
def taskRepl (t : BitVec 1024) : Bool := t.getLsbD 165
/-- DONESIG of a task. -/
def taskDonesig (t : BitVec 1024) : Bool := t.getLsbD 166
/-- QUEUE of a task. -/
def taskQueue (t : BitVec 1024) : Nat := recField t 21 1
/-- DONE of a task. -/
def taskDone (t : BitVec 1024) : Nat := recField t 22 1

/-- Agent, counter and threshold of dependence `i`. -/
def taskDep (t : BitVec 1024) (i : Nat) : Nat × Nat × Nat :=
  let w := recField t (32 + 8 * i) 8
  (bits w 52 12, bits w 48 4, bits w 0 48)

/-- A dependence names a counter of this module, or is unused. -/
def depLegal (d : Nat × Nat × Nat) : Bool :=
  d.1 == 0xFFD || (decide (d.1 < 0x600) && decide (d.2.1 ≤ 3)) || (decide (0x600 ≤ d.1) && decide (d.1 ≤ 0x60F))

/-- A record that 11 R327 permits. -/
def taskLegal (t : BitVec 1024) : Bool :=
  decide (taskImage t < 2 ^ 51) && taskImage t % 128 == 0 && decide (recField t 8 8 < 2 ^ 51)
    && decide (1 ≤ taskRows t) && decide (taskRows t ≤ 24) && decide (1 ≤ taskCols t) && decide (taskCols t ≤ 32)
    && decide (1 ≤ taskModules t) && decide (taskModules t ≤ 576) && taskMode t != 3 && !t.getLsbD 167
    && decide (taskQueue t < 16) && decide (taskDone t < 16) && recField t 23 1 == 0
    && (List.range 4).all fun i => depLegal (taskDep t i)

/-- A used counter has reached its threshold. -/
def State.depMet (s : State) (d : Nat × Nat × Nat) : Bool :=
  d.1 == 0xFFD || match agentPlace d.1 with
    | some (u, c) => decide (d.2.2 ≤ (s.ctx u c).tl.look 0 d.2.1)
    | none => false

/-- Every dependence of a task is met. -/
def State.depsMet (s : State) (t : BitVec 1024) : Bool := (List.range 4).all fun i => s.depMet (taskDep t i)

/-! ### Queues (11 R328) -/

/-- A task queue of the module. -/
def State.queue (s : State) (q : Nat) : TaskQueue := s.queues.look {} q

/-- A task queue changed. -/
def State.modQueue (s : State) (q : Nat) (f : TaskQueue → TaskQueue) : State :=
  { s with queues := s.queues.put q (f (s.queue q)) }

/-- Virtual address of record `n`. -/
def TaskQueue.place (q : TaskQueue) (n : Nat) : Nat := q.base + 128 * (n % q.size)

/-- Where record `n` lies in memory, through the translations of the queue's job. -/
def State.ringPlace (s : State) (q : TaskQueue) (n : Nat) (kind : AccessKind) : AddressFault ⊕ Place :=
  match s.rootOf q.job with
  | none => .inl { cause := 0x10, level := 1 }
  | some (_, root) =>
    match walkTables s.tableRead root (q.place n) with
    | .bad level reason e => .inl { cause := if reason = 3 then 0x13 else 0x10, level := level, reason := reason, entry := e }
    | .leaf e sz => s.checkLeaf kind (q.place n) e sz

/-- The die in whose HBM record `n` of a queue lies (11 R342). -/
def State.ringDie (s : State) (q n : Nat) : Nat :=
  match s.ringPlace (s.queue q) n .read with
  | .inr p => bits p.pa 38 2
  | .inl _ => 0

/-- What a record reads as. -/
inductive Recorded where
  | absent
  | poisoned
  | task (t : BitVec 1024)

/-- Record `n` of a queue as it stands in its ring. -/
def State.recordOf (s : State) (q : TaskQueue) (n : Nat) : Recorded :=
  match s.ringPlace q n .read with
  | .inl f => if f.cause = 0x13 then .poisoned else .absent
  | .inr p =>
    if !isHeld p.pa then .absent
    else if (s.firstPoison p.pa 128).isSome then .poisoned
    else
      let t := BitVec.ofNat 1024 (s.loadPA p.pa 128)
      if taskLegal t then .task t else .absent

/-- Records that have been passed are removed. -/
def trimRecords : List (Nat × RecordState × Option Nat) → List (Nat × RecordState × Option Nat)
  | (_, .taken, _) :: rest => trimRecords rest
  | rs => rs

/-- HEAD passes every TAKEN record at the head of the ring. -/
def TaskQueue.trim (q : TaskQueue) : TaskQueue :=
  let rs := trimRecords q.recs
  { q with recs := rs, head := (q.head + (q.recs.length - rs.length)) % 2 ^ 32 }

/-- Why an append fails: a trap, or a full queue. -/
inductive Appended where
  | trap (t : Trap)
  | full
  | done (s : State) (n : Nat)

/-- Append a task of job `id` to its queue; `anyJob`: a steward's append (11 R334). -/
def State.append (s : State) (a : Actor) (t : BitVec 1024) (id : BitVec 32) (anyJob : Bool) (slot : Word) : Appended :=
  let k := taskQueue t
  let q := s.queue k
  if !taskLegal t then .trap { cause := 0x02, i0 := 7, i1 := slot }
  else if q.size = 0 then .trap { cause := 0x02, i0 := 18, i1 := slot }
  else if !anyJob && q.job != id then .trap { cause := 0x11, i0 := BitVec.ofNat 64 k }
  else if q.size ≤ q.recs.length then .full
  else match s.ringPlace q q.tail .write with
    | .inl f => .trap { cause := f.cause, i0 := BitVec.ofNat 64 (q.place q.tail), i1 := BitVec.ofNat 64 f.info1 }
    | .inr p =>
      let (s, _) := s.writePlace a p 128 t.toNat 0
      .done (s.modQueue k fun q => { q with
        tail := (q.tail + 1) % 2 ^ 32, recs := q.recs ++ [(q.tail, .waiting, none)] }) q.tail

/-! ### TSPAWN (11 R334) -/

/-- TSPAWN (11 R334): D 8 cycles after issue. -/
def execTspawn (o : CoreForm) (s : State) : Host.Outcome State Fault Refusal :=
  coreInstr o (usesA o 8) (fun s m vs =>
    withRequest (nth vs 0).toNat 128 64 s m fun m v =>
      match m.append (m.actor m.cur.unit m.bank) (BitVec.ofNat 1024 v) s.me.jobId (isSteward s.cur.unit) s.me.slotWord with
      | .trap t => .trap t none
      | .full => m.resultLater 8 o.d.toNat (BitVec.allOnes 64)
      | .done m n => m.resultLater 8 o.d.toNat (BitVec.ofNat 64 n)) s

/-! ### Readiness and selection (11 R327, R329) -/

/-- Records whose dependences are now met become ready; a ready record stays so. -/
def State.updateReady (s : State) : State :=
  s.queues.foldl (fun s e =>
    let fresh := e.2.recs.filterMap fun r =>
      if r.2.2.isNone then
        match s.recordOf e.2 r.1 with
        | .task t => if s.depsMet t then some r.1 else none
        | .poisoned => some r.1
        | .absent => none
      else none
    if fresh.isEmpty then s
    else s.modQueue e.1 fun q => { q with
      recs := q.recs.map fun r => if fresh.contains r.1 then (r.1, r.2.1, some 0) else r }) s

/-- A boundary of a job is counted for every ready record of its queues. -/
def State.countBoundary (s : State) (id : BitVec 32) : State :=
  s.queues.foldl (fun s e => if e.2.job != id then s else
    s.modQueue e.1 fun q => { q with recs := q.recs.map fun r => (r.1, r.2.1, r.2.2.map (· + 1)) }) s

/-- The WAITING records that are ready: queue, record number, waiting count. -/
def State.readyRecords (s : State) : List (Nat × Nat × Nat) :=
  s.queues.flatMap fun e => e.2.recs.filterMap fun r =>
    match r.2.1, r.2.2 with
    | .waiting, some w => some (e.1, r.1, w)
    | _, _ => none

/-- The effective priority of a task that has waited `w` boundaries in a queue. -/
def effectivePriority (age pri w : Nat) : Nat := min 7 (pri + (if age = 0 then 0 else w / age))

/-- The ready tasks in the order of selection: queue, record number, waiting count, task. -/
def State.readyTasks (s : State) : List (Nat × Nat × Nat × BitVec 1024) :=
  let all := s.readyRecords.filterMap fun e =>
    match s.recordOf (s.queue e.1) e.2.1 with
    | .task t => some (e.1, e.2.1, e.2.2, t)
    | _ => none
  (List.range 8).flatMap fun i =>
    all.filter fun e => effectivePriority (s.queue e.1).age (taskPri e.2.2.2) e.2.2.1 == 7 - i

/-- The first ready record that is poisoned. -/
def State.poisonedRecord (s : State) : Option (Nat × Nat) :=
  (s.readyRecords.find? fun e => match s.recordOf (s.queue e.1) e.2.1 with
    | .poisoned => true
    | _ => false).map fun e => (e.1, e.2.1)

/-- The reserving task is chosen, or goes when it no longer waits (11 R329). -/
def State.chooseReserving (s : State) : State :=
  let waits := fun (q n : Nat) => (s.queue q).recs.any fun r => r.1 == n && (match r.2.1 with
    | .waiting => true
    | _ => false)
  let s := match s.reserving with
    | some (q, n) => if waits q n then s else { s with reserving := none, reservedMarks := [] }
    | none => s
  if s.reserving.isSome || s.queues.all (fun e => e.2.resv == 0) then s
  else match s.readyTasks.find? fun e => (s.queue e.1).resv != 0 && decide ((s.queue e.1).resv ≤ e.2.2.1) with
    | some (q, n, _) => { s with reserving := some (q, n), reservedMarks := [] }
    | none => s

end Sys2Proof.Machine
end

