-- ==== Sys2Proof/Machine/Gangs.lean ====
section
/-!
DEFINITION. Jobs, regions, placements and launches; context switches, saves and loads (11 R326, R330 to R340; 12 R331, R356).
-/
namespace Sys2Proof.Machine

/-! ### Small accesses -/

/-- A placement entry. -/
def State.placement (s : State) (p : Nat) : Placement := s.placed.look {} p

/-- A placement entry changed. -/
def State.modPlacement (s : State) (p : Nat) (f : Placement → Placement) : State :=
  { s with placed := s.placed.put p (f (s.placement p)) }

/-- The actor that the load and save engines of a steward's die are for a job (08 R235). -/
def State.engineActor (s : State) (st : Nat) (id : BitVec 32) : Actor where
  agent := 0x610 + 16 * dieOf st
  phase := match s.jobSlot id with
    | some j => (s.job j).phase
    | none => 0

/-- A fault reported to a steward (11 R337). -/
def State.tellSteward (s : State) (st cause va : Nat) : State := s.pend st false { cause := cause, i0 := BitVec.ofNat 64 va }

/-- The task record of the placement that a context belongs to. -/
def State.taskOf (s : State) (u : Nat) (c : Bool) : BitVec 1024 := (s.placement (s.ctx u c).place).task

/-- The module's job slot closes; the registers that stewards write stay. -/
def Job.close (b : Job) : Job :=
  { bplane := b.bplane, root0 := b.root0, root1 := b.root1, ranges := b.ranges }

/-- A job closes when its last gang on the module has ended and no queue bound to it holds a task (11 R326). -/
def State.closeJob (s : State) (id : BitVec 32) : State :=
  match s.jobSlot id with
  | none => s
  | some j =>
    if s.placed.any (fun e => e.2.state != 0 && e.2.job == id) || s.saved.any (·.job == id)
        || s.queues.any (fun e => e.2.job == id && !e.2.recs.isEmpty) then s
    else s.modJob j Job.close

/-! ### Regions (11 R331, R332) -/

/-- The shape signature of a task at an origin. -/
def signature (t : BitVec 1024) (row0 col0 : Nat) : Word :=
  let rows := taskRows t
  let cols := taskCols t
  let rb := if row0 < 12 ∧ 12 < row0 + rows then 12 - row0 else 0
  let cb := if col0 < 16 ∧ 16 < col0 + cols then 16 - col0 else 0
  BitVec.ofNat 64 ((taskModules t - 1) * 2 ^ 54 + taskMode t * 2 ^ 46 + (rows - 1) * 2 ^ 41 + (cols - 1) * 2 ^ 35
    + row0 % 4 * 2 ^ 33 + col0 % 4 * 2 ^ 31 + rb * 2 ^ 27 + cb * 2 ^ 22)

/-- A context of a region is not free for a task of mode `mode`. -/
def State.contextBusy (s : State) (mode u : Nat) (c : Bool) : Bool :=
  (s.ctx u c).life != .free
    || ((s.ctx u !c).life != .free && (mode == 0 || taskMode (s.taskOf u !c) == 0))

/-- ROWS × COLS of the reserving task. -/
def State.reservedArea (s : State) : Nat :=
  match s.reserving with
  | none => 0
  | some (q, n) => match s.recordOf (s.queue q) n with
    | .task t => taskRows t * taskCols t
    | _ => 0

/-- Why a region is not placeable for a task, as a status code; `self`: the task is the reserving one. -/
def State.regionStatus (s : State) (t : BitVec 1024) (self : Bool) (row0 col0 : Nat) (c : Bool) : Option Nat :=
  if 24 < row0 + taskRows t ∨ 32 < col0 + taskCols t ∨ c ≠ (taskMode t == 2) then some 2
  else
    let us := regionTiles row0 col0 (taskRows t) (taskCols t)
    if us.any fun u => s.bench.getLsbD u then some 4
    else if us.any fun u => s.contextBusy (taskMode t) u c then some 3
    else if !self && decide (taskRows t * taskCols t < s.reservedArea) && us.any fun u => s.reservedMarks.contains (u, c) then
      some 5
    else none

/-- A free placement entry. -/
def State.freePlacement (s : State) : Option Nat := (List.range 64).find? fun p => (s.placement p).state == 0

/-- A task takes a region: entry `p` becomes PLACED, its record HELD. -/
def State.place (s : State) (p q n : Nat) (t : BitVec 1024) (row0 col0 : Nat) (c : Bool) : State :=
  let e : Placement :=
    { state := 1, queue := q, record := n % 65536, job := (s.queue q).job, sig := signature t row0 col0
      origin := row0 + col0 * 256 + c.toNat * 65536, task := t, steward := s.cur.unit }
  let s := s.modPlacement p fun _ => e
  let s := s.modQueue q fun k => k.setRecord n .held
  let s := if s.reserving = some (q, n) then { s with reserving := none, reservedMarks := [] } else s
  e.tiles.foldl (fun s u => s.modCtx u c fun x => { x with life := .placed, place := p, job := e.job.setWidth 64 }) s

/-! ### Statuses (11 R333) -/

/-- A status code as D takes it. -/
def statusWord (code : Nat) : Word := BitVec.ofNat 64 (2 ^ 63 + code)

/-- D 16 cycles after issue. -/
def State.status (m : State) (o : CoreForm) (v : Word) : CoreRes := m.resultLater 16 o.d.toNat v

/-- A gang instruction: privileged, D after 16 cycles. -/
def gangSpec (o : CoreForm) (two : Bool := false) : CoreSpec :=
  { usesA o 16 with
    privileged := true
    reads := if two then [(o.a.toNat, o.la), (o.b.toNat, o.lb)] else [(o.a.toNat, o.la)] }

/-- PLACE (11 R336). -/
def execPlace (o : CoreForm) (s : State) : Host.Outcome State Fault Refusal :=
  coreInstr o (gangSpec o true) (fun s m vs =>
    let a := (nth vs 0).toNat
    let b := (nth vs 1).toNat
    if 2 ^ 20 ≤ a ∨ 2 ^ 17 ≤ b ∨ bits b 5 3 ≠ 0 ∨ bits b 13 3 ≠ 0 then s.badOperand
    else
      let q := a / 65536
      match s.readyRecords.find? fun e => e.1 == q && e.2.1 % 65536 == a % 65536 with
      | none => m.status o (statusWord 1)
      | some (_, n, _) =>
        match s.recordOf (s.queue q) n with
        | .absent => m.status o (statusWord 1)
        | .poisoned => (m.tellSteward (768 + 4 * s.ringDie q n) 0x13 ((s.queue q).place n)).status o (statusWord 1)
        | .task t =>
          if (s.jobSlot (s.queue q).job).isNone then m.status o (statusWord 8)
          else match s.regionStatus t (s.reserving == some (q, n)) (bits b 0 5) (bits b 8 5) (b.testBit 16) with
            | some code => m.status o (statusWord code)
            | none =>
              match s.freePlacement with
              | none => m.status o (statusWord 6)
              | some p => (m.place p q n t (bits b 0 5) (bits b 8 5) (b.testBit 16)).status o (BitVec.ofNat 64 p)) s

/-! ### Images and launch (11 R330, R337) -/

/-- BANK`i` of a header. -/
def headerBank (h : BitVec 1024) (i : Nat) : Nat := recField h (32 + 2 * i) 2

/-- A header that 11 R330 permits for a task; in dual-context mode BANK12 to BANK23 are ignored. -/
def headerLegal (h t : BitVec 1024) : Bool :=
  decide (1 ≤ recField h 0 4) && decide (recField h 0 4 ≤ 4096) && decide (recField h 4 4 < 2 ^ 23)
    && decide (recField h 8 8 < 2 ^ 51) && recField h 16 1 == taskRows t && recField h 17 1 == taskCols t && recField h 18 2 == 0
    && recField h 88 40 == 0
    && (List.range (if taskMode t = 0 then 24 else 12)).all fun i =>
      let b := headerBank h i
      bits b 0 4 == 0 && decide (bits b 4 3 ≤ 4) && decide (bits b 8 3 ≤ 4) && decide (bits b 12 4 ≤ 11)

/-- The header of placement `p`, read through its job's translations. -/
def State.readHeader (s : State) (e : Placement) : State × (Trap ⊕ BitVec 1024) :=
  let va := taskImage e.task
  match s.readJob e.steward e.job (s.engineActor e.steward e.job) e.ahead .read 1 va 128 with
  | (s, .inl f) => (s, .inl { cause := f.cause, i0 := BitVec.ofNat 64 va, i1 := BitVec.ofNat 64 f.info1 })
  | (s, .inr (v, bad)) =>
    if bad != 0 then (s, .inl { cause := 0x13, i0 := BitVec.ofNat 64 va })
    else (s, .inr (BitVec.ofNat 1024 v))

/-- A PLACED entry is launched: its header is read and checked, its record TAKEN, its lines begin to load. -/
def State.launch (s : State) (p : Nat) (slot : Word) : State × Option Trap :=
  let e := s.placement p
  match s.readHeader e with
  | (_, .inl t) => (s, some t)
  | (s, .inr h) =>
    if !headerLegal h e.task then (s, some { cause := 0x02, i0 := 7, i1 := slot })
    else
      let s := s.modPlacement p fun e => { e with state := 2, header := h }
      let s := s.modQueue e.queue fun q => (q.setRecord e.record .taken).trim
      let s := e.tiles.foldl (fun s u => s.modCtx u e.bank fun x => { x with life := .loading }) s
      ((s.schedule (s.cycle + 1 + Config.loadLatency s.fresh) (.launchLoadComplete p)).used, none)

/-- LAUNCH.go (11 R337). -/
def execLaunchGo (o : CoreForm) (s : State) : Host.Outcome State Fault Refusal :=
  coreInstr o (gangSpec o) (fun s m vs =>
    let p := (nth vs 0).toNat
    if 64 ≤ p then s.badOperand
    else if (s.placement p).state ≠ 1 then m.status o (statusWord 1)
    else match m.launch p s.me.slotWord with
      | (_, some t) => .trap t none
      | (m, none) => m.status o (BitVec.ofNat 64 p)) s

/-- The first placeable region of a task, row-major. -/
def State.firstRegion (s : State) (t : BitVec 1024) (self : Bool) : Option (Nat × Nat) :=
  ((List.range 768).map fun i => (i / 32, i % 32)).find? fun e => (s.regionStatus t self e.1 e.2 (taskMode t == 2)).isNone

/-- No selectable task has a region, and one of them would have one if no tile were benched (12 R358). -/
def State.onlyBenched (s : State) (tasks : List (Nat × Nat × Nat × BitVec 1024)) : Bool :=
  tasks.any fun e => taskModules e.2.2.2 == 1
    && (State.firstRegion { s with bench := 0 } e.2.2.2 (s.reserving == some (e.1, e.2.1))).isSome

/-- LAUNCH.sel (11 R337). -/
def execLaunchSel (o : CoreForm) (s : State) : Host.Outcome State Fault Refusal :=
  coreInstr o { usesA o 16 with privileged := true, reads := [] } (fun s m _ =>
    let m := match s.poisonedRecord with
      | some (q, n) => m.tellSteward (768 + 4 * s.ringDie q n) 0x13 ((s.queue q).place n)
      | none => m
    let tasks := s.readyTasks.filter fun e => (s.jobSlot (s.queue e.1).job).isSome
    match tasks with
    | [] => m.status o (statusWord 1)
    | (q, n, _, t) :: _ =>
      if 1 < taskModules t then m.status o (statusWord (7 + (q * 65536 + n % 65536) * 256))
      else
        let found := tasks.findSome? fun e =>
          if 1 < taskModules e.2.2.2 then none
          else (s.firstRegion e.2.2.2 (s.reserving == some (e.1, e.2.1))).map fun r => (e.1, e.2.1, e.2.2.2, r)
        match found, s.freePlacement with
        | none, _ => m.status o (statusWord (if s.onlyBenched tasks then 4 else 3))
        | some _, none => m.status o (statusWord 6)
        | some (q, n, t, row0, col0), some p =>
          match (m.place p q n t row0 col0 (taskMode t == 2)).launch p s.me.slotWord with
          | (_, some t) => .trap t none
          | (m, none) => m.status o (BitVec.ofNat 64 p)) s

/-! ### Opening a job (11 R326, R337) -/

/-- Bytes of a job entry. -/
def entryField (v i n : Nat) : Nat := bits v (8 * i) (8 * n)

/-- A job entry that LAUNCH.open accepts. -/
def entryLegal (v : Nat) : Bool :=
  entryField v 0 4 != 0 && decide (entryField v 4 2 < 1024) && decide (entryField v 6 1 < 2) && decide (entryField v 7 1 ≤ 71)
    && decide (entryField v 32 8 < 2 ^ 51) && entryField v 48 16 == 0
    && (entryField v 6 1 == 0 || decide (4000 ≤ entryField v 20 4 + entryField v 16 4))

/-- The slot that a job takes: a free one whose translation register names it, else the lowest free one. -/
def State.slotFor (s : State) (id : BitVec 32) : Option Nat :=
  let free := (List.range 8).filter fun j => !(s.job j).opened
  match free.find? fun j => (s.job j).root0.getLsbD 63 && (s.job j).root1.extractLsb' 0 32 == id with
  | some j => some j
  | none => free.head?

/-- The job of an entry opens in slot `j`. -/
def State.openJob (s : State) (j v : Nat) : State :=
  s.modJob j fun b => { b.close with
    opened := true, id := BitVec.ofNat 32 (entryField v 0 4), dgrp := entryField v 4 2, timed := entryField v 6 1 == 1
    bplane := entryField v 7 1, k := entryField v 8 8, tc := entryField v 16 4, tx := entryField v 20 4
    straggle := if entryField v 24 4 = 0 then 65536 else entryField v 24 4
    stallto := if entryField v 28 4 = 0 then 2 ^ 20 else entryField v 28 4 }

/-- LAUNCH.open (11 R337). -/
def execLaunchOpen (o : CoreForm) (s : State) : Host.Outcome State Fault Refusal :=
  coreInstr o (gangSpec o) (fun s m vs =>
    withRequest (nth vs 0).toNat 64 16 s m fun m v =>
      let id := BitVec.ofNat 32 (entryField v 0 4)
      let first := entryField v 32 8
      let st := m.cur.unit
      if !entryLegal v || (s.jobSlot id).isSome then s.badOperand
      else if entryField v 6 1 = 1 ∧ s.servo.lock = false then .trap { cause := 0x02, i0 := 16, i1 := s.me.slotWord } none
      else match s.slotFor id with
        | none => m.status o (statusWord 6)
        | some j =>
          if first = 0 then (m.openJob j v).status o 0
          else match m.readJob st id { agent := agentOf st false, phase := 0 } [] .read 2 first 128 with
            | (_, .inl f) => .trap { cause := f.cause, i0 := BitVec.ofNat 64 first } none
            | (m, .inr (t, bad)) =>
              if bad != 0 then .trap { cause := 0x13, i0 := BitVec.ofNat 64 first } none
              else match m.append (m.actor st false) (BitVec.ofNat 1024 t) id false s.me.slotWord with
                | .trap t => .trap t none
                | .full => m.status o (statusWord 10)
                | .done m n => (m.openJob j v).status o (BitVec.ofNat 64 n)) s

/-! ### The end of a launch (11 R337) -/

/-- The image lines from line `i` on, with their poisoned bytes, or the fault of one and its address. -/
def State.imageLines (s : State) (e : Placement) : Nat → Nat → State × (Nat × Nat ⊕ List (Nat × Nat))
  | 0, _ => (s, .inr [])
  | n + 1, i =>
    let va := recField e.header 8 8 + 64 * i
    match s.readJob e.steward e.job (s.engineActor e.steward e.job) e.ahead .code 2 va 64 with
    | (s, .inl f) => (s, .inl (f.cause, va))
    | (s, .inr l) =>
      match s.imageLines e n (i + 1) with
      | (s, .inr ls) => (s, .inr (l :: ls))
      | r => r

/-- Image lines from line `i` on written into the store of a member with their tags (09 R285). -/
def State.storeLines (s : State) (u : Nat) (c : Bool) : Nat → List (Nat × Nat) → State
  | _, [] => s
  | i, (v, bad) :: ls =>
    let pa := windowPA u (lineOffset i)
    let s := (s.storePA pa 64 v).poisonBytes pa 64 bad
    (s.mod u fun t => { t with tags := t.tags.put (i % 4096) (some (c, i)) }).storeLines u c (i + 1) ls

/-- The registers of member `m` of placement `p` as launch leaves them. -/
def memberCtx (device p m : Nat) (e : Placement) : Ctx :=
  let t := e.task
  let h := e.header
  let args := (List.range 8).map fun i => BitVec.ofNat 64 (recField t (64 + 8 * i) 8)
  let regs : Tab Word := Tab.putAll [] 4 args
  let regs := ((regs.put 2 (BitVec.ofNat 64 (recField h 24 4))).put 30 (BitVec.ofNat 64 (recField t 8 8))).put 31
    (BitVec.ofNat 64 (recField h 80 4 + m * recField h 84 4))
  let x : Ctx :=
    { s := regs, slim := BitVec.ofNat 64 (recField h 28 4) &&& ctlMask 0x020
      budget := BitVec.ofNat 32 (if recField t 24 4 = 0 then recField h 20 4 else recField t 24 4)
      gang := BitVec.ofNat 64 ((device * 64 + p) * 2 ^ 32 + m), job := BitVec.ofNat 64 (device * 2 ^ 32 + e.job.toNat)
      life := .waiting, place := p, ordinal := m }
  x.ctlWrite 0x026 (BitVec.ofNat 64 (recField t 28 4))

/-- A physical address is of a tile's accumulators, K-step counts, scan-state rows or latch slots (06 R171). -/
def isMatrixState (u pa : Nat) : Bool :=
  let off := pa % 2 ^ 22
  pa / 2 ^ 22 == windowPA u 0 / 2 ^ 22 && ((decide (0x260000 ≤ off) && decide (off < 0x278100))
    || (decide (0x280000 ≤ off) && decide (off < 0x28C000)) || (decide (0x290000 ≤ off) && decide (off < 0x298000)))

/-- The matrix state of a tile put away for context `c`, with its poisoned words and inverted bits (06 R201). -/
def State.stashMatrix (s : State) (u : Nat) (c : Bool) : State :=
  let t := s.tile u
  let p : Spill := { acc := t.acc, kcount := t.kcount, hs := t.hs, latch0 := t.latch0, latch1 := t.latch1
                     bad := s.poison.filter fun e => isMatrixState u e.1, flips := s.flips.filter fun e => isMatrixState u e.1 }
  { s.modCtx u c fun x => { x with spill := some p } with
    poison := s.poison.filter fun e => !isMatrixState u e.1, flips := s.flips.filter fun e => !isMatrixState u e.1 }

/-- The matrix state of context `c` put into the tile. -/
def State.fetchMatrix (s : State) (u : Nat) (c : Bool) : State :=
  let p := (s.ctx u c).spill.getD {}
  { s.mod u fun t => { t.setCtx c { t.ctx c with spill := none } with
      acc := p.acc, kcount := p.kcount, hs := p.hs, latch0 := p.latch0, latch1 := p.latch1 } with
    poison := p.bad.foldl (fun t e => t.put e.1 e.2) (s.poison.filter fun e => !isMatrixState u e.1)
    flips := p.flips.foldl (fun t e => t.put e.1 e.2) (s.flips.filter fun e => !isMatrixState u e.1) }

/-- The other context's matrix state is put away where it stands in the tile. -/
def State.makeRoom (s : State) (u : Nat) (c : Bool) : State :=
  if (s.ctx u !c).life != .free && (s.ctx u !c).spill.isNone then s.stashMatrix u (!c) else s

/-- Context `c` takes its tile: its matrix state comes in, and the tile's queues are empty. -/
def State.takeTile (s : State) (u : Nat) (c : Bool) : State :=
  ((s.makeRoom u c).fetchMatrix u c).mod u fun t =>
    { t with run := c, wload := {}, scan := none, accBusy := [], fifos := [], tokens := [], newTokens := [], goneTokens := [] }

/-- The banks of a member from its header (11 R330). -/
def Tile.launchBanks (t : Tile) (h : BitVec 1024) (c : Bool) : Tile :=
  let first := if t.dual && c then 12 else 0
  let n := if t.dual then 12 else 24
  { t with banks := t.banks.putAll first ((List.range n).map fun i => BitVec.ofNat 64 (headerBank h i)) }

/-- A context takes its tile unless the other one runs or is about to. -/
def State.settleIn (s : State) (u : Nat) (c : Bool) : State :=
  let other := (s.ctx u !c).life
  if other == .running || other == .waiting then s else s.takeTile u c

/-- One member is initialised and positioned at ENTRY. -/
def State.startMember (s : State) (p : Nat) (e : Placement) (lines : List (Nat × Nat)) (m u : Nat) : State :=
  let c := e.bank
  let s := s.storeLines u c 0 lines
  let s := s.mod u fun t =>
    let t := { t with dual := taskMode e.task != 0 }
    (t.setCtx c { memberCtx s.device p m e with spill := some {} }).launchBanks e.header c
  let s := s.settleIn u c
  let q := s.queueAt u c (BitVec.ofNat 23 (recField e.header 4 4))
  s.modCtx u c fun x => { x with queue := q }

/-- Apply `f` to each member of a list with its ordinal. -/
def eachMember (f : State → Nat → Nat → State) : State → Nat → List Nat → State
  | s, _, [] => s
  | s, m, u :: us => eachMember f (f s m u) (m + 1) us

/-- The contexts of a placement free, and its entry. -/
def State.freeGang (s : State) (p : Nat) : State :=
  let e := s.placement p
  let s := match s.jobSlot e.job with
    | some j => s.modJob j fun b => { b with spans := b.spans || decide (1 < taskModules e.task) }
    | none => s
  let s := e.tiles.foldl (fun s u => s.freeContext u e.bank) (s.modPlacement p fun _ => {})
  s.closeJob e.job

/-- LAUNCH_LOAD_COMPLETE (11 R337): every member's lines are loaded and its registers set; a line that may not be executed
cancels the launch. -/
def execLaunchLoadComplete (p : Nat) (s : State) : Host.Outcome State Fault Refusal :=
  let e := s.placement p
  .next <|
    if e.state ≠ 2 then s
    else match s.imageLines e (recField e.header 0 4) 0 with
      | (s, .inl (cause, va)) => (s.freeGang p).tellSteward e.steward cause va
      | (s, .inr lines) =>
        (eachMember (fun s m u => s.startMember p e lines m u) s 0 e.tiles).modPlacement p fun e =>
          { e with state := 3, ahead := [] }

/-! ### TEND (11 R335) -/

/-- TEND: the context's part of its task ends; the context stays for its job's boundaries. -/
def execTend (o : CoreForm) (s : State) : Host.Outcome State Fault Refusal :=
  coreInstr o {} (fun s m _ =>
    let x := s.me
    let states := [1, 2, 3, 4].map fun e => (x.strip e).state
    if isSteward s.cur.unit then s.badOperand
    else if states.contains 2 || x.streams.any (fun t => t.1 < 16) then .wait 8 s
    else if states.contains 3 || states.contains 5 then .trap { cause := 0x02, i0 := 14, i1 := x.slotWord } none
    else
      let idle := fun (t : Strip) => if t.state = 1 then { t with state := 0 } else t
      .done (m.modMe fun x => { x with
        tend := true, arrived := false, checked := false
        access := idle x.access, matrix := idle x.matrix, vector := idle x.vector, writeback := idle x.writeback })) s

/-! ### Pulses and suspension (11 R338) -/

/-- Every member of a gang has its tile: no other context runs there (01 R12, R17). -/
def State.inPlace (s : State) (e : Placement) : Bool := e.tiles.all fun u => (s.tile u).run == e.bank

/-- The contexts that a start pulse of a job is for: those running it, and for a compute phase those of each gang that waits to
start and whose members all have their tiles, so that they start on one pulse (01 R17). -/
def State.pulseUnits (s : State) (id : BitVec 32) (computes : Bool) : List Nat :=
  (s.units.filter fun e =>
    let x := e.2.ctx e.2.run
    !isSteward e.1 && x.jobId == id
      && (x.life == .running || (computes && x.life == .waiting && s.inPlace (s.placement x.place)))).map (·.1)

/-- A start pulse of a job leaves tile (0, 0) after `delay` cycles (01 R26). -/
def State.sendPulse (s : State) (j delay : Nat) : State :=
  let b := s.job j
  let computes := b.phase % 2 == 0
  let s := s.modJob j fun b => { b with
    pulse := false, pulseLeft := none, begun := true, lastStart := if computes then s.cycle + delay else b.lastStart }
  (s.pulseUnits b.id computes).foldl
    (fun s u => (s.modCtx u (s.tile u).run fun x => { x with pulseDue := true }).schedule (s.cycle + delay + pulseDelay u)
      (.startPulseArrival j u)) s

/-- Placements whose members have all been switched in or out. -/
def State.refreshPlacements (s : State) : State :=
  s.placed.foldl (fun s e =>
    let all := fun (l : Life) => e.2.tiles.all fun u => (s.ctx u e.2.bank).life == l
    if e.2.state = 5 && all .running then s.modPlacement e.1 fun p => { p with state := 4 }
    else if e.2.state = 4 && !e.2.saving && all .parked then s.modPlacement e.1 fun p => { p with state := 5 }
    else s) s

/-- A job all of whose gangs are parked or saved, or are being saved to be freed, is suspended; once every one runs again its start
pulse is sent. -/
def State.noteSuspension (s : State) (j delay : Nat) : State :=
  let b := s.job j
  let gangs := s.placed.filter fun e => e.2.job == b.id && (e.2.state == 4 || e.2.state == 5)
  let away := s.saved.filter (·.job == b.id)
  let gone := fun (e : Placement) => e.state == 5 || (e.saving && e.frees)
  if !b.opened then s
  else if !b.suspended then
    if (!gangs.isEmpty || !away.isEmpty) && gangs.all (fun e => gone e.2) then
      s.modJob j fun b => { b with suspended := true, suspendedAt := s.ns }
    else s
  else if away.isEmpty && !gangs.isEmpty && gangs.all (fun e => !gone e.2) then
    let s := s.modJob j fun b => { b with suspended := false, shift := b.shift + (s.ns - b.suspendedAt) }
    if b.pulse && !b.held then s.sendPulse j delay else s
  else s

/-- Suspension of every open job. -/
def State.noteSuspensions (s : State) (delay : Nat) : State := (List.range 8).foldl (fun s j => s.noteSuspension j delay) s

/-! ### Switching (11 R338, 06 R201) -/

/-- The circuits and meters of a context that leaves its tile (10 R325). -/
def State.leaveCircuits (s : State) (u : Nat) (c : Bool) : State :=
  let s := (List.range 16).foldl (fun s h =>
    let st := (s.handle u c h).state
    if st = 2 then s.tearCircuit u (.handle c h) 3 true
    else if st = 1 then
      (s.releaseCircuit (circuitId s.device u (.handle c h))).modHandle u c h fun e => { e with state := 4, cause := 3 }
    else s) s
  (List.range 16).foldl (fun s k =>
    if (s.meter u k).state != 0 && (s.meter u k).c == c then
      let s := if (s.meter u k).state = 4 then s.tearCircuit u (.meter k) 3 true
        else s.releaseCircuit (circuitId s.device u (.meter k))
      s.modMeter u k fun _ => {}
    else s) s

/-- Context `out` of a tile parks and the other one takes its place. -/
def State.swapTile (s : State) (u : Nat) (out : Bool) : State :=
  let s := s.leaveCircuits u out
  let s := s.mod u fun t =>
    let t := t.setCtx out { t.ctx out with life := .parked }
    let x := t.ctx !out
    t.setCtx (!out) { x with life := if x.life == .parked then .running else x.life }
  let s := (s.takeTile u !out).mod u fun t => { t with wload := { t.wload with rest := true, restFrom := s.cycle + 200 } }
  s.schedule (s.cycle + 230) (.latchRestoreComplete u)

/-- A context that holds its bank resident. -/
def Ctx.resident (x : Ctx) : Bool := x.life == .waiting || x.life == .running || x.life == .parked

/-- A gang is switched out: parked where every tile's other bank holds a resident context, else saved to HBM. -/
def State.switchGang (s : State) (p save : Nat) : State :=
  let e := s.placement p
  if e.tiles.all fun u => (s.tile u).dual && (s.ctx u !e.bank).resident then e.tiles.foldl (fun s u => s.swapTile u e.bank) s
  else
    let s := e.tiles.foldl (fun s u => (s.leaveCircuits u e.bank).modCtx u e.bank fun x => { x with life := .parked }) s
    let s := s.modPlacement p fun e => { e with saveAs := some (save + p * 2 ^ 31), frees := true, saving := true, sig_ := none }
    (s.schedule (s.cycle + 1 + Config.loadLatency s.fresh) (.ctxsaveComplete p)).used

/-- Every running gang of a job is switched out. -/
def State.switchJob (s : State) (j save : Nat) : State :=
  let id := (s.job j).id
  let s := s.modJob j fun b => { b with armed := none }
  let gangs := s.placed.filter fun e => e.2.job == id && e.2.state == 4 && !e.2.saving
  let s := gangs.foldl (fun s e => s.switchGang e.1 save) s
  s.refreshPlacements.noteSuspensions 200

/-- Streams of a context that end in banks which become visible at the next boundary into exchange (01 R23). -/
def State.visibleStreams (s : State) (u : Nat) (c : Bool) : Bool :=
  (s.ctx u c).streams.any fun e =>
    let q := e.2
    decide (e.1 < 16) && (q.kind == 0 || q.kind == 2) && (banksOf (q.imm * 64) ((q.cnt + 1) * q.elen)).any fun b =>
      (s.tile u).role b == 3 && (((s.tile u).bankReg b).extractLsb' 8 3) != 3

/-- A job frozen by a straggler fault at a boundary into exchange that only its streams hold up (11 R338). -/
def State.streamsOnly (s : State) (j target : Nat) : Bool :=
  let b := s.job j
  let members := (s.placed.filter fun e => e.2.job == b.id && e.2.state == 4).flatMap fun e => e.2.tiles.map fun u => (u, e.2.bank)
  b.valid && b.runState == 1 && (match b.winner with
    | some w => w.cause == 0x19
    | none => false) && b.phase % 2 == 0 && target == b.phase + 1
    && members.all (fun m => (s.ctx m.1 m.2).arrived && (s.tile m.1).dual && (s.ctx m.1 !m.2).resident)
    && members.any fun m => s.visibleStreams m.1 m.2

/-- CTXSW (11 R338). -/
def execCtxsw (o : CoreForm) (s : State) : Host.Outcome State Fault Refusal :=
  coreInstr o { privileged := true, reads := [(o.a.toNat, o.la)] } (fun s m vs =>
    withRequest (nth vs 0).toNat 32 16 s m fun m v =>
      let target := entryField v 8 8
      let save := entryField v 16 8
      match s.jobSlot (BitVec.ofNat 32 (entryField v 0 4)) with
      | none => s.badOperand
      | some j =>
        if entryField v 4 4 ≠ 0 ∨ entryField v 24 8 ≠ 0 ∨ save = 0 ∨ 2 ^ 51 ≤ save ∨ (s.job j).armed.isSome then s.badOperand
        else if s.streamsOnly j target then .done (m.switchJob j save)
        else .done (m.modJob j fun b => { b with armed := some (target, save) })) s

/-! ### Save areas (11 R339) -/

/-- The parts of a member's save area: offset in it, window offset, length. The control-core block and the bank registers come back
first: a write of ctl.srseed seeds the generators, and a bank belongs to the context that its register names. -/
def savedParts (c : Bool) : List (Nat × Nat × Nat) :=
  [(0x1D0000, 0x2B0000 + c.toNat * 0x10000, 0x10000), (0x1E0000, 0x2D0000, 192), (0, 0, 0x180000)
  , (0x180000, 0x240000 + c.toNat * 0x10000, 0x10000), (0x190000, 0x260000, 0x40000)]

/-- Pieces of at most 512 bytes of the parts. -/
def savedPieces (c : Bool) : List (Nat × Nat × Nat) :=
  (savedParts c).flatMap fun e => (List.range ((e.2.2 + 511) / 512)).map fun i =>
    (e.1 + 512 * i, e.2.1 + 512 * i, min 512 (e.2.2 - 512 * i))

/-- A context as its release would leave it: the queue from the registers that the freeze wrote, and their hidden copies
(04 R110). -/
def State.thawed (s : State) (u : Nat) (c : Bool) : Ctx :=
  let x := s.ctx u c
  match x.hidden with
  | none => { x with frozen := false }
  | some h =>
    let y := if x.epc == x.queue.f0.word then x else x.forgetResult
    { y with
      queue := s.reloadQueue u c x.epc x.enpc x.ennpc x.ebits
      ust := (x.ebits.extractLsb' 8 8).toNat, partial0 := x.ustate0, partial1 := x.ustate1
      epc := h.epc, enpc := h.enpc, ennpc := h.ennpc, ebits := h.ebits, ustate0 := h.ustate0, ustate1 := h.ustate1
      hidden := none, frozen := false, stopped := false, unchecked := true, since := none
      access := { x.access with slot := none }, matrix := { x.matrix with slot := none }
      vector := { x.vector with slot := none }, writeback := { x.writeback with slot := none } }

/-- Bytes written to virtual memory piece by piece; the address of a fault with its cause. -/
def State.savePieces (s : State) (e : Placement) : List (Nat × Nat × Nat × Nat) → State × Option (Nat × Nat)
  | [] => (s, none)
  | (va, n, v, bad) :: rest =>
    match s.writeJob e.steward e.job (s.engineActor e.steward e.job) e.ahead va n v bad with
    | (s, some f) => (s, some (f.cause, va))
    | (s, none) => s.savePieces e rest

/-- An instruction circuit as it is saved: TORN (10 R325). -/
def Handle.saved (h : Handle) : Handle := if h.state = 1 ∨ h.state = 2 then { h with state := 4, cause := 3 } else h

/-- The tile whose window the save of a member reads: thawed, its circuits TORN, its matrix state in place. -/
def State.shown (s : State) (u : Nat) (c : Bool) : State :=
  let x := s.thawed u c
  let s := s.modCtx u c fun _ => { x with handles := x.handles.map fun e => (e.1, e.2.saved) }
  if x.spill.isSome then (s.makeRoom u c).fetchMatrix u c else s

/-- What the windows of a context do not show, as the words that follow its bank registers in the save area: the fetch queue, the
core's micro-state, the state of its phase, generators, counts, and the report record (04 R127, 14 R412; log entry 37). -/
def Ctx.hiddenWords (x : Ctx) : List Word :=
  let q := x.queue
  [q.f0.word, q.f1.word, q.f2.word,
    fields [((q.annulBits).toNat, 0), (x.phend.toNat, 8), (x.atPhend.toNat, 9), (x.released.toNat, 10), (x.tend.toNat, 11)
      , (x.arrived.toNat, 12), (x.checked.toNat, 13), (x.pulseDue.toNat, 14), (x.ust, 16)],
    x.partial0, x.partial1, fields [(x.gen.toNat, 0), (x.seed.toNat, 32)],
    fields [(x.nanPending, 0), (x.nanCommitted, 32)], fields [(x.infPending, 0), (x.infCommitted, 32)],
    fields [(x.satPending, 0), (x.satCommitted, 32)], BitVec.ofNat 64 x.budgetNow, BitVec.ofNat 64 x.deadline,
    BitVec.ofNat 64 x.localCycle, BitVec.ofNat 64 x.arrivedAt] ++ (List.range 7).map fun i => x.report.look 0 i

/-- An entry of the fetch queue that comes back from a save area: its slot is fetched when its line is there. -/
def savedEntry (w : Word) (annul : Bool) : QEntry :=
  { pos := if w.extractLsb' 0 23 = noPos then none else some (w.extractLsb' 0 23), annul := annul }

/-- A context with the words of `hiddenWords`. -/
def Ctx.withHidden (x : Ctx) (ws : List Word) : Ctx :=
  let w := fun (i : Nat) => ws[i]?.getD 0
  let n := fun (i lo len : Nat) => bits (w i).toNat lo len
  let b := fun (i : Nat) => (w 3).getLsbD i
  { x with
    queue := { f0 := savedEntry (w 0) (b 0), f1 := savedEntry (w 1) (b 1), f2 := savedEntry (w 2) (b 2) }
    phend := b 8, atPhend := b 9, released := b 10, tend := b 11, arrived := b 12, checked := b 13, pulseDue := b 14, ust := n 3 16 16
    unchecked := true
    partial0 := w 4, partial1 := w 5, gen := (w 6).extractLsb' 0 32, seed := (w 6).extractLsb' 32 32
    nanPending := n 7 0 32, nanCommitted := n 7 32 32, infPending := n 8 0 32, infCommitted := n 8 32 32
    satPending := n 9 0 32, satCommitted := n 9 32 32
    budgetNow := (w 10).toNat, deadline := (w 11).toNat, localCycle := (w 12).toNat, arrivedAt := (w 13).toNat
    report := Tab.putAll [] 0 (ws.drop 14) }

/-- The place of the hidden words in a member's save area, and how many bytes they take. -/
def hiddenAt : Nat := 0x1E0100
/-- See `hiddenAt`. -/
def hiddenLength : Nat := 168

/-- The value of a list of words, the first lowest. -/
def wordsValue : List Word → Nat
  | [] => 0
  | w :: ws => w.toNat + 2 ^ 64 * wordsValue ws

/-- The pieces of a member's save area at virtual address `base`. -/
def State.memberPieces (s : State) (u : Nat) (c : Bool) (base : Nat) : List (Nat × Nat × Nat × Nat) :=
  let s := s.shown u c
  (savedPieces c).map (fun e => (base + e.1, e.2.2, s.windowRead u e.2.1 e.2.2, s.poisonMask (windowPA u e.2.1) e.2.2))
    ++ [(base + hiddenAt, hiddenLength, wordsValue (s.ctx u c).hiddenWords, 0)]

/-- The head of a save area. -/
def State.saveHead (s : State) (e : Placement) (base : Nat) : List (Nat × Nat × Nat × Nat) :=
  let phase := (s.engineActor e.steward e.job).phase
  [(base, 128, e.task.toNat, 0),
    (base + 0x80, 40, e.sig.toNat + e.job.toNat * 2 ^ 64 + phase * 2 ^ 128
      + (sigRows e.sig * sigCols e.sig) * 2 ^ 192 + e.origin * 2 ^ 256, 0)]

/-- A counter of a steward, coded as 16 × unit + counter, gains one. -/
def State.signalSteward (s : State) : Option Nat → State
  | none => s
  | some k => s.due (.timelineIncrement (k / 16) false (k % 16))

/-- CTXSAVE_COMPLETE (11 R338, R339): the save waits until every stream of its contexts has completed, a FAULTED one until
its retry has, then the area is written; with .free the contexts become free (09 R284). -/
def execCtxsaveComplete (p : Nat) (s : State) : Host.Outcome State Fault Refusal :=
  let e := s.placement p
  .next <|
    match e.saving, e.saveAs with
    | true, some base =>
      if e.tiles.any fun u => (s.ctx u e.bank).streams.any fun t => decide (t.1 < 16) then
        s.schedule (s.cycle + 1) (.ctxsaveComplete p)
      else
        let pieces := s.saveHead e base ++ (e.tiles.zip (List.range e.tiles.length)).flatMap fun m =>
          s.memberPieces m.1 e.bank (base + 0x1000 + m.2 * 0x200000)
        let done := fun (s : State) => s.modPlacement p fun e => { e with saving := false, saveAs := none }
        match s.savePieces e pieces with
        | (s, some (cause, va)) => (done s).tellSteward e.steward cause va
        | (s, none) =>
          let s := if e.frees then
              let s := e.tiles.foldl (fun s u => s.leaveCircuits u e.bank) s
              State.freeGang { s with saved := s.saved.filter (·.at_ != base) ++ [{ at_ := base, job := e.job }] } p
            else done s
          (s.noteSuspensions 200).signalSteward e.sig_
    | _, _ => s

/-- Every member of a gang is quiet, and parked, of a suspended job, or frozen at a completed boundary. -/
def State.maySave (s : State) (e : Placement) : Bool :=
  let suspended := match s.jobSlot e.job with
    | some j => (s.job j).suspended
    | none => true
  let held := match s.jobSlot e.job with
    | some j => (s.job j).pulse || (s.job j).pulseLeft.isSome
    | none => false
  e.tiles.all fun u =>
    let x := s.ctx u e.bank
    s.quiet u e.bank && (x.life == .parked || suspended || (x.frozen && (held || x.pulseLeft.isSome || x.life == .waiting)))

/-- CTXSAVE (11 R339). -/
def execCtxsave (o : CoreForm) (s : State) : Host.Outcome State Fault Refusal :=
  coreInstr o (gangSpec o) (fun s m vs =>
    withRequest (nth vs 0).toNat 16 16 s m fun m v =>
      let p := entryField v 0 1
      let at_ := entryField v 8 8
      if 64 ≤ p ∨ bits v 12 3 ≠ 0 ∨ entryField v 2 6 ≠ 0 ∨ at_ % 4096 ≠ 0 ∨ 2 ^ 51 ≤ at_ then s.badOperand
      else
        let e := s.placement p
        if e.state = 0 then m.status o (statusWord 1)
        else if e.state < 3 || !s.maySave e || e.saving then m.status o (statusWord 9)
        else
          let sig := if v.testBit 15 then some (m.cur.unit * 16 + bits v 8 4) else none
          let m := m.modPlacement p fun e => { e with saveAs := some at_, saving := true, frees := o.x.getLsbD 0, sig_ := sig }
          let m := (m.schedule (m.cycle + 1 + Config.loadLatency m.fresh) (.ctxsaveComplete p)).used
          m.status o (BitVec.ofNat 64 p)) s

/-! ### Context loads (11 R340) -/

/-- The open job whose save area stands at a virtual address: its id, the task record and the signature found. -/
def State.savedAt (s : State) (st va : Nat) : Option (BitVec 32 × BitVec 1024 × Word) :=
  (List.range 8).findSome? fun j =>
    let b := s.job j
    if !b.opened then none
    else match s.readJob st b.id (s.engineActor st b.id) [] .read 2 va 0x98 with
      | (_, .inr (v, 0)) =>
        if bits v (8 * 0x88) 32 = b.id.toNat then
          some (b.id, BitVec.ofNat 1024 v, BitVec.ofNat 64 (bits v (8 * 0x80) 64))
        else none
      | _ => none

/-- CTXLOAD (11 R340). -/
def execCtxload (o : CoreForm) (s : State) : Host.Outcome State Fault Refusal :=
  coreInstr o (gangSpec o) (fun s m vs =>
    withRequest (nth vs 0).toNat 16 16 s m fun m v =>
      let at_ := entryField v 0 8
      let b := entryField v 8 4
      if 2 ^ 17 ≤ b ∨ bits b 5 3 ≠ 0 ∨ bits b 13 3 ≠ 0 ∨ bits v 100 3 ≠ 0 ∨ entryField v 13 3 ≠ 0 ∨ at_ % 4096 ≠ 0 ∨ 2 ^ 51 ≤ at_ then
        s.badOperand
      else match s.savedAt m.cur.unit at_ with
        | none => m.status o (statusWord 8)
        | some (id, t, sig) =>
          let row0 := bits b 0 5
          let col0 := bits b 8 5
          let c := b.testBit 16
          if signature t row0 col0 ≠ sig then
            .trap { cause := 0x30, i0 := sig, i1 := signature t row0 col0 } none
          else match s.regionStatus t false row0 col0 c, s.freePlacement with
            | some code, _ => m.status o (statusWord code)
            | none, none => m.status o (statusWord 6)
            | none, some p =>
              let e : Placement :=
                { state := 2, queue := taskQueue t, job := id, sig := sig, origin := b, task := t, steward := m.cur.unit, saveAs := some at_
                  sig_ := if v.testBit 103 then some (m.cur.unit * 16 + bits v 96 4) else none }
              let m := m.modPlacement p fun _ => e
              let m := e.tiles.foldl (fun m u => m.modCtx u c fun x => { x with life := .loading, place := p, job := id.setWidth 64 }) m
              let m := (m.schedule (m.cycle + 1 + Config.loadLatency m.fresh) (.ctxloadComplete p)).used
              m.status o (BitVec.ofNat 64 p)) s

/-- A piece of a save area belongs to the context: not a bank of the other one, nor its matrix control block. -/
def State.ownPiece (s : State) (u : Nat) (c : Bool) (off : Nat) : Bool :=
  if off < 0x180000 then (s.tile u).bankOwner (bankOf off) == c
  else if 0x27C000 ≤ off ∧ off < 0x27E000 then decide (0x27D000 ≤ off) == c
  else true

/-- A context with a word of its control-core block at block offset `o` that a window write does not set (10 R297, R303, R319; 09 R265;
12 R347). -/
def Ctx.restoreWord (x : Ctx) (o : Nat) (w : Word) : Ctx :=
  let n := fun (lo len : Nat) => bits w.toNat lo len
  if o = 0x5180 then { x with access := { x.access with guards := w.setWidth 8 } }
  else if o = 0x6280 then { x with writeback := { x.writeback with guards := w.setWidth 8 } }
  else if o = 0x5300 then { x with tfault0 := w }
  else if o = 0x5308 then { x with tfault1 := w }
  else if 0x5600 ≤ o ∧ o < 0x5680 then { x with landed := if w = 0 then x.landed else x.landed.put ((o - 0x5600) / 8) w.toNat }
  else if 0x5700 ≤ o ∧ o < 0x5800 then
    let k := (o - 0x5700) / 16
    let h := x.handles.look {} k
    let h := if o % 16 = 0 then
        { h with state := n 61 3, cause := n 56 5, nslot := n 40 8, plane := n 32 8, groups := n 0 32 }
      else { h with lease := w.toNat }
    { x with handles := if h = {} then x.handles else x.handles.put k h }
  else if 0x5800 ≤ o ∧ o < 0x6000 then
    let k := (o - 0x5800) / 0x20
    match o % 0x20 / 8, x.rfq.find k with
    | 0, _ =>
      if w.getLsbD 63 then
        { x with rfq := x.rfq.put k { served := w.getLsbD 62, dead := w.getLsbD 61, cause := n 48 8, sdev := n 32 10, stile := n 16 10
                                      label := n 0 16, seq := 0, lslot := 0, va := 0 } }
      else x
    | 1, some r => { x with rfq := x.rfq.put k { r with seq := n 48 16, lslot := n 0 8 } }
    | 2, some r => { x with rfq := x.rfq.put k { r with va := w.toNat } }
    | _, _ => x
  else if 0x7008 ≤ o ∧ o < 0x7028 then
    let e := (o - 0x7000) / 8
    x.setStrip e { x.strip e with state := n 36 3, pos := w.extractLsb' 0 23, ust := n 40 16, el := w.getLsbD 23 }
  else if o = 0x8038 then { x with slipPending := n 32 32, slipCommitted := n 0 32 }
  else x

/-- A context with a word at a window offset that a window write does not set (05 R130, 06 R172). -/
def Ctx.restoreAt (x : Ctx) (off : Nat) (w : Word) : Ctx :=
  let blk := off / 0x10000
  if blk = 0x2B ∨ blk = 0x2C then x.restoreWord (off % 0x10000) w
  else if off % 0x10000 = 0xA900 ∧ (blk = 0x24 ∨ blk = 0x25) then { x with vector := { x.vector with guards := w.setWidth 8 } }
  else if off % 0x10000 = 0xA910 ∧ (blk = 0x24 ∨ blk = 0x25) then { x with bind := w.setWidth 32 }
  else if blk = 0x27 ∧ off % 0x1000 = 0x200 then { x with matrix := { x.matrix with guards := w.setWidth 8 } }
  else x

/-- A piece of a save area put into the window of context `c`: what a write sets, then what it does not. -/
def State.putPiece (s : State) (u : Nat) (c : Bool) (off n v bad : Nat) : State :=
  let s := (s.windowWrite u off n true v).poisonBytes (windowPA u off) n bad
  if off < 0x240000 then s
  else s.modCtx u c fun x => (List.range (n / 8)).foldl (fun x i => x.restoreAt (off + 8 * i) (BitVec.ofNat 64 (bits v (64 * i) 64))) x

/-- The pieces of a member read back into its window; the address of a fault with its cause. -/
def State.loadPieces (s : State) (e : Placement) (u base : Nat) : List (Nat × Nat × Nat) → State × Option (Nat × Nat)
  | [] => (s, none)
  | (o, w, n) :: rest =>
    match s.readJob e.steward e.job (s.engineActor e.steward e.job) e.ahead .read 2 (base + o : Nat) n with
    | (s, .inl f) => (s, some (f.cause, base + o))
    | (s, .inr (v, bad)) =>
      let s := if w = 0x2D0000 then
          (List.range 24).foldl (fun s b => if (s.tile u).bankOwner b == e.bank then
            s.windowWrite u (w + 8 * b) 8 true (bits v (64 * b) 64) else s) s
        else if s.ownPiece u e.bank w then s.putPiece u e.bank w n v bad else s
      s.loadPieces e u base rest

/-- The hidden words of a member read back; the address of a fault with its cause. -/
def State.loadHidden (s : State) (e : Placement) (u va : Nat) : State × Option (Nat × Nat) :=
  match s.readJob e.steward e.job (s.engineActor e.steward e.job) e.ahead .read 2 va hiddenLength with
  | (s, .inl f) => (s, some (f.cause, va))
  | (s, .inr (v, bad)) =>
    if bad != 0 then (s, some (0x13, va))
    else (s.modCtx u e.bank fun x => x.withHidden ((List.range 21).map fun i => BitVec.ofNat 64 (bits v (64 * i) 64)), none)

/-- One member comes back, parked, from its save area alone. -/
def State.restoreMember (s : State) (p : Nat) (e : Placement) (base m u : Nat) : State × Option (Nat × Nat) :=
  let c := e.bank
  let room := s.makeRoom u c
  let lent := (s.ctx u !c).spill.isNone && (room.ctx u !c).spill.isSome
  let s := room.mod u fun t => { t.setCtx c { life := .loading, place := p, ordinal := m } with dual := taskMode e.task != 0 }
  let s := (s.modCtx u c fun x => { x with spill := some {} }).fetchMatrix u c
  let at_ := base + 0x1000 + m * 0x200000
  let (s, fault) := match s.loadPieces e u at_ (savedPieces c) with
    | (s, some f) => (s, some f)
    | (s, none) => s.loadHidden e u (at_ + hiddenAt)
  let s := (s.stashMatrix u c).modCtx u c fun x => { x with
    life := .parked, gang := BitVec.ofNat 64 ((s.device * 64 + p) * 2 ^ 32 + m), job := BitVec.ofNat 64 (s.device * 2 ^ 32 + e.job.toNat) }
  (if lent then s.fetchMatrix u !c else s, fault)

/-- Every member comes back. -/
def State.restoreAll (s : State) (p : Nat) (e : Placement) (base : Nat) : Nat → List Nat → State × Option (Nat × Nat)
  | _, [] => (s, none)
  | m, u :: us =>
    match s.restoreMember p e base m u with
    | (s, none) => s.restoreAll p e base (m + 1) us
    | r => r

/-- CTXLOAD_COMPLETE (11 R340): the members are restored and their lines reloaded; they come back parked. -/
def execCtxloadComplete (p : Nat) (s : State) : Host.Outcome State Fault Refusal :=
  let e := s.placement p
  let cancel := fun (s : State) (f : Nat × Nat) => (s.freeGang p).tellSteward e.steward f.1 f.2
  .next <|
    match e.saveAs with
    | none => s
    | some base =>
      if e.state ≠ 2 then s
      else match s.readHeader e with
        | (s, .inl t) => cancel s (t.cause, t.i0.toNat)
        | (s, .inr h) =>
          let e := { e with header := h }
          match s.imageLines e (recField h 0 4) 0 with
          | (s, .inl f) => cancel s f
          | (s, .inr lines) =>
            match s.restoreAll p e base 0 e.tiles with
            | (s, some f) => cancel s f
            | (s, none) =>
              let s := e.tiles.foldl (fun s u => s.storeLines u e.bank 0 lines) s
              let s := { s with saved := s.saved.filter (·.at_ != base) }
              (s.modPlacement p fun q => { q with state := 5, header := h, ahead := [] }).signalSteward e.sig_

/-- A restored gang runs again once no tile of its region holds another running context (12 R356). -/
def State.rejoin (s : State) : State :=
  let back := s.placed.filter fun e => e.2.state == 5 && e.2.saveAs.isSome && !e.2.saving
    && e.2.tiles.all fun u => (s.ctx u !e.2.bank).life != .running
  if back.isEmpty then s
  else
    let s := back.foldl (fun s e =>
      let c := e.2.bank
      let s := e.2.tiles.foldl (fun s u =>
        (s.modCtx u c fun x => { x with life := .running }).takeTile u c) s
      s.modPlacement e.1 fun q => { q with saveAs := none, state := 4 }) s
    s.noteSuspensions 0

end Sys2Proof.Machine
end

