-- ==== Sys2Proof/Machine/Phases.lean ====
section
/-!
DEFINITION. Arrival, the boundary unit of a job, the boundary sequence and the start pulse; stragglers, deadlines and hangs;
timelines (01 R19 to R37; 09 R289, R290; 13 R366, R373; 14 R397).
-/
namespace Sys2Proof.Machine

/-! ### Arrival (01 R23, R28; 13 R366) -/

/-- The tiles whose context takes part in a job's boundaries. -/
def State.members (s : State) (j : Nat) : List Nat :=
  let id := (s.job j).id
  (s.units.filter fun e =>
    let x := e.2.ctx e.2.run
    !isSteward e.1 && x.takesPart && x.jobId == id).map (·.1)

/-- The first data or token FIFO of a tile that is not empty, by its number. -/
def Tile.leftover (t : Tile) : Option Nat :=
  match (List.range 6).find? fun f => !(t.fifos.look {} f).entries.isEmpty with
  | some f => some f
  | none => ((List.range 8).map (· + 8)).find? fun f => t.tokens.look 0 f + t.newTokens.look 0 f != 0

/-- Conditions 1 and 2 of 01 R23: PHEND or TEND, and every strip DONE or IDLE. -/
def Ctx.mayArrive (x : Ctx) : Bool :=
  (x.phend || x.tend) && [1, 2, 3, 4].all fun e => (x.strip e).state == 0 || (x.strip e).state == 4

/-- A context's share of an exchange-to-compute boundary. -/
def State.exchangeShare (s : State) (u : Nat) (c : Bool) : Bool :=
  let x := s.ctx u c
  let t := s.tile u
  (x.slots.all fun e => e.2.perm == 0 || x.landed.look 0 e.1 == e.2.expect) && t.kept.all (fun k => k.c != c) && t.waitOut.all (fun k => k.c != c)
    && t.runs.all fun r => r.2.c != c

/-- The running context of a tile arrives, if it can; one whose FIFOs are not empty takes the boundary fault (01 R23). -/
def State.checkArrival (s : State) (u : Nat) : State :=
  let t := s.tile u
  let c := t.run
  let x := t.ctx c
  if x.arrived || !x.mayArrive || x.life != .running then s
  else if s.exchange u c then
    if s.exchangeShare u c then s.modCtx u c fun x => { x with arrived := true, arrivedAt := s.cycle } else s
  else if x.checked then s
  else
    let s := s.modCtx u c fun x => { x with checked := true }
    match t.leftover with
    | some f =>
      let s := s.pend u c { cause := 0x02, i0 := BitVec.ofNat 64 f }
      if x.tend then s.due (.asyncTrapDelivery u c) else s
    | none => s.modCtx u c fun x => { x with arrived := true, arrivedAt := s.cycle }

/-! ### The boundary unit (01 R23, R24, R27, R34; 13 R371; 14 R397) -/

/-- A job spans modules if a gang of it here does, or has, or a reduction window of it has several contributors (log entry 32). -/
def State.spansModules (s : State) (id : BitVec 32) : Bool :=
  (s.placed.any fun e => e.2.state != 0 && e.2.job == id && decide (1 < taskModules e.2.task))
  || ((List.range 8).any fun w => s.windowValid w && s.windowJob w == id
    && decide (1 < ((s.redwin.look 0 (4 * w + 2)).extractLsb' 0 10).toNat))
  || (match s.jobSlot id with
    | some j => (s.job j).spans
    | none => false)

/-- A loaded gang of the job that could start waits for its first start pulse. -/
def State.gangWaits (s : State) (id : BitVec 32) : Bool := s.placed.any fun e => e.2.state == 3 && e.2.job == id && s.inPlace e.2

/-- Every reduction window of the job has delivered (01 R24, 08 R243). -/
def State.windowsDone (s : State) (id : BitVec 32) : Bool :=
  (List.range 8).all fun w => !s.windowValid w || s.windowJob w != id || s.delivered.contains w

/-- Every condition of the job's next boundary holds at its boundary unit. -/
def State.conditionsHold (s : State) (j : Nat) : Bool :=
  let b := s.job j
  let us := s.members j
  (us.all fun u =>
    let x := s.ctx u (s.tile u).run
    x.arrived && decide (x.arrivedAt + pulseDelay u ≤ s.cycle))
  && (if b.phase % 2 = 0 then us.all fun u => !s.visibleStreams u (s.tile u).run else s.windowsDone b.id)
  && (!us.isEmpty || b.timed || s.spansModules b.id || s.gangWaits b.id)

/-- Device time of the boundary that ends the present phase of a timed job (01 R34). -/
def Job.scheduled (b : Job) : Nat :=
  let m := b.phase / 2
  b.shift + (if b.phase % 2 = 0 then b.k + m * (b.tc + b.tx) + b.tc else b.k + (m + 1) * (b.tc + b.tx))

/-- The barrier flit of a job leaves for its group, if the port of its barrier plane is up (01 R34). -/
def State.sendBarrier (s : State) (j : Nat) : State :=
  let b := s.job j
  if b.flitSent || !s.planeUp b.bplane then s
  else
    let p : Packet := { s.header 0x16 0x3FC b.dgrp 0x3FC 0 with len := 1, payload := BitVec.ofNat 2048 b.id.toNat }
    (s.carryPacket s.cycle (some b.bplane) p).modJob j fun b => { b with flitSent := true }

/-- The first start pulse of a job (01 R19, 13 R371). -/
def State.kickoff (s : State) (j : Nat) : State :=
  let b := s.job j
  let ready := s.gangWaits b.id
  if b.timed then
    let k := (b.k + b.shift) * timePerNs
    if k ≤ s.time then s.due (.stragglerFault j)
    else if ready ∧ k ≤ s.time + s.timeStep then s.sendPulse j 1
    else s
  else if ready then s.sendPulse j 1 else s

/-- The straggler count from the first arrival on (01 R28). The fault is raised once at a boundary: a count that a release lets run on
raises no second one (log entry 32). -/
def State.countStraggle (s : State) (j : Nat) : State :=
  let b := s.job j
  let some_ := (s.members j).any fun u => (s.ctx u (s.tile u).run).arrived
  match b.straggler with
  | none => if some_ then s.modJob j fun b => { b with straggler := some 0 } else s
  | some n =>
    let s := s.modJob j fun b => { b with straggler := some (n + 1) }
    if n + 1 = b.straggle then s.due (.stragglerFault j) else s

/-- The work of a job's boundary unit at the end of a cycle. -/
def State.boundaryUnit (s : State) (j : Nat) : State :=
  let b := s.job j
  if !b.opened || b.held || b.suspended || b.sequence || b.pulse then s
  else if !b.begun then s.kickoff j
  else
    let s := s.countStraggle j
    if b.timed then
      if s.cycleAt b.scheduled ≤ s.cycle + 3 ∧ b.conditionsAt.isNone then
        (s.modJob j fun b => { b with conditionsAt := some s.cycle }).due (.timedBoundaryTime j)
      else s
    else if b.conditionsAt.isSome then (if b.released || !s.spansModules b.id then s else s.sendBarrier j)
    else if s.conditionsHold j then s.due (.boundaryConditionsMet j)
    else s

/-- The boundary sequence begins: its steps end three cycles on. -/
def State.beginSequence (s : State) (j : Nat) : State :=
  (s.modJob j fun b => { b with sequence := true }).schedule (s.cycle + 3) (.boundarySequence j)

/-- The boundary may be completed: at once, or when the minimum pair of phases has passed (01 R27). -/
def State.releaseBoundary (s : State) (j : Nat) : State :=
  let b := s.job j
  let first := b.lastStart + 3396
  if b.phase % 2 = 1 ∧ s.cycle < first then s.schedule first (.minimumPairExpiry j) else s.beginSequence j

/-- BOUNDARY_CONDITIONS_MET (01 R34): a job of one module goes on, one of several sends its barrier flit. -/
def execBoundaryConditionsMet (j : Nat) (s : State) : Host.Outcome State Fault Refusal :=
  let b := s.job j
  .next <|
    if !b.opened || b.held || b.sequence || b.conditionsAt.isSome then s
    else
      let s := s.modJob j fun b => { b with conditionsAt := some s.cycle }
      if s.spansModules b.id && !b.released then s.sendBarrier j else s.releaseBoundary j

/-- BARRIER (01 R34): the switch's release; while the job is frozen it waits (01 R39). -/
def execBarrier (p : Packet) (s : State) : Host.Outcome State Fault Refusal :=
  .next <|
    match s.jobSlot (BitVec.ofNat 32 (p.field 0 4)) with
    | none => s
    | some j =>
      let b := s.job j
      if b.held then s.schedule (s.cycle + 1) (.barrier p)
      else if !b.flitSent || b.released then s
      else
        let s := s.modJob j fun b => { b with released := true }
        if b.begun && b.conditionsAt.isSome then s.releaseBoundary j else s

/-- MINIMUM_PAIR_EXPIRY (01 R27). -/
def execMinimumPairExpiry (j : Nat) (s : State) : Host.Outcome State Fault Refusal :=
  let b := s.job j
  .next (if !b.opened || b.held || b.sequence || b.conditionsAt.isNone || b.phase % 2 = 0 then s else s.beginSequence j)

/-- TIMED_BOUNDARY_TIME (01 R34; 14 R397): in cycle b + 1, three before the pulse, the conditions hold, or the module straggles. -/
def execTimedBoundaryTime (j : Nat) (s : State) : Host.Outcome State Fault Refusal :=
  let b := s.job j
  .next <|
    if !b.opened || b.held || b.sequence || b.conditionsAt.isNone then s
    else if s.conditionsHold j then
      (s.modJob j fun b => { b with sequence := true }).schedule (s.cycle + 2) (.boundarySequence j)
    else s.due (.stragglerFault j)

/-! ### The sequence (01 R25; 03 R94; 07 R209; 14 R397) -/

/-- A bank register after a completed boundary (07 R209). -/
def rotateBank (w : Word) (toExchange : Bool) : Word :=
  let role := w.extractLsb' 4 3
  let next := w.extractLsb' 8 3
  if (!toExchange && (!w.getLsbD 7 || role == 3)) then w
  else
    let w := (w &&& ~~~0x70#64) ||| (next.setWidth 64 <<< 4)
    if w.getLsbD 11 then (w &&& ~~~0x700#64) ||| (role.setWidth 64 <<< 8) else w

/-- The banks of the running context of a tile rotate. -/
def Tile.rotate (t : Tile) (toExchange : Bool) : Tile :=
  { t with banks := (List.range 24).foldl (fun bs b =>
      if t.bankOwner b == t.run then bs.put b (rotateBank (t.banks.look 0 b) toExchange) else bs) t.banks }

/-- Pending flags, counts and slip commit (01 R25, 03 R94, 13 R383); an MTC to ctl.fflags in this cycle is to come before it. -/
def Ctx.commit (x : Ctx) : Ctx :=
  { x with
    fflags := x.fflags ||| x.fpend, flagsCommit := x.flagsCommit ||| x.fpend, fpend := 0
    nanCommitted := cap32 (x.nanCommitted + x.nanPending), nanPending := 0
    infCommitted := cap32 (x.infCommitted + x.infPending), infPending := 0
    satCommitted := cap32 (x.satCommitted + x.satPending), satPending := 0
    slipCommitted := cap32 (x.slipCommitted + x.slipPending), slipPending := 0 }

/-- A running context at a completed boundary: banks, commits, and what the new phase starts with. -/
def State.passBoundary (s : State) (u : Nat) (toExchange : Bool) : State :=
  let c := (s.tile u).run
  let slip := (s.ctx u c).slipPending
  let s := s.mod u fun t => t.rotate toExchange
  let s := if toExchange then s.sample u 4 slip else s
  let s := s.modCtx u c fun x => { x.commit with phend := false, arrived := false, checked := false, pulseDue := true }
  if toExchange then s.mod u fun t => { t with tx := [], rx := [] }
  else
    let s := s.modCtx u c fun x => { x with landed := [] }
    (List.range 16).foldl (fun s k => if (s.meter u k).state = 4 then s.tearCircuit u (.meter k) 0 true else s) s

/-- Every member of a gang on every module has executed TEND: those on the other modules as an input has said (11 R335; log
entry 36). -/
def State.gangEnded (s : State) (e : Placement) : Bool :=
  e.tiles.all (fun u => (s.ctx u e.bank).tend) && (taskModules e.task ≤ 1 || e.farEnded)

/-- Gangs whose members have all executed TEND leave; the placing steward's counter gains one (11 R335). -/
def State.leaveGangs (s : State) (id : BitVec 32) : State :=
  let gone := s.placed.filter fun e => e.2.job == id && (e.2.state == 4 || e.2.state == 6)
    && s.gangEnded e.2
  gone.foldl (fun s e =>
    let s := if taskDonesig e.2.task then s.due (.timelineIncrement e.2.steward false (taskDone e.2.task)) else s
    s.freeGang e.1) s

/-- The reduction windows of a job are ready for the next exchange phase. -/
def State.clearWindows (s : State) (id : BitVec 32) : State :=
  { s with
    flushes := s.flushes.filter fun f => s.windowJob f.1 != id
    delivered := s.delivered.filter fun w => s.windowJob w != id }

/-- BOUNDARY_SEQUENCE (01 R25, 14 R397): banks rotate, flags commit, the phase increments; gangs leave, an armed switch takes
place, and the start pulse leaves in the next cycle or is held. -/
def execBoundarySequence (j : Nat) (s : State) : Host.Outcome State Fault Refusal :=
  let b := s.job j
  .next <|
    if !b.opened || !b.sequence then s
    else
      let toExchange := b.phase % 2 == 0
      let us := s.members j
      let s := us.foldl (fun s u => s.passBoundary u toExchange) s
      let s := if toExchange then s else (s.clearWindows b.id).clearContention
      let s := s.modJob j fun b => { b with
        phase := b.phase + 1, spans := s.spansModules b.id, sequence := false, conditionsAt := none, straggler := none, flitSent := false, released := false
        pulse := true, pulseLeft := some 1 }
      let s := us.foldl (fun s u => s.traceEvent u 7 0 (s.tile u).run (BitVec.ofNat 64 (b.phase + 1))) s
      let s := (s.countBoundary b.id).leaveGangs b.id
      let s := match b.armed with
        | some (target, save) => if target ≤ b.phase + 1 then s.switchJob j save else s
        | none => s
      let a := s.job j
      if !a.opened || a.suspended || a.held || !a.pulse then s else s.sendPulse j 1

/-! ### The start pulse (01 R26, 13 R365) -/

/-- What a superstep opens with (03 R96, 07 R228, 11 R341). -/
def State.snapshot (s : State) (u : Nat) (c : Bool) : Opening :=
  let t := s.tile u
  let x := t.ctx c
  let strip := fun (p : Strip) => ({ state := p.state, pos := p.pos } : StripOpening)
  { queue := x.queue, strips := [strip x.access, strip x.matrix, strip x.vector, strip x.writeback]
    banks := t.banks.filter fun e => t.bankOwner e.1 == c
    desc := x.desc, dcur := x.dcur, wdesc := x.wdesc, wcur := x.wcur, slots := x.slots
    gen := x.gen, vgen := x.vgen, mgen := x.mgen, seed := x.seed, tend := x.tend }

/-- The stall counts of a context are cleared (09 R291). -/
def Ctx.clearStalls (x : Ctx) : Ctx :=
  let z := fun (t : Strip) => { t with stall := 0, wait := 0 }
  { x with stall := 0, wait := 0, access := z x.access, matrix := z x.matrix, vector := z x.vector, writeback := z x.writeback }

/-- START_PULSE_ARRIVAL: the local phase begins; a waiting gang starts, a standing PHEND releases. -/
def execStartPulseArrival (j u : Nat) (s : State) : Host.Outcome State Fault Refusal :=
  let c := (s.tile u).run
  let x := s.ctx u c
  let b := s.job j
  let computes := b.phase % 2 == 0
  .next <|
    if x.jobId != b.id || !b.opened then s
    else if x.frozen then s.modCtx u c fun x => { x with pulseLeft := some 0 }
    else
      let fresh := x.life == .waiting
      let s := if fresh || x.arrivedAt = 0 then s else s.sample u 3 (s.cycle - x.arrivedAt)
      let s := if fresh && (s.placement x.place).state = 3 then s.modPlacement x.place fun p => { p with state := 4 } else s
      let s := s.modCtx u c fun x => { x.clearStalls with
        life := .running, pulseDue := false, localCycle := 0, deadline := 0
        budgetNow := if computes then x.budget.toNat else x.budgetNow }
      let s := if fresh || x.tend then s
        else if x.atPhend then
          let s := ({ s with cur := { unit := u, eng := 0 } }).retire
          s.modCtx u c fun x => { x with atPhend := false }
        else s.modCtx u c fun x => { x with released := true }
      if computes then
        let o := s.snapshot u c
        s.modCtx u c fun x => { x with opening := some o }
      else s

/-! ### Faults of the phase (01 R28, R33; 09 R289, R290) -/

/-- Contexts that wait for the first start pulse of a job are due it. -/
def State.awaitFirst (s : State) (id : BitVec 32) : State :=
  (s.pulseUnits id true).foldl (fun s u => s.modCtx u (s.tile u).run fun x => { x with pulseDue := true }) s

/-- STRAGGLER_FAULT (01 R28; 13 R371): the bitmap of the tiles not arrived; the whistle starts at the lowest of them, where all
have arrived at the first that takes part (log entry 32). -/
def execStragglerFault (j : Nat) (s : State) : Host.Outcome State Fault Refusal :=
  let b := s.job j
  .next <|
    if !b.opened || (b.valid && b.runState != 2) || b.sequence then s
    else
      let s := if b.begun then s else s.awaitFirst b.id
      let us := s.members j
      let missing := us.filter fun u => !(s.ctx u (s.tile u).run).arrived
      let at_ := (missing.head?.or us.head?).getD 0
      let s := s.modJob j fun b => { b with missing := missing.foldl (fun m u => m ||| BitVec.twoPow 768 u) 0 }
      if us.isEmpty then s.originate j 0 0 0x19 0 0 0
      else s.freezeTrap at_ (s.tile at_).run { cause := 0x19, pos := (s.ctx at_ (s.tile at_).run).pc }

/-- DEADLINE_FAULT (01 R33). -/
def execDeadlineFault (u : Nat) (c : Bool) (s : State) : Host.Outcome State Fault Refusal :=
  .next (s.freezeTrap u c { cause := 0x18, pos := (s.ctx u c).pc })

/-- Wait code, FIFO waited on, micro-step, run state and position of an engine (09 R290). -/
def Ctx.hangWord (x : Ctx) (e : Nat) : Word :=
  if e = 0 then fields [(x.wait, 60), (x.ust, 40), (x.pc.toNat, 0)]
  else
    let t := x.strip e
    fields [(t.wait, 60), (t.waitFifo, 56), (t.ust, 40), (t.state, 36), (t.pos.toNat, 0)]

/-- Producer engine and consumer engine of a FIFO (09 R266). -/
def fifoEnds (f : Nat) : Nat × Nat :=
  match f with
  | 0 => (1, 2) | 1 => (1, 3) | 2 => (3, 2) | 3 => (2, 3) | 4 => (2, 4) | 5 => (3, 4)
  | 8 => (1, 2) | 9 => (2, 1) | 10 => (2, 3) | 11 => (3, 2) | 12 => (3, 4) | 13 => (4, 3) | 14 => (4, 1)
  | _ => (1, 4)

/-- A pop that waits on FIFO `f` is orphaned (09 R290). -/
def State.orphan (s : State) (u f : Nat) : Bool :=
  let t := s.tile u
  let x := t.ctx t.run
  let (from_, popper) := fifoEnds f
  let w := x.strip popper
  let p := x.strip from_
  let popping := w.waitFifo == f && (if f < 8 then w.wait == 3 else w.wait == 1 || w.wait == 2)
  let empty := if f < 8 then (t.fifos.look {} f).entries.isEmpty else t.tokens.look 0 f + t.newTokens.look 0 f == 0
  w.state == 2 && popping && empty && (p.state != 2 || p.wait != 0)

/-- The hang record (09 R290). -/
def State.recordHang (s : State) (u : Nat) (c : Bool) (e : Nat) : State :=
  let t := s.tile u
  let old := t.hang.look 0 0
  if old.getLsbD 63 then s.mod u fun t => { t with hang := t.hang.put 0 (old ||| BitVec.twoPow 64 62) }
  else
    let x := t.ctx c
    let counts := (List.range 6).map fun f => ((t.fifos.look {} f).present s.cycle, 5 * f)
    let toks := (List.range 8).map fun i => (t.tokens.look 0 (i + 8), 4 * i)
    let orphans := (((List.range 6) ++ (List.range 8).map (· + 8)).filter (s.orphan u)).map fun f => (1, f)
    let ws := [fields [(1, 63), (e, 56), (s.cycle % 2 ^ 48, 0)], x.hangWord 0, x.hangWord 1, x.hangWord 2, x.hangWord 3,
      x.hangWord 4, fields counts, fields toks, fields orphans, BitVec.ofNat 64 (s.phaseOf u c)]
    s.mod u fun t => { t with hang := t.hang.putAll 0 ws }

/-- HANG_FAULT (09 R289): the hang record, then the hang fault of the engine. -/
def execHangFault (u : Nat) (c : Bool) (e : Nat) (s : State) : Host.Outcome State Fault Refusal :=
  let x := s.ctx u c
  let pos := if e = 0 then x.pc else (x.strip e).pos
  .next ((s.recordHang u c e).freezeTrap u c { cause := 0x1B, eng := e, pos := pos, i0 := BitVec.ofNat 64 e })

/-! ### Timelines (08 R245, 13 R373) -/

/-- TIMELINE_INCREMENT: a counter gains one; at 2^64 - 1 it stays. -/
def execTimelineIncrement (u : Nat) (c : Bool) (k : Nat) (s : State) : Host.Outcome State Fault Refusal :=
  .next (s.modCtx u c fun x => { x with tl := x.tl.put k (Nat.min (x.tl.look 0 k + 1) (2 ^ 64 - 1)) })

end Sys2Proof.Machine
end

