-- ==== Sys2Proof/Machine/ControlSpace.lean ====
section
/-!
DEFINITION. The control space of the module, 64-bit word by word: what each word reads and what a write does to it; the
states of links; and writes to windows and control space by an agent (01 R36; 07 R218; 08 R230 to R232, R241, R254; 09 R265,
R282; 10 R303, R304, R323, R324; 11 R328; 12 R343, R356, R357, R360, R362, R363; 13 R368, R377, R385; 14 R403; 15 R414, R420).
-/
namespace Sys2Proof.Machine

/-! ### Reads -/

/-- A word of a link's registers (10 R324). -/
def Link.word (l : Link) (w : Nat) : Word :=
  match w with
  | 0 => fields [(l.state, 61), (l.tries, 58), (l.lat, 32)]
  | 1 => l.ldig
  | 2 => l.rdig
  | _ => fields [(l.qcnt, 32), (l.drop, 0)]

/-- A word of a task queue's registers (11 R328). -/
def TaskQueue.word (q : TaskQueue) (w : Nat) : Word :=
  match w with
  | 0 => BitVec.ofNat 64 q.base
  | 1 => fields [(q.tail, 32), (q.head, 0)]
  | 2 => BitVec.ofNat 64 q.size
  | _ => fields [(q.job.toNat, 32), (q.resv, 16), (q.age, 0)]

/-- A word of placement entry `p` (12 R356). -/
def State.placementWord (s : State) (p w : Nat) : Word :=
  let e := s.placement p
  match w with
  | 0 => fields [(e.state, 61), (e.queue, 48), (e.record % 65536, 32), (e.job.toNat, 0)]
  | 1 => e.sig
  | 2 => BitVec.ofNat 64 e.origin
  | _ => if e.state = 0 then 0 else fields [(s.device * 64 + p, 32)]

/-- A word of a route unit's block at offset `o` (13 R377). -/
def RouteUnit.word (r : RouteUnit) (o : Nat) : Word :=
  let pair := fun (t : Tab Nat) (e : Nat) => fields [(t.look 0 e, 0), (t.look 0 (e + 1), 32)]
  if o = 0 then fields [(r.job.toNat, 32), (r.seq, 0)]
  else if 0x400 ≤ o ∧ o < 0x800 then pair r.snap ((o - 0x400) / 4)
  else if 0x800 ≤ o ∧ o < 0xC00 then pair r.live ((o - 0x800) / 4)
  else 0

/-- An entry of a reservation table (12 R362). -/
def State.resvWord (s : State) (off : Nat) : Nat :=
  match s.resv.find off with
  | some r => r.state * 2 ^ 30 + r.cid.toNat
  | none => 0

/-- A word of the device-time registers (13 R368). -/
def State.timeWord (s : State) (w : Nat) : Word :=
  match w with
  | 0 => BitVec.ofNat 64 s.ns
  | 1 => BitVec.ofNat 64 s.frac
  | 2 => s.servo.status
  | 3 => s.servo.config
  | _ => 0

/-- A word of the cause register of a job slot (14 R403). -/
def Job.causeWord (b : Job) (w : Nat) : Word :=
  let v : Whistle := b.winner.getD { time := 0, frac := 0, dev := 0, tile := 0, eng := 0, cause := 0, info0 := 0 }
  match w with
  | 0 => fields [(b.valid.toNat, 63), (b.settled.toNat, 62), (b.runState, 60), (b.nwh, 40), (b.id.toNat, 0)]
  | 1 => fields [(v.dev, 32), (v.tile, 16), (v.eng, 8), (v.cause, 0)]
  | 2 => BitVec.ofNat 64 v.time
  | 3 => BitVec.ofNat 64 v.frac
  | 4 => BitVec.ofNat 64 b.ltime
  | 5 => BitVec.ofNat 64 b.wphase
  | 6 => BitVec.ofNat 64 b.ref
  | _ => v.info0

/-- The number of benched tiles. -/
def State.benched (s : State) : Nat := ((List.range 768).filter fun t => s.bench.getLsbD t).length

/-- The module status register (15 R414). -/
def State.statusWord (s : State) : Word :=
  fields [(s.boot.stage, 60), (s.boot.failed.toNat, 59), (s.boot.rreq.toNat, 58), (s.benched, 32), (s.boot.unit.toNat, 16),
    (s.boot.error.toNat, 0)]

/-- The number of the sub-link whose registers lie at an offset, if one does (10 R324). -/
def subLinkAt (off : Nat) : Option Nat :=
  let q := (off - 0x32000) / 0x800
  let i := (off - 0x32000) % 0x800 / 0x20
  if 0x32000 ≤ off ∧ q < 4 ∧ i < 60 then some (subLink q i) else none

/-- The link whose registers lie at an offset. -/
def linkAt (off : Nat) : Option Nat :=
  if 0x30000 ≤ off ∧ off < 0x30900 then some ((off - 0x30000) / 0x20) else subLinkAt off

/-- The 64-bit word of control space at an offset that is a multiple of 8; offsets that hold nothing read zero. -/
def State.controlWord (s : State) (off : Nat) : Word :=
  let within := fun (lo hi : Nat) => decide (lo ≤ off) && decide (off < hi)
  if within 0x10000 0x10100 then s.nuton.look 0 ((off - 0x10000) / 8)
  else if within 0x11000 0x11100 then s.redwin.look 0 ((off - 0x11000) / 8)
  else if within 0x20000 0x20200 then (s.hbmLog.look {} ((off - 0x20000) / 0x20)).word (off % 0x20 / 8)
  else if within 0x31000 0x31020 then BitVec.ofNat 64 (s.noticeAddr.look 0 ((off - 0x31000) / 8))
  else if (linkAt off).isSome then (s.links.look {} ((linkAt off).getD 0)).word (off % 0x20 / 8)
  else if within 0x40000 0x40200 then (s.queue ((off - 0x40000) / 0x20)).word (off % 0x20 / 8)
  else if within 0x50000 0x50080 then
    let b := s.job ((off - 0x50000) / 0x10)
    if off % 0x10 = 0 then b.root0 else b.root1
  else if within 0x50800 0x50840 then BitVec.ofNat 64 (s.job ((off - 0x50800) / 8)).bplane
  else if within 0x51000 0x51800 then (s.job ((off - 0x51000) / 0x100)).ranges.look 0 (off % 0x100 / 8)
  else if within 0x60000 0x60800 then s.placementWord ((off - 0x60000) / 0x20) (off % 0x20 / 8)
  else if within 0x61000 0x61060 then s.bench.extractLsb' (8 * (off - 0x61000)) 64
  else if off = 0x61100 then s.threshold
  else if within 0x70000 0x74000 then s.route.look 0 ((off - 0x70000) / 8)
  else if within 0x74000 0x78000 then s.group.look 0 ((off - 0x74000) / 8)
  else if within 0x78000 0x7C000 then (s.routeUnit.look {} ((off - 0x78000) / 0x1000)).word (off % 0x1000)
  else if within 0x80000 0xC0000 then fields [(s.resvWord off, 0), (s.resvWord (off + 4), 32)]
  else if within 0xC0000 0xC4000 then
    (s.dieMon.look {} (8 * ((off - 0xC0000) / 0x1000) + off % 0x1000 / 0x200)).word (off % 0x200 / 8)
  else if within 0xD0000 0xD0020 then s.timeWord (off % 0x20 / 8)
  else if within 0xE0000 0xE0200 then (s.job ((off - 0xE0000) / 0x40)).causeWord (off % 0x40 / 8)
  else if off = 0xF0000 then s.statusWord
  else 0

/-- The little-endian value of `n` bytes of a space given by its 64-bit words. -/
def readWords (f : Nat → Word) (off n : Nat) : Nat :=
  let first := off / 8 * 8
  let ws := (List.range ((off + n + 7) / 8 - off / 8)).map fun i => (f (first + 8 * i)).toNat
  ws.foldr (fun w acc => w + 2 ^ 64 * acc) 0 / 2 ^ (8 * (off - first)) % 2 ^ (8 * n)

/-- The little-endian value of `n` bytes of control space. -/
def State.controlRead (s : State) (off n : Nat) : Nat := readWords s.controlWord off n

/-! ### Links (10 R323, R324; 12 R363) -/

/-- A link's registers changed. -/
def State.modLink (s : State) (l : Nat) (f : Link → Link) : State := { s with links := s.links.put l (f (s.links.look {} l)) }

/-- A reservation entry is of a link's sending ends on this module. -/
def ofLink (l off : Nat) : Bool :=
  let at_ := fun (t : Nat) => decide (t ≤ off) && decide (off < t + 0x60)
  if l < 72 then at_ (fabricTable l)
  else at_ (subTable ((l - 72) / 60) true ((l - 72) % 60)) || at_ (subTable ((l - 72) / 60) false ((l - 72) % 60))

/-- The die of a link: that of its port, or the lower one of a pair. -/
def dieOfLink (l : Nat) : Nat := if l < 72 then l / 18 else if l < 192 then 0 else if l < 252 then 1 else 2

/-- A circuit of which a reservation is lost is torn, or its sender told where it is elsewhere, by the service unit of a die. -/
def State.tearReservation (s : State) (die : Nat) (cid : BitVec 26) (cause : Nat) : State :=
  let u := cid.toNat / 64 % 1024
  if cid.toNat / 65536 = s.device then s.tearCircuit u (circuitSource cid.toNat) cause
  else s.postService (s.circuitPacket 0x11 (serviceUnit die) (cid.toNat / 65536) u cid.toNat cause 0 0 0 0)

/-- A link leaves UP: its circuits are torn with cause 4, their senders told where they are elsewhere, and every entry of the
link is free (10 R322, 12 R363). -/
def State.linkLeaves (s : State) (l : Nat) : State :=
  let mine := (s.resv.filter fun e => ofLink l e.1).map fun e => e.2.cid
  let s := mine.eraseDups.foldl (fun s cid => s.tearReservation (dieOfLink l) cid 4) s
  { s with resv := s.resv.filter fun e => !ofLink l e.1 }

/-- The link carries traffic. -/
def Link.up (l : Link) : Bool := l.state == 1 || l.state == 2

/-- A link begins training: one that was UP leaves it. -/
def State.trainLink (s : State) (l : Nat) : State :=
  let up := (s.links.look {} l).up
  let s := s.modLink l fun k => { k with state := 0 }
  if up then s.linkLeaves l else s

/-! ### Writes -/

/-- A queue's registers written (11 R328); that it is empty is the stewards' own care. -/
def TaskQueue.put (q : TaskQueue) (w : Nat) (v : Word) : TaskQueue :=
  match w with
    | 0 => { q with base := (v.extractLsb' 0 51).toNat / 128 * 128 }
    | 2 =>
      let n := v.toNat
      if n = 0 ∨ (List.range 17).any (fun i => n == 2 ^ i) then { q with size := n } else q
    | 3 => { q with job := v.extractLsb' 32 32, resv := (v.extractLsb' 16 16).toNat, age := (v.extractLsb' 0 16).toNat }
    | _ => q

/-- A write of the barrier-plane register (01 R36): only while the job is frozen, and of a plane. -/
def Job.planePut (b : Job) (v : Word) : Job :=
  if b.opened && b.valid && b.runState == 1 && decide (v.toNat ≤ 71) then
    { b with bplane := v.toNat, moved := b.moved || v.toNat != b.bplane }
  else b

/-- A write of a die's notice-line address starts its COUNT anew (10 R304). -/
def State.noticePut (s : State) (die : Nat) (v : Word) : State :=
  { s with
    noticeAddr := s.noticeAddr.put die (v &&& 0xFFFFFFFFC0).toNat
    noticeCount := s.noticeCount.put die 0 }

/-- A write of a route unit's JOB clears its counters (13 R377); RCOUNTs that wait stay. -/
def State.routeJobPut (s : State) (die : Nat) (v : Word) : State :=
  let r := s.routeUnit.look {} die
  { s with routeUnit := s.routeUnit.put die { job := v.extractLsb' 32 32, granted := r.granted, waiting := r.waiting } }

/-- Cycles of the sync interval 2^-(7 + SYNC) s (13 R368). -/
def Servo.interval (v : Servo) : Nat := 850000000 / 2 ^ (7 + (v.config.extractLsb' 9 3).toNat)

/-- The module is the grandmaster. -/
def Servo.isMaster (v : Servo) : Bool := v.config.getLsbD 8

/-- A write of the time-servo word (13 R368); that no timed job is open is the stewards' own care. -/
def State.servoPut (s : State) (v : Word) : State :=
  let was := s.servo.isMaster
  let s := { s with servo := { s.servo with config := v &&& 0xFFF } }
  if s.servo.isMaster && !was then s.schedule (s.cycle + s.servo.interval) .syncInterval else s

/-- The bits of the words of control space that are plain registers: the mask of word `w` of each. -/
def nutonMask (w : Nat) : Word := if w % 2 = 0 then 0xC000FFFFFFFFF000 else 0xFFFFFFFFF
/-- See `nutonMask`. -/
def redwinMask (w : Nat) : Word :=
  match w % 4 with
  | 0 => 0x8003FFFFFFFF0000
  | 1 => 0xFFFFFFFF0000FFFF
  | 2 => 0x3FF
  | _ => 0
/-- See `nutonMask`. -/
def routeMask (w : Nat) : Word := if w % 2 = 0 then 0xC0FFFFFF00FF00FF else 0xFFF
/-- See `nutonMask`. -/
def groupMask (w : Nat) : Word := if w % 2 = 0 then 0x83FF03FF03FF000F else 0xFFFFFFF
/-- See `nutonMask`. -/
def rootMask (w : Nat) : Word := if w = 0 then 0x800000FFFFFF0000 else 0xFFFFFFFF
/-- See `nutonMask`. -/
def rangeMask (w : Nat) : Word := if w % 2 = 0 then 0x800000FFFFFF0000 else 0xFFFFFF

/-- A log of an HBM stack written: clearing VALID, or its counts (07 R221, 08 R231). -/
def ErrorLog.put (l : ErrorLog) (w : Nat) (mask v : Word) : ErrorLog :=
  match w with
  | 0 => if (v &&& mask).getLsbD 63 then { l with valid := false, ue := false, ovf := false, inj := false } else l
  | 3 =>
    let n := blend mask (l.word 3) v
    { l with ucnt := (n.extractLsb' 32 32).toNat, ccnt := (n.extractLsb' 0 32).toNat }
  | _ => l

/-- A link's registers written: RETRAIN, and the counts (10 R324). -/
def State.linkPut (s : State) (l w : Nat) (mask v : Word) : State :=
  match w with
  | 0 => if (v &&& mask).getLsbD 60 then s.trainLink l else s
  | 3 =>
    let n := blend mask ((s.links.look {} l).word 3) v
    s.modLink l fun k => { k with qcnt := (n.extractLsb' 32 32).toNat, drop := (n.extractLsb' 0 32).toNat }
  | _ => s

/-- A write of `mask`ed bits to the control-space word at an offset that is a multiple of 8; what is read-only stays. -/
def State.controlPut (s : State) (off : Nat) (mask v : Word) : State :=
  let within := fun (lo hi : Nat) => decide (lo ≤ off) && decide (off < hi)
  let w := blend mask (s.controlWord off) v
  if within 0x10000 0x10100 then
    let k := (off - 0x10000) / 8
    { s with nuton := s.nuton.put k (w &&& nutonMask k) }
  else if within 0x11000 0x11100 then
    let k := (off - 0x11000) / 8
    { s with redwin := s.redwin.put k (w &&& redwinMask k) }
  else if within 0x20000 0x20200 then
    let k := (off - 0x20000) / 0x20
    { s with hbmLog := s.hbmLog.put k ((s.hbmLog.look {} k).put (off % 0x20 / 8) mask v) }
  else if within 0x31000 0x31020 then s.noticePut ((off - 0x31000) / 8) w
  else if (linkAt off).isSome then s.linkPut ((linkAt off).getD 0) (off % 0x20 / 8) mask v
  else if within 0x40000 0x40200 then s.modQueue ((off - 0x40000) / 0x20) fun q => q.put (off % 0x20 / 8) w
  else if within 0x50000 0x50080 then
    s.modJob ((off - 0x50000) / 0x10) fun b =>
      if off % 0x10 = 0 then { b with root0 := w &&& rootMask 0 } else { b with root1 := w &&& rootMask 1 }
  else if within 0x50800 0x50840 then s.modJob ((off - 0x50800) / 8) fun b => b.planePut w
  else if within 0x51000 0x51800 then
    let k := off % 0x100 / 8
    s.modJob ((off - 0x51000) / 0x100) fun b => { b with ranges := b.ranges.put k (w &&& rangeMask k) }
  else if off = 0x61100 then { s with threshold := w &&& 0xFFFFFFFF0000FFFF }
  else if within 0x70000 0x74000 then
    let k := (off - 0x70000) / 8
    { s with route := s.route.put k (w &&& routeMask k) }
  else if within 0x74000 0x78000 then
    let k := (off - 0x74000) / 8
    { s with group := s.group.put k (w &&& groupMask k) }
  else if within 0x78000 0x7C000 && off % 0x1000 == 0 then
    if mask.extractLsb' 32 32 = 0 then s else s.routeJobPut ((off - 0x78000) / 0x1000) w
  else if within 0xC0000 0xC4000 && off % 0x200 / 8 == 35 then
    { s with dieMon := s.dieMon.put (8 * ((off - 0xC0000) / 0x1000) + off % 0x1000 / 0x200) (Monitor.configure w) }
  else if off = 0xD0018 then s.servoPut w
  else s

/-- Write the low `n` bytes of `v` into control space; words written whole lose their poison. -/
def State.controlWrite (s : State) (off n v : Nat) : State :=
  let first := off / 8 * 8
  let shifted := v % 2 ^ (8 * n) * 2 ^ (8 * (off - first))
  (List.range ((off + n + 7) / 8 - off / 8)).foldl (fun s i =>
    let a := first + 8 * i
    let lo := if a < off then off - a else 0
    let hi := if off + n < a + 8 then off + n - a else 8
    s.controlPut a (byteMask lo hi) (BitVec.ofNat 64 (shifted / 2 ^ (64 * i))))
    ((wordsWithin (controlPA off) n).foldl State.clearPoison s)

/-! ### Windows written by an agent (07 R218; 09 R265, R282; 10 R303) -/

/-- Mark a receive fault served or dead. -/
def State.markFault (s : State) (u : Nat) (c : Bool) (k : Nat) (served dead : Bool) : State :=
  s.modCtx u c fun x => match x.rfq.find k with
    | some r => { x with rfq := x.rfq.put k { r with served := r.served || served, dead := r.dead || dead } }
    | none => x

/-- The place in a context's control-core block of a window offset. -/
def blockOf (off : Nat) : Option (Bool × Nat) :=
  if off / 0x10000 = 0x2B then some (false, off % 0x10000)
  else if off / 0x10000 = 0x2C then some (true, off % 0x10000) else none

/-- What a write by a steward, or with its rights, of the bits `v` of the word at `off` does at any time, where others may only read
it: SERVED and DEAD of a receive fault, RETRY of a stream (10 R303, 09 R282). -/
def State.stewardWord (s : State) (u off : Nat) (v : Word) : Option State :=
  if isSteward u then none
  else match blockOf off with
    | none => none
    | some (c, o) =>
      if 0x5800 ≤ o ∧ o < 0x6000 ∧ o % 0x20 = 0 then some (s.markFault u c ((o - 0x5800) / 0x20) (v.getLsbD 62) (v.getLsbD 61))
      else if 0x5200 ≤ o ∧ o < 0x5300 ∧ o % 16 = 0 ∧ v.getLsbD 62 then some (s.retryStream u c ((o - 0x5200) / 16))
      else none

/-- The parts of a write of `n` bytes at `off` that lie in one 64-bit word each: offset, length and value. -/
def wordParts (off n v : Nat) : List (Nat × Nat × Nat) :=
  (List.range ((off + n + 7) / 8 - off / 8)).map fun i =>
    let lo := max off (off / 8 * 8 + 8 * i)
    let hi := min (off + n) (off / 8 * 8 + 8 * i + 8)
    (lo, hi - lo, bits v (8 * (lo - off)) (8 * (hi - lo)))

/-- A part of a write to a window: `none` if it is refused. -/
def State.storePart (s : State) (u : Nat) (steward : Bool) (p : Nat × Nat × Nat) : Option State :=
  match (if steward then s.stewardWord u (p.1 / 8 * 8) (BitVec.ofNat 64 (p.2.2 * 2 ^ (8 * (p.1 % 8)))) else none) with
  | some s => some s
  | none =>
    match s.acceptance u (p.1 / 8 * 8) steward with
    | .accepted => some (s.windowWrite u p.1 p.2.1 (s.quiet u ((s.tile u).targetContext p.1)) p.2.2)
    | .ignored => some s
    | .refused => none

/-- A write of `n` bytes to a window by an agent outside the tile; `none` if a word of it is refused (07 R218). -/
def State.storeWindow (s : State) (u off n v : Nat) (steward : Bool) : Option State :=
  let parts := wordParts off n v
  if parts.any fun p => (s.storePart u steward p).isNone then none
  else some (parts.foldl (fun s p => (s.storePart u steward p).getD s) s)

/-- The agent is a steward. -/
def stewardAgent (agent : Nat) : Bool := decide (0x600 ≤ agent) && decide (agent < 0x610)

/-- A write that is refused (07 R218, 08 R230): a unit of this module takes the permission trap, precise where its control core
or its access strip stands; a host's is reported to it. -/
def State.writeRefused (s : State) (agent pa info1 : Nat) : State :=
  let t : Trap := { cause := 0x11, i0 := BitVec.ofNat 64 pa, i1 := BitVec.ofNat 64 info1 }
  match agentPlace agent with
  | some (u, c) =>
    if isSteward u then s.takePrecise u c { t with pos := (s.ctx u c).pc }
    else
      let p := (s.ctx u c).access
      (s.modStrip u c 1 fun p => { p with state := 5, stall := 0, wait := 0 }).pend u c
        { t with eng := 1, pos := p.pos, ust := p.ust, rank := 1 }
  | none => if agent = 0xFFF then s.emit (.hostUnsupported pa) else s

/-- A write of an agent to a window. -/
def State.agentWindow (s : State) (agent u off n v : Nat) : State :=
  match s.storeWindow u off n v (stewardAgent agent) with
  | some s => s
  | none => s.writeRefused agent (windowPA u off) 0

/-- A write of an agent to control space, which is open to stewards alone (08 R230). -/
def State.agentControl (s : State) (agent off n v : Nat) : State :=
  if stewardAgent agent then s.controlWrite off n v
  else if agent = 0xFFF then s
  else s.writeRefused agent (0xF * 2 ^ 52 + off) 3

/-- A write of up to 64 bytes at a physical address by an agent. -/
def State.agentWrite (s : State) (agent : Nat) (a : ByteAccess) : State :=
  let n := min a.size 64
  match s.badPA (stewardAgent agent) a.addr with
  | some i => s.writeRefused agent a.addr i
  | none =>
    if a.addr / 2 ^ 52 = 0xE then s.agentWindow agent (bits a.addr 22 10) (bits a.addr 0 22) n a.data.toNat
    else if a.addr / 2 ^ 52 = 0xF then s.agentControl agent (bits a.addr 0 32) n a.data.toNat
    else s.writeRefused agent a.addr 1

end Sys2Proof.Machine
end

