-- ==== Sys2Proof/Machine/Clock.lean ====
section
/-!
DEFINITION. The time servo: the messages that discipline device time (13 R368 to R370).
-/
namespace Sys2Proof.Machine

/-- Device time at a cycle's edge as a timestamp: in 2^-16 ns, to a resolution of 2^-4 ns (13 R369). -/
def State.timestamp (s : State) : Int := ((s.time / 17 / 4096 * 4096 : Nat) : Int)

/-- The plane that carries time messages: 0, or the lowest one whose port here is UP or DEGRADED (13 R369). -/
def State.timePlane (s : State) : Option Nat := (List.range 72).find? fun p => (s.links.look {} p).up

/-- A message that the module sends: 0 Sync, 1 Delay_Req, 2 Delay_Resp, 3 Announce; without a plane it is lost. -/
def State.sendTime (s : State) (kind : Nat) (m : TimeMessage) : State :=
  match s.timePlane with
  | some p => s.emit (.time p kind m)
  | none => s

/-- The domain of the module. -/
def Servo.domain (v : Servo) : Nat := (v.config.extractLsb' 0 8).toNat

/-- A message of this module's domain. -/
def State.mine (s : State) (m : TimeMessage) : Bool := m.domain == s.servo.domain

/-- The offset of 2^-8 ns that a register shows, from one in 2^-16 ns. -/
def shownOffset (x : Int) : Int := x / 256

/-- Lock is lost (13 R370): LOCK clears, HOLD sets, and a notice is written. -/
def State.loseLock (s : State) : State :=
  { s with servo := { s.servo with lock := false, hold := true, good := 0 } }.notice 0 2

/-- An offset has been measured (13 R368): 16 of them in a row within 4 ns give lock, and one outside loses it. Before the
first lock device time steps once. -/
def State.measured (s : State) (x : Int) : State :=
  let s := { s with servo := { s.servo with offset := shownOffset x } }
  if -262144 ≤ x ∧ x ≤ 262144 then
    let n := min 16 (s.servo.good + 1)
    { s with servo := { s.servo with
        good := n, lock := s.servo.lock || n == 16, hold := s.servo.hold && n != 16, stepped := s.servo.stepped || n == 16 } }
  else if s.servo.lock then s.loseLock
  else if s.servo.stepped then { s with servo := { s.servo with good := 0 } }
  else { s with time := ((s.time : Int) - 17 * x).toNat, servo := { s.servo with good := 0, stepped := true } }

/-- The master-to-slave delay of a Sync is known: the offset follows, and the path delay is asked for. -/
def State.synced (s : State) (delay : Int) : State :=
  let s := { s with servo := { s.servo with masterToSlave := delay, pending := none } }
  let s := s.measured (delay - s.servo.pathDelay)
  s.sendTime 1 { domain := s.servo.domain, seq := s.servo.syncSeq, origin := s.timestamp, received := 0 }

/-- SYNC_INTERVAL (13 R368, R369): the grandmaster sends an Announce and a one-step Sync. -/
def execSyncInterval (s : State) : Host.Outcome State Fault Refusal :=
  .next <|
    if !s.servo.isMaster || !s.power then s
    else
      let m : TimeMessage := { domain := s.servo.domain, seq := s.servo.syncSeq, origin := s.timestamp, received := 0 }
      let s := (s.sendTime 3 m).sendTime 0 m
      { s with servo := { s.servo with syncSeq := (s.servo.syncSeq + 1) % 65536 } }.schedule (s.cycle + s.servo.interval) .syncInterval

/-- SYNC (13 R369): one-step, or two-step, which waits for its Follow_Up. -/
def execSync (m : TimeMessage) (s : State) : Host.Outcome State Fault Refusal :=
  .next <|
    if s.servo.isMaster || !s.mine m then s
    else
      let s := { s with servo := { s.servo with syncSeq := m.seq } }
      if m.twoStep then { s with servo := { s.servo with pending := some { m with received := s.timestamp } } }
      else s.synced (s.timestamp - m.origin - m.correction)

/-- FOLLOW_UP (13 R369). -/
def execFollowUp (m : TimeMessage) (s : State) : Host.Outcome State Fault Refusal :=
  .next <|
    match s.servo.pending with
    | none => s
    | some p =>
      if s.servo.isMaster || !s.mine m || p.seq != m.seq then s
      else s.synced (p.received - m.origin - p.correction - m.correction)

/-- DELAY_REQ (13 R369): the grandmaster answers with the time of its receipt. -/
def execDelayReq (m : TimeMessage) (s : State) : Host.Outcome State Fault Refusal :=
  .next (if s.servo.isMaster && s.mine m then s.sendTime 2 { m with received := s.timestamp } else s)

/-- DELAY_RESP (13 R369): the mean path delay. -/
def execDelayResp (m : TimeMessage) (s : State) : Host.Outcome State Fault Refusal :=
  .next <|
    if s.servo.isMaster || !s.mine m then s
    else { s with servo := { s.servo with pathDelay := (s.servo.masterToSlave + (m.received - m.origin - m.correction)) / 2 } }

/-- ANNOUNCE (13 R369): ignored. -/
def execAnnounce (_m : TimeMessage) (s : State) : Host.Outcome State Fault Refusal := .next s

end Sys2Proof.Machine
end

