-- ==== Sys2Proof/Machine/Matrix.lean ====
section
/-!
DEFINITION. The instructions of the matrix strip but the scans: weight loads, multiplies, accumulator and state-bank moves,
control registers and counts (03 R88 to R90; 06 R173 to R189, R199, R200).
-/
namespace Sys2Proof.Machine

/-! ### Inputs, outputs and faults -/

/-- The FIFO of SRC: AM or VM. -/
def sourceFifo (o : MXForm) : Nat := if o.src = 0 then 0 else 2

/-- The FIFO of DST: MV or MW. -/
def destFifo (o : MXForm) : Nat := if o.dst = 0 then 3 else 4

/-- CNT + 1. -/
def rowsOf (o : MXForm) : Nat := o.cnt.toNat + 1

/-- Window offset of accumulator row `r`. -/
def accOffset (r : Nat) : Nat := 0x260000 + 0x300 * r

/-- Window offset of scan-state row `n`. -/
def stateOffset (n : Nat) : Nat := 0x280000 + 0x300 * n

/-- A data error of the matrix strip at a word of its window, with its row and lane (06 R200). -/
def matrixError (off row l : Nat) : Trap := dataError 2 off (row * 65536 + l)

/-- The first poisoned word of a row of the window of the acting tile, as a lane. -/
def State.badRow (s : State) (off : Nat) : Option (Nat × Nat) :=
  if s.poison.isEmpty then none
  else (s.firstPoison (windowPA s.cur.unit off) 768).map fun w => (w % 2 ^ 22, (w % 2 ^ 22 - off) / 4)

/-- The first poisoned word of an entry among words [lo, hi), as the word's place in the diagnostic window and its lane. -/
def FifoEntry.badWord (e : FifoEntry) (lo hi : Nat) : Option (Nat × Nat) :=
  ((List.range (hi - lo)).find? fun i => e.bad.getLsbD (lo + i)).map fun i => (0x2A1000 + 8 * (lo + i), 2 * (lo + i))

/-- A row is read with its errors checked. -/
def State.scrubRow (s : State) (off : Nat) : State := s.scrub (agentOf s.cur.unit s.bank) (windowPA s.cur.unit off) 768

/-- A row written whole has no poison and no inverted bit left. -/
def State.cleanRow (s : State) (u off : Nat) : State := s.cleanSpan u off 768

/-- An entry of FIFO `f` may be popped by the instruction: those reserved to a weight load come first (06 R177). -/
def State.entryReady (s : State) (f : Nat) : Bool :=
  let q := s.fifo s.cur.unit f
  q.take == 0 && q.canPop s.cycle 0

/-- An accumulator row has a result on its way (06 R175). -/
def State.accWaits (s : State) (rows : List Nat) : Bool := rows.any fun r => s.here.accBusy.contains r

/-- The reserved-operand trap of a slot that cannot be used (06 R200). -/
def State.slotTrap (s : State) (tag : Word) : Trap := { s.operandTrap 10 with i1 := tag }

/-- The first-NaN trap of the matrix strip (06 R200). -/
def State.matrixNan (s : State) (i2 i3 : Nat) : Trap :=
  { cause := 0x0A, i0 := 2, i1 := gridWord s.cur.unit, i2 := BitVec.ofNat 64 i2, i3 := BitVec.ofNat 64 i3 }

/-! ### Latches and the weight-load path (06 R174, R176 to R181) -/

/-- Latch slot `w`. -/
def Tile.latch (t : Tile) (w : Nat) : Latch := if w = 0 then t.latch0 else t.latch1

/-- The tile with latch slot `w` changed. -/
def Tile.modLatch (t : Tile) (w : Nat) (f : Latch → Latch) : Tile :=
  if w = 0 then { t with latch0 := f t.latch0 } else { t with latch1 := f t.latch1 }

/-- A load into slot `w` of unit `u` has popped its last entry and is not yet VALID. -/
def State.latchPending (s : State) (u w : Nat) : Bool :=
  s.agenda.any fun e => match e.2 with
    | .latchValid a b => a == u && b == w
    | _ => false

/-- The tag word of a slot. -/
def latchTag (kind : Nat) (ta tb : BitVec 4) (valid : Bool) : Word :=
  fields [(tb.toNat, 8), (ta.toNat, 4), (kind, 2), (valid.toNat, 0)]

/-- A load into slot `w` issues: an earlier one into it makes it VALID no more. -/
def State.cancelLatch (s : State) (u w : Nat) : State :=
  if s.latchPending u w then { s with agenda := s.agenda.filter fun e => e.2 != .latchValid u w } else s

/-- A weight load of `n` entries issues (06 R176). -/
def loadPanel (h : StripHead) (o : MXForm) (kind n storage : Nat) (s : State) : Host.Outcome State Fault Refusal :=
  let w := o.ws.toNat
  let f := sourceFifo o
  stripOnce h inCompute (fun s =>
    let t := s.here
    if t.wload.busy || t.wload.rest then .wait 6 0 s
    else
      let load : WeightLoad := { busy := true, slot := w, left := n, total := n, fifo := f, kind := kind, tb := o.tb.toNat,
                                 storage := storage, pos := s.strip.pos }
      let m := s.modHere fun t => { t.modLatch w (fun l => { l with tag := latchTag kind o.ta o.tb false }) with wload := load }
      .done ((m.cancelLatch m.cur.unit w).modFifo m.cur.unit f fun q => { q with take := n })) s

/-- WLD (06 R181). -/
def execWld (h : StripHead) (o : MXForm) (s : State) : Host.Outcome State Fault Refusal :=
  let st := (o.f.extractLsb' 0 2).toNat
  loadPanel h o 0 (match st with
    | 0 => 12
    | 1 => 6
    | _ => 9) st s

/-- WLDS (06 R181). -/
def execWlds (h : StripHead) (o : MXForm) (s : State) : Host.Outcome State Fault Refusal := loadPanel h o 1 16 0 s

/-- WLDG (06 R181). -/
def execWldg (h : StripHead) (o : MXForm) (s : State) : Host.Outcome State Fault Refusal :=
  loadPanel h o 2 (if o.tb = 3 then 7 else 5) 0 s

/-- The format of an FP8 or BF16 type code of MX TA and TB. -/
def matrixFmt (t : Nat) : Fmt :=
  match t with
  | 0 => e4m3
  | 1 => e5m2
  | _ => bf16

/-- A stored element of a storage code widened exactly (06 R178). -/
def widenStored (storage v : Nat) : Nat :=
  match storage with
  | 1 => (e4m3.round 0 0 (e2m1.value v)).bits
  | 2 => (e4m3.round 0 0 (e2m3.value v)).bits
  | _ => (e5m2.round 0 0 (e3m2.value v)).bits

/-- A latch with byte `i` of its values replaced. -/
def Latch.putByte (l : Latch) (i v : Nat) : Latch := { l with vals := BitVec.ofNat 73728 (setBits l.vals.toNat (8 * i) 8 v) }

/-- A dense entry, number `e`, enters a latch. -/
def Latch.takeDense (l : Latch) (storage e : Nat) (row : Row) : Latch :=
  if storage = 0 then { l with vals := BitVec.ofNat 73728 (setBits l.vals.toNat (6144 * e) 6144 row.toNat) }
  else
    let w := if storage = 1 then 4 else 6
    let n := 6144 / w
    let v := (List.range n).foldr (fun i acc => widenStored storage (bits row.toNat (w * i) w) + 256 * acc) 0
    { l with vals := BitVec.ofNat 73728 (setBits l.vals.toNat (8 * n * e) (8 * n) v) }

/-- A group-scaled entry enters a latch as it is, up to the panel's end. -/
def Latch.takeGroup (l : Latch) (bytes e : Nat) (row : Row) : Latch :=
  let n := min 768 (bytes - 768 * e)
  { l with vals := BitVec.ofNat 73728 (setBits l.vals.toNat (6144 * e) (8 * n) row.toNat) }

/-- Metadata of a column in a line of a sparse panel; `half` 0 or 1. -/
def lineMeta (line half : Nat) : Nat := bits line (128 * half) 96

/-- The first used group of a column's metadata whose places do not rise. -/
def badGroup (groups m : Nat) : Option Nat :=
  (List.range groups).find? fun g => decide (bits m (4 * g + 2) 2 ≤ bits m (4 * g) 2)

/-- The first column and group of a sparse entry, number `e`, with bad metadata (06 R179). -/
def badSparse (groups e : Nat) (row : Row) : Option (Nat × Nat) :=
  (List.range 12).findSome? fun j =>
    (badGroup groups (lineMeta (bits row.toNat (1024 * (j / 2)) 1024) (j % 2))).map fun g => (12 * e + j, g)

/-- A column of a sparse line enters a latch. -/
def Latch.takeColumn (l : Latch) (wide : Bool) (n half line : Nat) : Latch :=
  let l := { l with sparse := BitVec.ofNat 18432 (setBits l.sparse.toNat (96 * n) 96 (lineMeta line half)) }
  let base := 8 * (32 + 48 * half)
  if wide then
    (List.range 24).foldl (fun l k =>
      let v := bits line (base + 16 * k) 16
      (l.putByte (384 * k + 2 * n) (v % 256)).putByte (384 * k + 2 * n + 1) (v / 256)) l
  else (List.range 48).foldl (fun l k => l.putByte (192 * k + n) (bits line (base + 8 * k) 8)) l

/-- A sparse entry, number `e`, enters a latch. -/
def Latch.takeSparse (l : Latch) (wide : Bool) (e : Nat) (row : Row) : Latch :=
  (List.range 12).foldl (fun l j =>
    l.takeColumn wide (12 * e + j) (j % 2) (bits row.toNat (1024 * (j / 2)) 1024)) l

/-- The weight-load path has an entry to pop now: it stands while its strip is TRAPPED, and while its context is frozen, but for one
entry in a step of the matrix strip (06 R184, R202). -/
def State.wloadReady (s : State) (u : Nat) : Bool :=
  let t := s.tile u
  let q := t.fifos.look {} t.wload.fifo
  let stepped := t.stepping.any fun st => st.eng == 2 && !st.loaded
  t.wload.busy && decide (0 < t.wload.left) && (!(t.ctx t.run).frozen || stepped) && (t.ctx t.run).matrix.state != 5 && q.canPop s.cycle 0

/-- A fault of the load path, against the load's position with the entries popped (06 R184). -/
def State.loadFault (s : State) (u : Nat) (t : Trap) : State :=
  let h := s.tile u
  (s.modStrip u h.run 2 fun p => { p with state := 5, stall := 0, wait := 0 }).pend u h.run
    { t with eng := 2, pos := h.wload.pos, ust := h.wload.total - h.wload.left, rank := 2 }

/-- WLOAD_ENTRY (06 R176): the path pops one entry into its slot; the slot is VALID two cycles after the last. -/
def execWloadEntry (u : Nat) (s : State) : Host.Outcome State Fault Refusal :=
  let s := s.checkFifoOf u (s.tile u).wload.fifo
  let t := s.tile u
  let w := t.wload
  let e := w.total - w.left
  .next <|
    match (t.fifos.look {} w.fifo).pop s.cycle with
    | none => s
    | some (entry, q) =>
      let groups := if w.tb = 2 then 12 else 24
      match (if w.kind = 1 then badSparse groups e entry.row else none) with
      | some (c, g) => s.loadFault u { cause := 0x02, i0 := 9, i1 := BitVec.ofNat 64 c, i2 := BitVec.ofNat 64 g }
      | none =>
        match entry.badWord 0 96 with
        | some (off, l) => s.loadFault u (matrixError off 0 l)
        | none =>
          let take := fun (l : Latch) => match w.kind with
            | 0 => l.takeDense w.storage e entry.row
            | 1 => l.takeSparse (w.tb == 2) e entry.row
            | _ => l.takeGroup (if w.tb = 3 then 4992 else 3840) e entry.row
          let s := s.mod u fun t => { t.modLatch w.slot take with
            wload := { w with left := w.left - 1, busy := decide (1 < w.left) }
            fifos := t.fifos.put w.fifo { q with take := q.take - 1 }
            stepping := t.stepping.map fun st => { st with loaded := true } }
          if w.left = 1 then s.schedule (s.cycle + 2) (.latchValid u w.slot) else s

/-- LATCH_VALID (06 R176). -/
def execLatchValid (u w : Nat) (s : State) : Host.Outcome State Fault Refusal :=
  .next ((s.cleanSpan u (0x290000 + 0x4000 * w) 0x2D00).mod u fun t => t.modLatch w fun l => { l with tag := l.tag ||| 1 })

/-- LATCH_RESTORE_COMPLETE (06 R201): REST clears. -/
def execLatchRestoreComplete (u : Nat) (s : State) : Host.Outcome State Fault Refusal :=
  .next (s.mod u fun t => { t with wload := { t.wload with rest := false } })

/-! ### The elements of a multiply (03 R88, R89; 06 R178 to R182) -/

/-- A group-scaled element: its exact value (03 R89). -/
def groupValue (q : Int) (scale : Nat) : Val :=
  match bf16.value scale with
  | .nan => .nan
  | .inf s => if q = 0 then .made else .inf ((decide (q < 0)) != s)
  | v => if q = 0 then .num false 0 0 false else
    match v with
    | .num _ 0 _ false => .num false 0 0 false
    | v => (Val.ofInt q).mul v

/-- Column `n` of a latch: the A position and the value of each of its terms. `hi` is the second half of a group. -/
def Latch.column (l : Latch) (kind tb : Nat) (wideA hi : Bool) (n : Nat) : List (Nat × Val) :=
  let v := l.vals.toNat
  match kind with
  | 0 =>
    if tb = 2 then (List.range 24).map fun k => (k, bf16.value (bits v (8 * (384 * k + 2 * n)) 16))
    else (List.range 48).map fun k => (k, (matrixFmt tb).value (bits v (8 * (192 * k + n)) 8))
  | 1 =>
    let m := bits l.sparse.toNat (96 * n) 96
    (List.range (if tb = 2 then 24 else 48)).map fun k =>
      (4 * (k / 2) + bits m (4 * (k / 2) + 2 * (k % 2)) 2,
        if tb = 2 then bf16.value (bits v (8 * (384 * k + 2 * n)) 16) else (matrixFmt tb).value (bits v (8 * (192 * k + n)) 8))
  | _ =>
    let four := tb == 3
    let record := if four then bits v (8 * 26 * n) 208 else bits v (8 * 20 * n) 160
    let scale := if four then bits record 192 16 else bits record 144 16
    let element := fun (j : Nat) => if four then signedOf (bits record (4 * j) 4) 4 else signedOf (bits record (3 * j) 3) 3
    (List.range (if wideA then 24 else 48)).map fun k => (k, groupValue (element ((if hi then 24 else 0) + k)) scale)

/-- The sum of some exact values; none is +0. -/
def sumOf : List Val → Val
  | [] => .num false 0 0 false
  | v :: vs => vs.foldl Val.add v

/-- Element `k` of the A row that starts at bit `at_` of an entry. -/
def aElement (ta : Nat) (row : Row) (at_ k : Nat) : Val :=
  if ta = 2 then bf16.value (bits row.toNat (at_ + 16 * k) 16) else (matrixFmt ta).value (bits row.toNat (at_ + 8 * k) 8)

/-! ### New rows of the accumulators (03 R90) -/

/-- A computed row: its bits, flags, elements that became NaN and infinite, and the first produced NaN. -/
structure NewRow where
  row : Nat := 0
  flags : BitVec 7 := 0
  nan : Nat := 0
  inf : Nat := 0
  first : Option Nat := none

/-- An FP32 pattern is finite. -/
def isFinite (b : Nat) : Bool := !fp32.isNan b && !fp32.isInf b

/-- Lane `l` of a new row, over the value `old`. A NaN that an operand has propagated counts as one that was produced does: 03 R90
and 06 R197 count every lane that becomes NaN (DEDUCED, log entry 53). -/
def NewRow.put (a : NewRow) (l old : Nat) (r : Res) : NewRow where
  row := a.row + r.bits % 2 ^ 32 * 2 ^ (32 * l)
  flags := a.flags ||| r.flags
  nan := a.nan + (if fp32.isNan r.bits && !fp32.isNan old then 1 else 0)
  inf := a.inf + (if fp32.isInf r.bits && isFinite old then 1 else 0)
  first := if a.first.isNone && r.made then some l else a.first

/-- The row whose lane `l` is the rounding of `f l`; `old` is the row before. -/
def newRow (old : Row) (f : Nat → Val) : NewRow :=
  (List.range lanes).foldl (fun a l => a.put l (lane old l).toNat (fp32.round 0 0 (f l))) {}

/-- The flags and counts of a row that is complete `after` cycles from now join the pending ones (03 R90, 04 R125). -/
def State.countRow (s : State) (after : Nat) (r : NewRow) : State := s.owes after r.flags r.nan r.inf 0

/-! ### MMA, MMAS, MMAZ (06 R183, R184) -/

/-- The tag of a slot fits an instruction of A type `ta` and B type `tb`. -/
def tagFits (tag : Word) (o : MXForm) (sparse : Bool) : Bool :=
  tag.getLsbD 0 && tag.extractLsb' 4 4 == o.ta && tag.extractLsb' 8 4 == o.tb
    && (if sparse then tag.extractLsb' 2 2 == 1 else tag.extractLsb' 2 2 == 0 || tag.extractLsb' 2 2 == 2)

/-- The rows of the micro-step that follows `ust` ones. -/
def stepRows (o : MXForm) (ust : Nat) : List Nat :=
  ([2 * ust, 2 * ust + 1].filter fun i => decide (i < rowsOf o)).map fun i => o.row.toNat + i

/-- The column that the byte at offset `b` of a slot belongs to, where a multiply uses it: `half` of a group where A is wide. -/
def latchColumn (kind tb : Nat) (wideA hi : Bool) (b : Nat) : Option Nat :=
  if kind = 2 then
    let bytes := if tb = 3 then 24 else 18
    let i := b % (bytes + 2)
    let used := if wideA && hi then decide (bytes / 2 ≤ i) else if wideA then decide (i < bytes / 2) || decide (bytes ≤ i) else true
    if b < 192 * (bytes + 2) ∧ used then some (b / (bytes + 2)) else none
  else if b < 0x2400 then some (if tb = 2 then b % 384 / 2 else b % 192)
  else if kind = 1 ∧ b < 0x2D00 ∧ (tb ≠ 2 ∨ (b - 0x2400) % 12 < 6) then some ((b - 0x2400) / 12)
  else none

/-- The words of slot `o.ws` that a multiply uses: window offset and first column. -/
def Tile.latchWords (t : Tile) (o : MXForm) : List (Nat × Nat) :=
  let kind := ((t.latch o.ws.toNat).tag.extractLsb' 2 2).toNat
  (List.range 0x5A0).filterMap fun i =>
    ((List.range 8).findSome? fun j => latchColumn kind o.tb.toNat (o.ta == 2) (o.f.getLsbD 0) (8 * i + j)).map fun n =>
      (0x290000 + 0x4000 * o.ws.toNat + 8 * i, n)

/-- The words of the slot are checked as a multiply uses them (07 R219). -/
def State.scrubLatch (s : State) (o : MXForm) : State :=
  if s.flips.isEmpty then s
  else (s.here.latchWords o).foldl (fun s w => s.checkWord (agentOf s.cur.unit s.bank) (windowPA s.cur.unit w.1)) s

/-- A poisoned word that a multiply would consume: of its entry, its accumulators, its slot. -/
def State.multiplyError (s : State) (o : MXForm) (e : FifoEntry) (per : Nat) (zero : Bool) (rows : List Nat) : Option Trap :=
  if s.poison.isEmpty && e.bad == 0 then none
  else
    let r0 := rows.headD 0
    let place := 2 * s.strip.ust % per
    let w := 96 / per
    match e.badWord (w * place) (w * (place + rows.length)) with
    | some (off, l) => some (matrixError off r0 l)
    | none =>
      match (if zero then none else rows.findSome? fun r => (s.badRow (accOffset r)).map fun b => (r, b)) with
      | some (r, off, l) => some (matrixError off r l)
      | none =>
        if s.poison.isEmpty then none
        else ((s.here.latchWords o).find? fun w => s.poisoned (windowPA s.cur.unit w.1)).map fun w => matrixError w.1 r0 w.2

/-- The new values of the rows of a micro-step. -/
def State.multiplyRows (s : State) (o : MXForm) (e : FifoEntry) (per : Nat) (zero : Bool) (rows : List Nat) : List (Nat × NewRow) :=
  let l := s.here.latch o.ws.toNat
  let kind := (l.tag.extractLsb' 2 2).toNat
  let columns := (List.range lanes).map fun n => l.column kind o.tb.toNat (o.ta == 2) (o.f.getLsbD 0) n
  let place := 2 * s.strip.ust % per
  (rows.zip (List.range 2)).map fun e' =>
    let (r, i) := e'
    let at_ := 6144 / per * (place + i)
    let a := (List.range 96).map fun k => if 6144 / per ≤ (if o.ta = 2 then 16 else 8) * k then Val.num false 0 0 false
      else aElement o.ta.toNat e.row at_ k
    let old : Row := if zero then 0 else s.here.acc.look 0 r
    (r, newRow old fun n =>
      let products := ((columns[n]?).getD []).map fun t => ((a[t.1]?).getD (.num false 0 0 false)).mul t.2
      sumOf (if zero then products else products ++ [fp32.value (lane old n).toNat]))

/-- The count that a row would reach. -/
def nextCount (t : Tile) (zero : Bool) (r : Nat) : Nat := if zero then 1 else min 65535 (t.kcount.look 0 r + 1)

/-- The results of a micro-step leave for the accumulators, 10 cy away. -/
def State.enterRows (s : State) (zero : Bool) (rs : List (Nat × NewRow)) : State :=
  rs.foldl (fun s e =>
    let s := (s.countRow 10 e.2).modHere fun t => { t with
      kcount := t.kcount.put e.1 (nextCount t zero e.1), accBusy := e.1 :: t.accBusy }
    (s.schedule (s.cycle + 10) (.accumulatorEntry s.cur.unit e.1 (BitVec.ofNat 6144 e.2.row))).drainsAt (s.cycle + 10)) s

/-- One micro-step of a multiply whose entries hold `per` A rows. -/
def multiplyStep (o : MXForm) (per : Nat) (sparse zero : Bool) (s : State) : StripRes :=
  let t := s.here
  let ust := s.strip.ust
  let w := o.ws.toNat
  let tag := (t.latch w).tag
  let f := sourceFifo o
  let rows := stepRows o ust
  if t.wload.rest then .wait 6 0 s
  else if ust = 0 && !tag.getLsbD 0 && ((t.wload.busy && t.wload.slot == w) || s.latchPending s.cur.unit w) then .wait 6 0 s
  else if ust = 0 && !tagFits tag o sparse then .trap s (s.slotTrap tag) none
  else if s.accWaits rows then .wait 6 0 s
  else if s.strip.held.isEmpty && !s.entryReady f then .wait 3 f s
  else
    let (e, m) := match s.strip.held with
      | e :: _ => (e, s)
      | [] => (s.checkFifo f).popFifo f
    let m := rows.foldl (fun m r => m.scrubRow (accOffset r)) ((m.holds [e]).scrubLatch o)
    match m.multiplyError o e per zero rows with
    | some t => .trap m t none
    | none =>
      let rs := m.multiplyRows o e per zero rows
      let nan := if s.me.mode.getLsbD 2 then rs.findSome? fun e => e.2.first.map fun l => (e.1, l) else none
      m.orReport (nan.map fun e => m.matrixNan (e.1 * 65536 + e.2) (nextCount m.here zero e.1)) fun m =>
        let m := m.enterRows zero rs
        let last := decide (rowsOf o ≤ 2 * ust + 2)
        let m := if last || (2 * ust + 2) % per == 0 then m.holds [] else m
        if last then .done m else .micro m 1

/-- A multiply (06 R183). -/
def multiplyInstr (h : StripHead) (o : MXForm) (per : Nat) (sparse zero : Bool) (s : State) : Host.Outcome State Fault Refusal :=
  stripMany h inCompute (fun _ => (rowsOf o + 1) / 2) (multiplyStep o per sparse zero) s

/-- MMA (06 R183). -/
def execMma (h : StripHead) (o : MXForm) (s : State) : Host.Outcome State Fault Refusal := multiplyInstr h o 16 false false s
/-- MMAS (06 R183). -/
def execMmas (h : StripHead) (o : MXForm) (s : State) : Host.Outcome State Fault Refusal := multiplyInstr h o 8 true false s
/-- MMAZ (06 R183). -/
def execMmaz (h : StripHead) (o : MXForm) (s : State) : Host.Outcome State Fault Refusal := multiplyInstr h o 16 false true s

/-- ACCUMULATOR_ENTRY (06 R175): the result enters its row. -/
def execAccumulatorEntry (u row : Nat) (v : Row) (s : State) : Host.Outcome State Fault Refusal :=
  .next ((s.cleanRow u (accOffset row)).mod u fun t => { t with acc := t.acc.put row v, accBusy := t.accBusy.erase row })

/-! ### Rows in and out (06 R185 to R187, R199) -/

/-- Rows [r, r + n). -/
def rowList (r n : Nat) : List Nat := (List.range n).map (r + ·)

/-- ACLR (06 R185). -/
def execAclr (h : StripHead) (o : MXForm) (s : State) : Host.Outcome State Fault Refusal :=
  let rows := rowList o.row.toNat (rowsOf o)
  stripOnce h inCompute (fun s =>
    if s.accWaits rows then .wait 6 0 s
    else .done (rows.foldl (fun m r => (m.cleanRow m.cur.unit (accOffset r)).modHere fun t => { t with
      acc := t.acc.put r 0, kcount := t.kcount.put r 0 }) s)) s

/-- Rounding mode of a drain: RNE, RZ, stochastic, or ctl.frm (02 R58). -/
def drainMode (x : Ctx) (o : MXForm) : Nat :=
  match o.rm.toNat with
  | 0 => 0
  | 1 => 1
  | 2 => 4
  | _ => (x.frm.extractLsb' 0 3).toNat

/-- A drained row: its bits, generators, flags, clamped elements, first element that traps. -/
def drainRow (x : Ctx) (cvt mode : Nat) (row : Row) : Calc :=
  match cvt with
  | 0 => { row := row.toNat, gens := x.mgen }
  | _ =>
    let dst := match cvt with
      | 1 => bf16
      | 2 => fp16
      | 3 => e4m3
      | _ => e5m2
    (List.range lanes).foldl (fun a l =>
      let g := if mode = 4 then xs32 (a.gens.look (seedOf x.seed l) l) else 0
      let r := convert fp32 dst mode g (x.mode.getLsbD 1) (lane row l).toNat
      { row := a.row + r.bits % 2 ^ dst.width * 2 ^ (dst.width * l)
        gens := if mode = 4 then a.gens.put l g else a.gens
        flags := a.flags ||| r.flags
        sat := a.sat + r.sat
        first := if a.first.isNone && x.stops r then some (l, 0) else a.first }) { gens := x.mgen }

/-- ADRN (06 R186). -/
def execAdrn (h : StripHead) (o : MXForm) (s : State) : Host.Outcome State Fault Refusal :=
  let f := destFifo o
  stripMany h inCompute (fun _ => rowsOf o) (fun s =>
    let r := o.row.toNat + s.strip.ust
    let mode := drainMode s.me o
    if 5 ≤ mode then .trap s s.operandTrap none
    else if s.accWaits [r] then .wait 6 0 s
    else if !(s.fifo s.cur.unit f).hasRoom s.cycle then .wait 4 f s
    else
      let s := s.scrubRow (accOffset r)
      match s.badRow (accOffset r) with
      | some (off, l) => .trap s (matrixError off r l) none
      | none =>
        let c := drainRow s.me o.cvt.toNat mode (s.here.acc.look 0 r)
        s.orReport (c.first.map fun e => s.matrixNan (r * 65536 + e.1) 0) fun s =>
          let m := (s.owes 0 c.flags 0 0 c.sat).modMe fun x => { x with mgen := c.gens }
          let m := if o.f.getLsbD 0 then m.modHere fun t => { t with acc := t.acc.put r 0, kcount := t.kcount.put r 0 } else m
          let m := (m.pushFifo f (BitVec.ofNat 6144 c.row) 0 (m.cycle + 1)).drainsAt (m.cycle + 1)
          if m.strip.ust + 1 < rowsOf o then .micro m 1 else .done m) s

/-- The entry of the micro-step: one held since a trap, or the next of the FIFO. -/
def State.takeEntry (s : State) (f : Nat) : FifoEntry × State :=
  match s.strip.held with
  | e :: _ => (e, s)
  | [] =>
    let (e, m) := (s.checkFifo f).popFifo f
    (e, m.holds [e])

/-- ALDA (06 R187). -/
def execAlda (h : StripHead) (o : MXForm) (s : State) : Host.Outcome State Fault Refusal :=
  let f := sourceFifo o
  let add := o.f.getLsbD 0
  stripMany h inCompute (fun _ => rowsOf o) (fun s =>
    let r := o.row.toNat + s.strip.ust
    if s.accWaits [r] then .wait 6 0 s
    else if s.strip.held.isEmpty && !s.entryReady f then .wait 3 f s
    else
      let (e, m) := s.takeEntry f
      let m := m.scrubRow (accOffset r)
      let old := m.here.acc.look 0 r
      match e.badWord 0 96, (if add then m.badRow (accOffset r) else none) with
      | some (off, l), _ => .trap m (matrixError off r l) none
      | none, some (off, l) => .trap m (matrixError off r l) none
      | none, none =>
        let finish := fun (m : State) =>
          let m := m.holds []
          if m.strip.ust + 1 < rowsOf o then StripRes.micro m 1 else .done m
        if add then
          let n := newRow old fun l => (fp32.value (lane old l).toNat).add (fp32.value (lane e.row l).toNat)
          let nan := if m.me.mode.getLsbD 2 then n.first else none
          m.orReport (nan.map fun l => m.matrixNan (r * 65536 + l) (m.here.kcount.look 0 r)) fun m =>
            finish ((m.countRow 0 n).modHere fun t => { t with acc := t.acc.put r (BitVec.ofNat 6144 n.row) })
        else finish ((m.cleanRow m.cur.unit (accOffset r)).modHere fun t => { t with
          acc := t.acc.put r e.row, kcount := t.kcount.put r 0 })) s

/-- HLD (06 R199). -/
def execHld (h : StripHead) (o : MXForm) (s : State) : Host.Outcome State Fault Refusal :=
  let f := sourceFifo o
  stripMany h inCompute (fun _ => rowsOf o) (fun s =>
    let n := o.row.toNat + s.strip.ust
    if s.strip.held.isEmpty && !s.entryReady f then .wait 3 f s
    else
      let (e, m) := s.takeEntry f
      match e.badWord 0 96 with
      | some (off, l) => .trap m (matrixError off n l) none
      | none =>
        let m := ((m.holds []).cleanRow m.cur.unit (stateOffset n)).modHere fun t => { t with hs := t.hs.put n e.row }
        if m.strip.ust + 1 < rowsOf o then .micro m 1 else .done m) s

/-- HST (06 R199). -/
def execHst (h : StripHead) (o : MXForm) (s : State) : Host.Outcome State Fault Refusal :=
  let f := destFifo o
  stripMany h inCompute (fun _ => rowsOf o) (fun s =>
    let n := o.row.toNat + s.strip.ust
    if !(s.fifo s.cur.unit f).hasRoom s.cycle then .wait 4 f s
    else
      let s := s.scrubRow (stateOffset n)
      match s.badRow (stateOffset n) with
      | some (off, l) => .trap s (matrixError off n l) none
      | none =>
        let m := (s.pushFifo f (s.here.hs.look 0 n) 0 (s.cycle + 1)).drainsAt (s.cycle + 1)
        if m.strip.ust + 1 < rowsOf o then .micro m 1 else .done m) s

/-- HCLR (06 R199). -/
def execHclr (h : StripHead) (o : MXForm) (s : State) : Host.Outcome State Fault Refusal :=
  stripOnce h inCompute (fun s =>
    .done ((rowList o.row.toNat (rowsOf o)).foldl (fun m n =>
      (m.cleanRow m.cur.unit (stateOffset n)).modHere fun t => { t with hs := t.hs.put n 0 }) s)) s

/-! ### Control registers and counts (06 R188, R189) -/

/-- A strip's mailbox takes a value in cycle `at_`: reads of that cycle still see the old one, and a store of the control core in it
is lost (05 R135). -/
def State.mailboxLater (s : State) (at_ k : Nat) (v : Word) : State :=
  (s.schedule (at_ + 1) (.pipelinedResultWrite s.cur.unit s.bank (.mailbox s.cur.eng k) v 0 0)).drainsAt at_

/-- Bits of a matrix control register that a write may set. -/
def matrixRegMask (i : Nat) : Word := if i = 8 then 0x7F else 0xFFFFFFFF

/-- MCFG that writes a register (06 R188). -/
def execMcfgWrite (h : StripHead) (o : MXForm) (s : State) : Host.Outcome State Fault Refusal :=
  let i := o.row.toNat
  stripOnce h inCompute (fun s =>
    let k := (o.f.extractLsb' 0 3).toNat
    let pa := mailboxPA s.cur.unit s.bank 2 k
    let s := s.scrub (agentOf s.cur.unit s.bank) pa 8
    if s.poisoned pa then .trap s (dataError 2 (pa % 2 ^ 22)) none
    else
      let v := s.me.matrix.mailbox.look 0 k
      if v &&& ~~~matrixRegMask i ≠ 0 ∨ (i = 8 ∧ 64 < v.toNat) then .trap s s.operandTrap none
      else .done (s.matrixPut s.cur.unit s.bank (8 * i) (~~~0#64) v)) s

/-- MCFG that reads a register into a mailbox (06 R188). -/
def execMcfgRead (h : StripHead) (o : MXForm) (s : State) : Host.Outcome State Fault Refusal :=
  stripOnce h inCompute (fun s =>
    .done (s.mailboxLater (s.cycle + 2) (o.f.extractLsb' 0 3).toNat
      (s.matrixRegister s.cur.unit s.bank o.row.toNat))) s

/-- MXCNT (06 R189). -/
def execMxcnt (h : StripHead) (o : MXForm) (s : State) : Host.Outcome State Fault Refusal :=
  stripOnce h inCompute (fun s =>
    let x := s.me
    let sel := (o.f.extractLsb' 0 2).toNat
    let committed := o.f.getLsbD 2
    let v := match sel, committed with
      | 0, false => x.nanPending
      | 1, false => x.infPending
      | _, false => x.satPending
      | 0, true => x.nanCommitted
      | 1, true => x.infCommitted
      | _, true => x.satCommitted
    let m := s.mailboxLater (s.cycle + 2) (o.row.toNat % 8) (BitVec.ofNat 64 v)
    .done (if committed && o.f.getLsbD 3 then m.modMe fun x => match sel with
        | 0 => { x with nanCommitted := 0 }
        | 1 => { x with infCommitted := 0 }
        | _ => { x with satCommitted := 0 }
      else m)) s

end Sys2Proof.Machine
end

