-- ==== Sys2Proof/Machine/Writeback.lean ====
section
/-!
DEFINITION. The instructions of the writeback strip: rows written, added and scattered into the scratchpad by writeback
descriptors (07 R206, R211, R226, R227).
-/
namespace Sys2Proof.Machine

/-! ### Writeback descriptors (07 R226) -/

/-- The FIFO that PORT of a WX form names: VW or MW. -/
def writeFifo (o : AXForm) : Nat := if o.port = 0 then 5 else 4

/-- Fields of a writeback descriptor (07 R226). -/
def wdescBase (d : BitVec 256) : Nat := bits d.toNat 0 21
/-- See `wdescBase`. -/
def wdescStride1 (d : BitVec 256) : Int := signedOf (bits d.toNat 32 32) 32
/-- See `wdescBase`. -/
def wdescCount1 (d : BitVec 256) : Nat := bits d.toNat 64 16
/-- See `wdescBase`. -/
def wdescCount2 (d : BitVec 256) : Nat := bits d.toNat 80 16
/-- See `wdescBase`. -/
def wdescStride2 (d : BitVec 256) : Int := signedOf (bits d.toNat 96 32) 32

/-- Address of row `j` of a writeback descriptor. -/
def wdescRow (d : BitVec 256) (j : Nat) : Int :=
  (wdescBase d : Int) + (j % wdescCount1 d : Nat) * wdescStride1 d
    + (j / wdescCount1 d % wdescCount2 d : Nat) * wdescStride2 d

/-- A writeback descriptor that WDSC loads (07 R227). -/
def wdescLegal (d : BitVec 256) : Bool :=
  bits d.toNat 21 11 == 0 && bits d.toNat 128 128 == 0 && wdescCount1 d != 0 && wdescCount2 d != 0

/-- Window offset of writeback descriptor `k` of a context. -/
def wdescOffset (c : Bool) (k : Nat) : Nat := 0x2B6000 + c.toNat * 0x10000 + 0x20 * k

/-- Window offset of its cursor. -/
def wcursorOffset (c : Bool) (k : Nat) : Nat := 0x2B6100 + c.toNat * 0x10000 + 8 * k

/-- The address of the row at the cursor of eK. -/
def State.writeRowAt (s : State) (k : Nat) : Int := wdescRow (s.me.wdesc.look 0 k) (s.me.wcur.look 0 k)

/-- The cursor of eK counts a written row. -/
def State.wroteRow (s : State) (k : Nat) : State := s.modMe fun x => { x with wcur := x.wcur.put k (x.wcur.look 0 k + 1) }

/-- What keeps an instruction from using eK: an uncorrectable word of it, or of its cursor, has frozen the job before
(`State.checkProtected`). -/
def State.wdescStop (s : State) (k : Nat) : Option StripRes :=
  if s.cycle < s.me.wready.look 0 k then some (.wait 6 0 s) else none

/-- WDSC (07 R227): 4 cy. -/
def execWdsc (h : StripHead) (o : AXForm) (s : State) : Host.Outcome State Fault Refusal :=
  let k := o.ds.toNat
  let a := o.imm.toNat * 32
  stripOnce h inCompute (fun s =>
    if s.cycle < s.me.wready.look 0 k then .wait 6 0 s
    else if !s.stripMay a 32 then .trap s (localTrap a) none
    else match s.grant s.cur.unit (bankOf a) with
      | none => .wait 5 0 s
      | some s =>
        let pa := windowPA s.cur.unit a
        let s := s.scrub (agentOf s.cur.unit s.bank) pa 32
        match s.firstPoison pa 32 with
        | some w => .trap s (dataError 4 (w % 2 ^ 22)) none
        | none =>
          let d := BitVec.ofNat 256 (s.loadPA pa 32)
          if !wdescLegal d then .trap s s.operandTrap none
          else
            let m := ((s.cleanSpan s.cur.unit (wdescOffset s.bank k) 32).cleanSpan s.cur.unit (wcursorOffset s.bank k) 8).modMe fun x => { x with
              wdesc := x.wdesc.put k d, wcur := x.wcur.put k 0, wready := x.wready.put k (s.cycle + 4) }
            .done (m.drainsAt (s.cycle + 4))) s

/-! ### Held entries -/

/-- The `n` entries of the micro-step: those held since a trap, or the next of the FIFO. -/
def State.takeEntries (s : State) (f n : Nat) : List FifoEntry × State :=
  if !s.strip.held.isEmpty then (s.strip.held, s)
  else
    let s := s.checkFifo f
    let r := (List.range n).foldl (fun (a : List FifoEntry × State) _ =>
      let (e, m) := a.2.popFifo f
      (a.1 ++ [e], m)) ([], s)
    (r.1, r.2.holds r.1)

/-- The `n` entries are held or can be popped. -/
def State.entriesReady (s : State) (f n : Nat) : Bool :=
  let q := s.fifo s.cur.unit f
  !s.strip.held.isEmpty || (q.take == 0 && q.canPop s.cycle (n - 1))

/-- A data error of the writeback strip at a window offset, in lane `l` of row `row` of its descriptor (07 R220). -/
def writeError (off row l : Nat) : Trap := dataError 4 off (row * 65536 + l)

/-- The number of the row that eK is at. -/
def State.rowNumber (s : State) (k : Nat) : Nat := s.me.wcur.look 0 k

/-- The error of the first poisoned word of an entry's lanes, of `w` bits each, for row `row`. -/
def FifoEntry.poisonIn (e : FifoEntry) (w row : Nat) : Option Trap :=
  ((List.range (3 * w)).find? e.bad.getLsbD).map fun i => writeError (0x2A1000 + 8 * i) row (64 * i / w)

/-! ### Rows (07 R227) -/

/-- The first-NaN or strict-conversion trap of lane `l` in the present micro-step. -/
def State.writeNan (s : State) (l : Nat) : Trap := s.rowNanTrap ((s.strip.ust + 1) * 65536 + l)

/-- The end of a row or pair. -/
def State.rowEnds (s : State) (o : AXForm) : StripRes :=
  let m := ((s.holds []).wroteRow o.ds.toNat).drainsAt (s.cycle + 2)
  if m.strip.ust < o.cnt.toNat then .micro m 1 else .done m

/-- A row leaves for the bank, where it is due two cycles on (02 R66). -/
def State.sendRow (s : State) (a n v bad : Nat) : State :=
  s.modHere fun t => { t with rowsDue := t.rowsDue ++ [{ at_ := s.cycle + 2, addr := a, len := n, data := v, bad := bad }] }

/-- One row goes to address `a` of length `n`: `make` makes it of the entry; `trap` is what stops it before; `reads`: the old row is
read first, under a grant of its bank. -/
def writeOne (o : AXForm) (a : Int) (n : Nat) (reads : Bool) (trap : State → FifoEntry → Option Trap) (make : State → FifoEntry → RowCalc)
    (bad : FifoEntry → Nat) (s : State) : StripRes :=
  let f := writeFifo o
  if !s.entriesReady f 1 then .wait 3 f s
  else
    let (es, m) := s.takeEntries f 1
    let e := es.headD { row := 0 }
    match s.rowTrap a n with
    | some t => .trap m t none
    | none =>
      match (if reads then m.grant m.cur.unit (bankOf a.toNat) else some m) with
      | none => .wait 5 0 s
      | some m =>
        if !m.here.bufferReady (bankOf a.toNat) then .wait 5 0 s
        else match trap m e with
        | some t => .trap m t none
        | none =>
          let c := make m e
          m.orReport (c.first.map m.writeNan) fun m => ((m.rowFlags 2 c).sendRow a.toNat n c.row (bad e)).rowEnds o

/-- One row of WST. -/
def storeRow (o : AXForm) (s : State) : StripRes :=
  match s.wdescStop o.ds.toNat with
  | some r => r
  | none =>
    let a := s.writeRowAt o.ds.toNat
    let src := o.aux.toNat
    let dst := s.here.fmt (bankOf a.toNat)
    let n := rowLength src dst
    writeOne o a n false (fun m e => if converts src dst then e.poisonIn (fmtBits src) (m.rowNumber o.ds.toNat) else none)
      (fun m e => convertRow m.me src dst e.row.toNat) (fun e => if converts src dst then 0 else e.bad.toNat) s

/-- WST (07 R227). -/
def execWst (h : StripHead) (o : AXForm) (s : State) : Host.Outcome State Fault Refusal :=
  stripMany h inCompute (fun _ => o.cnt.toNat + 1) (storeRow o) s

/-- One element added by WACC: into a floating format with one rounding; into INT32 modulo 2^32, a floating element
converted first. -/
def addElement (src dst old new : Nat) : Res :=
  match bankFmt dst, bankFmt src with
  | some (.float f), _ => f.round 0 0 ((elementValue dst old).add (elementValue src new))
  | _, some (.float g) =>
    let r := toInteger true 32 0 0 (g.value new)
    { r with bits := (old + r.bits) % 2 ^ 32 }
  | _, some (.int k) => { bits := wrap 32 ((old : Int) + signedOf new k) }
  | _, none => { bits := old }

/-- A row of sums. -/
def addRow (x : Ctx) (src dst old new : Nat) : RowCalc :=
  (List.range lanes).foldl (fun a l =>
    a.put x (fmtBits dst) l
      (addElement src dst (rowElement old (fmtBits dst) l) (rowElement new (fmtBits src) l))) {}

/-- One row of WACC. -/
def accumulateRow (o : AXForm) (s : State) : StripRes :=
  match s.wdescStop o.ds.toNat with
  | some r => r
  | none =>
    let a := s.writeRowAt o.ds.toNat
    let src := o.aux.toNat
    let dst := s.here.fmt (bankOf a.toNat)
    let n := rowLength src dst
    let pa := windowPA s.cur.unit a.toNat
    let s := if a < 0 then s else s.scrub (agentOf s.cur.unit s.bank) pa n
    writeOne o a n true (fun m e =>
        if src = 0 ∨ (dst ≠ 1 ∧ dst ≠ 2 ∧ dst ≠ 3 ∧ dst ≠ 9) then some m.operandTrap
        else (e.poisonIn (fmtBits src) (m.rowNumber o.ds.toNat)).orElse fun _ =>
          (m.firstPoison pa n).map fun w => writeError (w % 2 ^ 22) (m.rowNumber o.ds.toNat) (8 * (w - pa) / fmtBits dst))
      (fun m e => addRow m.me src dst (m.loadPA pa n) e.row.toNat) (fun _ => 0) s

/-- WACC (07 R227). -/
def execWacc (h : StripHead) (o : AXForm) (s : State) : Host.Outcome State Fault Refusal :=
  stripMany h inCompute (fun _ => o.cnt.toNat + 1) (accumulateRow o) s

/-! ### WSCAT (07 R227) -/

/-- The elements that a pair writes, in lane order: lane and address. -/
def scatterPlaces (a w : Nat) (index : Row) : List (Nat × Nat) :=
  (List.range lanes).filterMap fun l =>
    let i := (lane index l).toNat
    if i = 0xFFFFFFFF then none else some (l, a + i * w)

/-- Elements before place `i` that fall in the same bank. -/
def scatterRank (ps : List (Nat × Nat)) (i : Nat) : Nat :=
  match ps[i]? with
  | some p => ((ps.take i).filter fun q => bankOf q.2 == bankOf p.2).length
  | none => 0

/-- The places with their ranks within their banks. -/
def scatterRanks (ps : List (Nat × Nat)) : List (Nat × Nat × Nat) :=
  (ps.zip (List.range ps.length)).map fun e => (scatterRank ps e.2, e.1)

/-- Cycles of a pair. -/
def scatterCycles (rs : List (Nat × Nat × Nat)) : Nat := rs.foldl (fun n e => max n (e.1 + 1)) 8

/-- All of some banks granted in this cycle. -/
def State.grantBanks (s : State) : List Nat → Option State
  | [] => some s
  | b :: bs =>
    match s.grant s.cur.unit b with
    | none => none
    | some s => s.grantBanks bs

/-- What stops a pair before its first element is written. -/
def State.scatterTrap (s : State) (src dst : Nat) (a : Int) (w row : Nat) (ps : List (Nat × Nat)) (index data : FifoEntry) :
    Option Trap :=
  if a < 0 || decide (0x180000 ≤ a.toNat) then some { cause := 0x08, i0 := BitVec.ofInt 64 a }
  else if w = 0 then some s.operandTrap
  else if a.toNat % 32 != 0 then some { cause := 0x07, i0 := BitVec.ofInt 64 a }
  else
    match (index.poisonIn 32 row).orElse fun _ => data.poisonIn (fmtBits (if src != 0 then src else dst)) row with
    | some t => some t
    | none =>
      match ps.find? fun p => !s.stripMay p.2 w with
      | some p => some (localTrap p.2)
      | none => ps.findSome? fun p => (s.firstPoison (windowPA s.cur.unit p.2) w).map fun pa => writeError (pa % 2 ^ 22) row p.1

/-- One cycle of a pair: in each of its cycles one element of every bank is written, in lane order. -/
def scatterCycle (o : AXForm) (s : State) : StripRes :=
  match (if s.strip.spent = 0 then s.wdescStop o.ds.toNat else none) with
  | some r => r
  | none =>
    let u := s.cur.unit
    let f := writeFifo o
    if !s.entriesReady f 2 then .wait 3 f s
    else
      let (es, m) := s.takeEntries f 2
      let index := es.headD { row := 0 }
      let data := (es[1]?).getD { row := 0 }
      let a := s.writeRowAt o.ds.toNat
      let src := o.aux.toNat
      let dst := s.here.fmt (bankOf a.toNat)
      -- bytes of an element; 0 stands for a format narrower than 8 bits
      let w := fmtBits (if dst != 0 then dst else src) / 8
      let ps := scatterPlaces a.toNat w index.row
      let j := s.strip.spent
      let m := if j = 0 ∧ m.flips.isEmpty = false then
          ps.foldl (fun m p => if p.2 + w ≤ 0x180000 then m.scrub (agentOf u m.bank) (windowPA u p.2) w else m) m
        else m
      match (if j = 0 then m.scatterTrap src dst a w (m.rowNumber o.ds.toNat) ps index data else none) with
      | some t => .trap m t none
      | none =>
        let c := convertRow m.me src dst data.row.toNat
        let go := fun (m : State) =>
          let ranks := scatterRanks ps
          let now := (ranks.filter fun e => e.1 == j).map (·.2)
          match m.grantBanks (now.map fun p => bankOf p.2) with
          | none => StripRes.wait 5 0 m
          | some m =>
            let m := now.foldl (fun m p => m.storePA (windowPA u p.2) w (rowElement c.row (8 * w) p.1)) m
            if j + 1 < scatterCycles ranks then .part (m.modMyStrip fun t => { t with spent := j + 1 })
            else (m.rowFlags 2 c).rowEnds o
        if j = 0 then m.orReport (c.first.map m.writeNan) go else go m

/-- WSCAT (07 R227). -/
def execWscat (h : StripHead) (o : AXForm) (s : State) : Host.Outcome State Fault Refusal :=
  stripMany h inCompute (fun _ => o.cnt.toNat + 1) (scatterCycle o) s

/-- A timed WSCAT is past the eighth cycle of its pair: each further cycle is a slip (07 R227). -/
def State.scatterOvertime (s : State) (u : Nat) (c : Bool) : Bool :=
  let t := (s.ctx u c).writeback
  decide (8 ≤ t.spent) && t.state == 2 && !t.el

end Sys2Proof.Machine
end

