-- ==== Sys2Proof/Machine/Common.lean ====
section
/-!
DEFINITION. The common strip instructions: SIDLE, SEND, SMARK and the three forms of SFLG (09 R286 to R288, 13 R384).
-/
namespace Sys2Proof.Machine

/-- SIDLE (09 R286): one micro-step a cycle. -/
def execSidle (h : StripHead) (o : CMForm) (s : State) : Host.Outcome State Fault Refusal :=
  let n := (o.imm.extractLsb' 0 16).toNat
  stripMany h anyPhase (fun _ => n) (fun s => if s.strip.ust + 1 < n then .micro s 1 else .done s) s

/-- Merged reduction records of an operation, which complete at the boundary (08 R255). -/
def State.mergedParts (s : State) (u : Nat) (c : Bool) (id : Nat) : Nat :=
  (s.merged.filter fun m => m.dev == s.device && m.tile == u && m.c == c && m.opId == id).length

/-- What an access strip's earlier transfers and atomics still wait for: anything but a boundary. -/
def State.transfersPending (s : State) (u : Nat) (c : Bool) : Bool :=
  (s.ctx u c).ops.any fun o => !o.stream && decide (s.mergedParts u c o.id < o.left)

/-- A row buffer of the context still holds bytes of a row of engine `g`, or a row of it is on its way to one (07 R227, R228; 09
R287); only the writeback strip's rows are under way. -/
def State.buffersPending (s : State) (u : Nat) (c : Bool) (g : Nat) : Bool :=
  ((s.tile u).rowBuf.any fun e => e.2 != 0 && (s.tile u).rowFrom.look 4 e.1 == g && (s.tile u).bankOwner e.1 == c)
    || (g == 4 && (s.tile u).rowsDue.any fun r => (s.tile u).bankOwner (bankOf r.addr) == c)

/-- What keeps SEND of the acting strip from issuing, as a wait code (09 R287). -/
def State.sendWait (s : State) : Option Nat :=
  let e := s.cur.eng
  let u := s.cur.unit
  let t := s.here
  if s.cycle < s.strip.drained then some 6
  else if e = 2 ∧ (t.wload.busy ∨ t.wload.rest ∨ s.latchPending u 0 ∨ s.latchPending u 1) then some 6
  else if (e = 1 ∨ e = 4) ∧ s.buffersPending u s.bank e then some 5
  else if e = 1 ∧ s.transfersPending u s.bank then some 7
  else none

/-- SEND (09 R287): the strip becomes DONE. -/
def execSend (h : StripHead) (_o : CMForm) (s : State) : Host.Outcome State Fault Refusal :=
  stripOnce h anyPhase (fun s =>
    match s.sendWait with
    | some code => .wait code 0 s
    | none => .done (s.modMyStrip fun t => { t with state := 4 })) s

/-- SMARK (09 R288). -/
def execSmark (h : StripHead) (o : CMForm) (s : State) : Host.Outcome State Fault Refusal :=
  stripOnce h anyPhase (fun s =>
    .done (s.traceEvent s.cur.unit 4 s.cur.eng s.bank (BitVec.ofNat 64 (s.strip.pos.toNat * 2 ^ 24 + o.imm.toNat)))) s

/-- SFLG issues when every earlier instruction of its strip has raised its flags. -/
def flagInstr (h : StripHead) (work : State → State) (s : State) : Host.Outcome State Fault Refusal :=
  stripOnce h anyPhase (fun s => if s.cycle < s.strip.drained then .wait 6 0 s else .done (work s)) s

/-- SFLG.or (13 R384): at the end of the cycle, after every SFLG.clr of it. -/
def execSflgOr (h : StripHead) (o : CMForm) (s : State) : Host.Outcome State Fault Refusal :=
  flagInstr h (fun s => s.modMe fun x => { x with flagsOr := x.flagsOr ||| o.imm.extractLsb' 0 7 }) s

/-- SFLG.get (13 R384): the flags raised before this cycle, and those of the strip's own earlier instructions. -/
def execSflgGet (h : StripHead) (o : CMForm) (s : State) : Host.Outcome State Fault Refusal :=
  flagInstr h (fun s => s.mailboxLater (s.cycle + 1) (o.imm.extractLsb' 0 3).toNat (s.me.flagsSeen.setWidth 64)) s

/-- SFLG.clr (13 R384): at the end of the cycle, after the flags that instructions raise in it. -/
def execSflgClr (h : StripHead) (o : CMForm) (s : State) : Host.Outcome State Fault Refusal :=
  flagInstr h (fun s => s.modMe fun x => { x with flagsClear := x.flagsClear ||| o.imm.extractLsb' 0 7 }) s

/-- The end of a cycle for the flags (03 R94, 13 R384). -/
def Ctx.settleFlags (x : Ctx) : Ctx :=
  if x.flagsClear = 0 ∧ x.flagsOr = 0 ∧ x.flagsCommit = 0 then x
  else { x with fpend := (x.fpend &&& ~~~x.flagsClear) ||| x.flagsOr, flagsClear := 0, flagsOr := 0, flagsCommit := 0 }

end Sys2Proof.Machine
end

