-- ==== Sys2Proof/Machine/Integer.lean ====
section
/-!
DEFINITION. The integer instructions of the control core (04 R111, R112, R116 to R119).
-/
namespace Sys2Proof.Machine

/-- A register shifted right arithmetically (04 R116 SRA). -/
def shiftRightSigned (a : Word) (n : Nat) : Word := BitVec.sshiftRight a n

/-- The number of one bits of the low `n` bits. -/
def countOnes (v : Nat) : Nat → Nat
  | 0 => 0
  | n + 1 => v / 2 ^ n % 2 + countOnes v n

/-- The shift amount nB[5:0]. -/
def amount (b : Word) : Nat := b.toNat % 64

/-- ADD (04 R116). -/
def execAdd (o : CoreForm) (s : State) : Host.Outcome State Fault Refusal := binary o (fun a b => a + b) s

/-- SUB (04 R116). -/
def execSub (o : CoreForm) (s : State) : Host.Outcome State Fault Refusal := binary o (fun a b => a - b) s

/-- A multiplication, 3 cy (04 R100, R116). -/
def multiply (o : CoreForm) (f : Word → Word → Word) (s : State) : Host.Outcome State Fault Refusal :=
  coreInstr o (usesAB o 3) (fun _ m vs => m.resultLater 3 o.d.toNat (f (nth vs 0) (nth vs 1))) s

/-- MUL (04 R116). -/
def execMul (o : CoreForm) (s : State) : Host.Outcome State Fault Refusal := multiply o (fun a b => a * b) s

/-- MULH (04 R116). -/
def execMulh (o : CoreForm) (s : State) : Host.Outcome State Fault Refusal :=
  multiply o (fun a b => BitVec.ofInt 64 (a.toInt * b.toInt / 2 ^ 64)) s

/-- MULHN (04 R116). -/
def execMulhn (o : CoreForm) (s : State) : Host.Outcome State Fault Refusal :=
  multiply o (fun a b => BitVec.ofNat 64 (a.toNat * b.toNat / 2 ^ 64)) s

/-- Dividend or divisor as the digit steps use it: its magnitude for the signed forms (04 R111). -/
def magnitude (signed : Bool) (a : Word) : Nat := if signed then a.toInt.natAbs else a.toNat

/-- The quotient rounded toward zero (04 R116). -/
def quotient (signed : Bool) (a b : Word) : Word :=
  if signed then BitVec.ofInt 64 (a.toInt.tdiv b.toInt) else BitVec.ofNat 64 (a.toNat / b.toNat)

/-- The remainder (04 R116). -/
def remainder (signed : Bool) (a b : Word) : Word :=
  if signed then BitVec.ofInt 64 (a.toInt.tmod b.toInt) else BitVec.ofNat 64 (a.toNat % b.toNat)

/-- The partial remainder and quotient of a divide after `k` micro-steps (04 R111, R112). -/
def dividePartial (signed : Bool) (a b : Word) (k : Nat) : Word × Word :=
  let n := magnitude signed a
  let v := magnitude signed b
  if k ≤ 1 then (0, 0)
  else
    let t := n / 2 ^ (64 - 8 * (min k 9 - 1))
    let q := BitVec.ofNat 64 (t / v)
    let r := BitVec.ofNat 64 (t - t / v * v)
    (if 11 ≤ k then remainder signed a b else r, if 10 ≤ k then quotient signed a b else q)

/-- One micro-step that is not the last of a multi-cycle instruction: the partial state, and whether software has changed a
source since micro-step 1 (04 R101, R112). `part` gives the partial state after a number of micro-steps. -/
def microStep (part : Nat → Word × Word) (a b : Word) (s : State) : State :=
  let x := s.me
  let k := x.ust + 1
  let next := part k
  if k = 1 then s.modMe fun x => { x with sources := some (a, b), spoiled := false, partial0 := next.1, partial1 := next.2 }
  else
    let spoiled := x.spoiled || (x.sources.isSome && x.sources != some (a, b)) || (x.partial0, x.partial1) != part x.ust
    s.modMe fun x => { x with
      spoiled := spoiled, partial0 := if spoiled then x.partial0 else next.1, partial1 := if spoiled then x.partial1 else next.2 }

/-- Whether the result of a multi-cycle instruction in its last micro-step is unpredictable (04 R112). -/
def State.spoilt (s : State) (part : Nat → Word × Word) (a b : Word) : Bool :=
  let x := s.me
  x.spoiled || (x.sources.isSome && x.sources != some (a, b)) || (x.partial0, x.partial1) != part x.ust

/-- A divide-group instruction over 12 micro-steps (04 R111, R112, R117). -/
def divide (signed rem : Bool) (o : CoreForm) (s : State) : Host.Outcome State Fault Refusal :=
  coreInstr o { usesAB o with multi := true } (fun s m vs =>
    let a := nth vs 0
    let b := nth vs 1
    let k := s.me.ust + 1
    let zero := b == 0
    let part := dividePartial signed a b
    if k = 1 && zero then
      s.unlessReported s { cause := 0x0B, i0 := a } fun s => .micro (microStep part a b s)
    else if k < 12 then .micro (microStep part a b s)
    else if s.spoilt part a b then .done (m.wroteS o.d.toNat (Config.freeWord s.fresh)).used
    else if zero then m.result o.d.toNat (if rem then a else 0xFFFFFFFFFFFFFFFF)
    else m.result o.d.toNat (if rem then remainder signed a b else quotient signed a b)) s

/-- DIV (04 R116). -/
def execDiv (o : CoreForm) (s : State) : Host.Outcome State Fault Refusal := divide true false o s
/-- DIVN (04 R116). -/
def execDivn (o : CoreForm) (s : State) : Host.Outcome State Fault Refusal := divide false false o s
/-- REM (04 R116). -/
def execRem (o : CoreForm) (s : State) : Host.Outcome State Fault Refusal := divide true true o s
/-- REMN (04 R116). -/
def execRemn (o : CoreForm) (s : State) : Host.Outcome State Fault Refusal := divide false true o s

/-- AND (04 R116). -/
def execAnd (o : CoreForm) (s : State) : Host.Outcome State Fault Refusal := binary o (fun a b => a &&& b) s
/-- OR (04 R116). -/
def execOr (o : CoreForm) (s : State) : Host.Outcome State Fault Refusal := binary o (fun a b => a ||| b) s
/-- XOR (04 R116). -/
def execXor (o : CoreForm) (s : State) : Host.Outcome State Fault Refusal := binary o (fun a b => a ^^^ b) s
/-- ANDN (04 R116). -/
def execAndn (o : CoreForm) (s : State) : Host.Outcome State Fault Refusal := binary o (fun a b => a &&& ~~~b) s
/-- SHL (04 R116). -/
def execShl (o : CoreForm) (s : State) : Host.Outcome State Fault Refusal := binary o (fun a b => a <<< amount b) s
/-- SHR (04 R116). -/
def execShr (o : CoreForm) (s : State) : Host.Outcome State Fault Refusal := binary o (fun a b => a >>> amount b) s
/-- SRA (04 R116). -/
def execSra (o : CoreForm) (s : State) : Host.Outcome State Fault Refusal :=
  binary o (fun a b => shiftRightSigned a (amount b)) s
/-- ROT (04 R116). -/
def execRot (o : CoreForm) (s : State) : Host.Outcome State Fault Refusal := binary o (fun a b => a.rotateLeft (amount b)) s
/-- MIN (04 R116). -/
def execMin (o : CoreForm) (s : State) : Host.Outcome State Fault Refusal :=
  binary o (fun a b => if b.toInt < a.toInt then b else a) s
/-- MAX (04 R116). -/
def execMax (o : CoreForm) (s : State) : Host.Outcome State Fault Refusal :=
  binary o (fun a b => if a.toInt < b.toInt then b else a) s
/-- MINN (04 R116). -/
def execMinn (o : CoreForm) (s : State) : Host.Outcome State Fault Refusal :=
  binary o (fun a b => if b.toNat < a.toNat then b else a) s
/-- MAXN (04 R116). -/
def execMaxn (o : CoreForm) (s : State) : Host.Outcome State Fault Refusal :=
  binary o (fun a b => if a.toNat < b.toNat then b else a) s
/-- CLZ (04 R116). -/
def execClz (o : CoreForm) (s : State) : Host.Outcome State Fault Refusal :=
  unary o (fun a => BitVec.ofNat 64 (64 - bitLength a.toNat)) s
/-- POPC (04 R116). -/
def execPopc (o : CoreForm) (s : State) : Host.Outcome State Fault Refusal :=
  unary o (fun a => BitVec.ofNat 64 (countOnes a.toNat 64)) s

/-- ADDI (04 R118). -/
def execAddi (o : CoreForm) (s : State) : Host.Outcome State Fault Refusal := unary o (fun a => a + simm o) s
/-- ANDI (04 R118). -/
def execAndi (o : CoreForm) (s : State) : Host.Outcome State Fault Refusal := unary o (fun a => a &&& simm o) s
/-- ORI (04 R118). -/
def execOri (o : CoreForm) (s : State) : Host.Outcome State Fault Refusal := unary o (fun a => a ||| o.imm.setWidth 64) s
/-- XORI (04 R118). -/
def execXori (o : CoreForm) (s : State) : Host.Outcome State Fault Refusal := unary o (fun a => a ^^^ o.imm.setWidth 64) s
/-- SHLI (04 R118). -/
def execShli (o : CoreForm) (s : State) : Host.Outcome State Fault Refusal := unary o (fun a => a <<< (o.imm.toNat % 64)) s
/-- SHRI (04 R118). -/
def execShri (o : CoreForm) (s : State) : Host.Outcome State Fault Refusal := unary o (fun a => a >>> (o.imm.toNat % 64)) s
/-- SRAI (04 R118). -/
def execSrai (o : CoreForm) (s : State) : Host.Outcome State Fault Refusal :=
  unary o (fun a => shiftRightSigned a (o.imm.toNat % 64)) s

/-- An instruction with a result and no source. -/
def writesD (o : CoreForm) : CoreSpec := { writes := [.sreg o.d.toNat] }

/-- LUI (04 R118). -/
def execLui (o : CoreForm) (s : State) : Host.Outcome State Fault Refusal :=
  coreInstr o (writesD o) (fun _ m _ => m.result o.d.toNat (simm o <<< 24)) s

/-- LI (04 R119): imm[23:0] from slot k, imm[63:24] from the extension slot. -/
def execLi (o : CoreForm) (ext : BitVec 40) (s : State) : Host.Outcome State Fault Refusal :=
  coreInstr o (writesD o) (fun _ m _ => m.result o.d.toNat (ext ++ o.imm)) s

end Sys2Proof.Machine
end

