-- ==== Sys2Proof/Machine/Float.lean ====
section
/-!
DEFINITION. The scalar floating-point instructions (04 R111, R112, R122, R123).
-/
namespace Sys2Proof.Machine

/-- Two operands of a list. -/
def two (f : Val → Val → Val) : List Val → Val
  | a :: b :: _ => f a b
  | _ => .made

/-- Three operands of a list. -/
def three (f : Val → Val → Val → Val) : List Val → Val
  | a :: b :: c :: _ => f a b c
  | _ => .made

/-- FADD (04 R122). -/
def execFadd (o : CoreForm) (s : State) : Host.Outcome State Fault Refusal := floatOp o (usesAB o) 4 (two Val.add) s
/-- FSUB (04 R122). -/
def execFsub (o : CoreForm) (s : State) : Host.Outcome State Fault Refusal := floatOp o (usesAB o) 4 (two Val.sub) s
/-- FMUL (04 R122). -/
def execFmul (o : CoreForm) (s : State) : Host.Outcome State Fault Refusal := floatOp o (usesAB o) 4 (two Val.mul) s

/-- The registers of FMA and FMS: X is the third source, LX its last use (04 R122). -/
def usesABX (o : CoreForm) : CoreSpec :=
  { usesAB o with reads := [(o.a.toNat, o.la), (o.b.toNat, o.lb), (o.x.toNat, o.imm.getLsbD 5)] }

/-- FMA (04 R122). -/
def execFma (o : CoreForm) (s : State) : Host.Outcome State Fault Refusal :=
  floatOp o (usesABX o) 4 (three fun a b c => (a.mul b).add c) s
/-- FMS (04 R122). -/
def execFms (o : CoreForm) (s : State) : Host.Outcome State Fault Refusal :=
  floatOp o (usesABX o) 4 (three fun a b c => (a.mul b).sub c) s

/-- A significand shifted up until bit p - 1 is set, with its exponent (04 R112). -/
def normalised (f : Fmt) (n : Nat) (e : Int) : Nat × Int :=
  let k := f.m + 1 - bitLength n
  (n * 2 ^ k, e - k)

/-- Digit steps done after `k` micro-steps, of at most `steps` (04 R111). -/
def digitSteps (steps k : Nat) : Nat := min (k - 1) steps

/-- The partial state of FDIV after `k` micro-steps (04 R112). -/
def fdivPartial (f : Fmt) (a b : Nat) (k : Nat) : Word × Word :=
  match f.value a, f.value b with
  | .num _ n e _, .num _ n' e' _ =>
    if n = 0 || n' = 0 || k = 0 then (0, 0)
    else
      let (p, _) := normalised f n e
      let (d, _) := normalised f n' e'
      let p := if p < d then 2 * p else p
      let t := p * 2 ^ (4 * digitSteps (if f = fp64 then 15 else 7) k)
      (BitVec.ofNat 64 (t - t / d * d), BitVec.ofNat 64 (t / d))
  | _, _ => (0, 0)

/-- The partial state of FSQRT after `k` micro-steps (04 R112). -/
def fsqrtPartial (f : Fmt) (a : Nat) (k : Nat) : Word × Word :=
  match f.value a with
  | .num neg n e _ =>
    if n = 0 || neg || k = 0 then (0, 0)
    else
      let (r, e) := normalised f n e
      let r := if (e + f.m) % 2 = 0 then r else 2 * r
      let b := 3 * digitSteps (if f = fp64 then 19 else 9) k
      -- q = floor (sqrt (r / 2^m) * 2^b)
      let q := rootOf (r * 2 ^ (2 * b) / 2 ^ f.m)
      (BitVec.ofNat 64 ((r * 2 ^ (2 * b) - q * q * 2 ^ f.m) * 2 ^ (60 - b) / 2 ^ f.m), BitVec.ofNat 64 q)
  | _ => (0, 0)

/-- A multi-cycle floating-point instruction of `last` micro-steps with exact value `v` and divide-by-zero `dz`: traps in
micro-step 1, the result in the last (04 R101, R102, R112). -/
def multiFloat (o : CoreForm) (last : Nat) (part : Nat → Word × Word) (a b : Word) (v : Val) (dz : Bool) (s m : State) :
    CoreRes :=
  match s.me.roundMode o with
  | none =>
    -- only micro-step 1 traps
    if s.me.ust = 0 then s.badOperand
    else if s.me.ust + 1 < last then .micro (microStep part a b s)
    else .done (m.wroteS o.d.toNat (Config.freeWord s.fresh)).used
  | some mode =>
    let k := s.me.ust + 1
    let fmt := fmtOf o
    let r := fmt.round mode (stepGen mode s.me.gen) v
    if k = 1 && s.me.nanTraps r then s.unlessReported s s.nanTrap fun s => .micro (microStep part a b s)
    else if k < last then .micro (microStep part a b s)
    else if s.spoilt part a b then
      .done ((((m.wroteS o.d.toNat (Config.freeWord s.fresh)).modMe fun x => x.raise
        ((Config.freeWord (s.fresh + 1)).extractLsb' 0 7)).used).used)
    else
      let fl := r.flags ||| (if dz then fDivZero else 0)
      let m := m.modMe fun x => ((x.stepCore mode).raise fl).saturated r.sat
      m.result o.d.toNat (BitVec.ofNat 64 r.bits)

/-- FDIV (04 R111, R122): 10 or 20 micro-steps. -/
def execFdiv (o : CoreForm) (s : State) : Host.Outcome State Fault Refusal :=
  coreInstr o { usesAB o with multi := true } (fun s m vs =>
    let f := fmtOf o
    let a := f.operand (nth vs 0)
    let b := f.operand (nth vs 1)
    let (v, dz) := (f.value a).div (f.value b)
    multiFloat o (if f = fp64 then 20 else 10) (fdivPartial f a b) (nth vs 0) (nth vs 1) v dz s m) s

/-- FSQRT (04 R111, R122): 12 or 24 micro-steps. -/
def execFsqrt (o : CoreForm) (s : State) : Host.Outcome State Fault Refusal :=
  coreInstr o { usesA o with multi := true } (fun s m vs =>
    let f := fmtOf o
    let a := f.operand (nth vs 0)
    multiFloat o (if f = fp64 then 24 else 12) (fsqrtPartial f a) (nth vs 0) 0 (f.value a).sqrt false s m) s

/-- A 2-cy instruction without rounding or flag. -/
def floatMove (o : CoreForm) (p : CoreSpec) (f : Fmt → Nat → Nat → Nat) (s : State) : Host.Outcome State Fault Refusal :=
  coreInstr o { p with lat := 2 } (fun _ m vs =>
    let fmt := fmtOf o
    m.resultLater 2 o.d.toNat (BitVec.ofNat 64 (f fmt (fmt.operand (nth vs 0)) (fmt.operand (nth vs 1))))) s

/-- FMIN (04 R122). -/
def execFmin (o : CoreForm) (s : State) : Host.Outcome State Fault Refusal := floatMove o (usesAB o) (·.pick false) s
/-- FMAX (04 R122). -/
def execFmax (o : CoreForm) (s : State) : Host.Outcome State Fault Refusal := floatMove o (usesAB o) (·.pick true) s

/-- FSGN (04 R122): the sign of B, its inverse, or the exclusive OR. -/
def execFsgn (o : CoreForm) (s : State) : Host.Outcome State Fault Refusal :=
  floatMove o (usesAB o) (fun f a b =>
    let sign := match o.x.toNat with
      | 0 => f.sign b
      | 1 => !f.sign b
      | _ => f.sign a != f.sign b
    f.pack sign (f.mag a)) s

/-- FCLASS (04 R122). -/
def execFclass (o : CoreForm) (s : State) : Host.Outcome State Fault Refusal :=
  floatMove o (usesA o) (fun f a _ => 2 ^ f.classBit a) s

/-- The conversions of 04 R123: code, source register, mode, generator, strict mode. -/
def fcvt (code : Nat) (a : Word) (mode : Nat) (g : BitVec 32) (strict : Bool) : Res :=
  let n := a.toNat
  let w := n % 2 ^ 32
  match code with
  | 0 => convert fp64 fp32 mode g strict n
  | 1 => convert fp32 fp64 mode g strict w
  | 2 => fp32.round mode g (Val.ofInt a.toInt)
  | 3 => fp64.round mode g (Val.ofInt a.toInt)
  | 4 => fp32.round mode g (Val.ofInt n)
  | 5 => fp64.round mode g (Val.ofInt n)
  | 6 => toInteger true 64 mode g (fp32.value w)
  | 7 => toInteger true 64 mode g (fp64.value n)
  | 8 => toInteger false 64 mode g (fp32.value w)
  | 9 => toInteger false 64 mode g (fp64.value n)
  | 10 => toInteger true 32 mode g (fp32.value w)
  | 11 => toInteger false 32 mode g (fp32.value w)
  | 12 => convert bf16 fp32 mode g strict (n % 2 ^ 16)
  | 13 => convert fp32 bf16 mode g strict w
  | 14 => convert fp16 fp32 mode g strict (n % 2 ^ 16)
  | 15 => convert fp32 fp16 mode g strict w
  | 16 => convert e4m3 fp32 mode g strict (n % 2 ^ 8)
  | 17 => convert fp32 e4m3 mode g strict w
  | 18 => convert e5m2 fp32 mode g strict (n % 2 ^ 8)
  | _ => convert fp32 e5m2 mode g strict w

/-- FCVT (04 R123), 2 cy; i32 results are sign-extended. -/
def execFcvt (o : CoreForm) (s : State) : Host.Outcome State Fault Refusal :=
  coreInstr o (usesA o 2) (fun s m vs =>
    match s.me.roundMode o with
    | none => s.badOperand
    | some mode =>
      let r := fcvt o.x.toNat (nth vs 0) mode (stepGen mode s.me.gen) (s.me.mode.getLsbD 1)
      roundedResult o 2 mode s m r (if o.x = 10 then sext r.bits 32 else BitVec.ofNat 64 r.bits)) s

end Sys2Proof.Machine
end

