-- ==== Sys2Proof/Machine/Scan.lean ====
section
/-!
DEFINITION. The scans of the matrix strip: MSCAN, MSCANC and MSCANR in their chunked and recurrent forms (06 R190 to R198).
-/
namespace Sys2Proof.Machine

/-! ### The roundings of a scan -/

/-- RNE32 of an exact value. -/
def rne32 (v : Val) : Res := fp32.round 0 0 v

/-- BF16 of an FP32 result, its flags joined to those of what it rounds. -/
def toBf16 (r : Res) : Res :=
  let b := convert fp32 bf16 0 0 false r.bits
  { b with flags := r.flags ||| b.flags }

/-- EXP of an FP32 result, with the flags of both. -/
def expOf (r : Res) : Res :=
  let e := Func.exp.apply r.bits
  { e with flags := r.flags ||| e.flags }

/-- The exact value of an FP32 encoding. -/
def f32 (b : Nat) : Val := fp32.value b

/-- The matrix rule of R90 over terms in ascending order: K-steps of 24, the last one padded with +0; the first leaves out
the accumulator where none is given (06 R194). -/
def matrixSum (acc : Option Nat) (terms : List Val) : Res :=
  let r := (List.range ((terms.length + 23) / 24)).foldl (fun (a : Option Nat × BitVec 7) i =>
    let t := (terms.drop (24 * i)).take 24
    let t := if t.length < 24 then t ++ [.num false 0 0 false] else t
    let v := match a.1 with
      | none => sumOf t
      | some b => (sumOf t).add (f32 b)
    let r := rne32 v
    (some r.bits, a.2 ||| r.flags)) (acc, 0)
  { bits := r.1.getD 0, flags := r.2 }

/-- +0 without a flag. -/
def plusZero : Res := { bits := 0 }

/-! ### The inputs of a block -/

/-- Δ of head `h` at step `j` + 1 of a block. -/
def Scan.deltaAt (b : Scan) (h j : Nat) : Nat := (lane b.delta (64 * h + j)).toNat

/-- x of lane `l` at step `j` + 1. -/
def Scan.xAt (b : Scan) (j l : Nat) : Nat := (lane ((b.xs[j]?).getD 0) l).toNat

/-- B[n] of step `j` + 1, BF16. -/
def Scan.bAt (b : Scan) (j n : Nat) : Nat := bits ((b.bcs[j]?).getD 0).toNat (16 * n) 16

/-- C[n] of step `j` + 1, BF16. -/
def Scan.cAt (b : Scan) (j n : Nat) : Nat := bits ((b.bcs[j]?).getD 0).toNat (1024 + 16 * n) 16

/-- A and D of head `h` as the block read them. -/
def Scan.aOf (b : Scan) (h : Nat) : Nat := (b.a.look 0 h).toNat
/-- See `Scan.aOf`. -/
def Scan.dOf (b : Scan) (h : Nat) : Nat := (b.d.look 0 h).toNat

/-- Element `n` of lane `l` of a table of state rows. -/
def stateAt (hs : Tab Row) (n l : Nat) : Nat := (lane (hs.look 0 n) l).toNat

/-! ### One output micro-step -/

/-- An element of the state: its value before, its new value, whether an input is a NaN. -/
abbrev Cell := Nat × Res × Bool

/-- What an output micro-step writes: state rows if it writes any, the y row, flags, counts, and its first produced NaN as
step, lane and element. -/
structure ScanOut where
  hs : Option (List (List Nat)) := none
  y : List Nat := []
  flags : BitVec 7 := 0
  nan : Nat := 0
  inf : Nat := 0
  first : Option (Nat × Nat) := none

/-- Lanes as a row. -/
def rowOfLanes (vs : List Nat) : Row := BitVec.ofNat 6144 (vs.foldr (fun v acc => v % 2 ^ 32 + acc * 2 ^ 32) 0)

/-- Elements written as a NaN over something else, and as an infinity over something finite; a y has no earlier value. -/
def countNew (pairs : List (Option Nat × Nat)) : Nat × Nat :=
  pairs.foldl (fun (n : Nat × Nat) p =>
    (n.1 + (if fp32.isNan p.2 && !(p.1.any fp32.isNan) then 1 else 0),
     n.2 + (if fp32.isInf p.2 && (p.1.all isFinite) then 1 else 0))) (0, 0)

/-- An output micro-step from its elements. `hs` holds for each lane its 64 results with the value before and whether an
input was a NaN; `ys` the y of each lane and whether an input was a NaN. -/
def ScanOut.make (hs : Option (List (List Cell))) (ys : List (Res × Bool)) (more : BitVec 7) : ScanOut :=
  let cells := (hs.getD []).flatMap id
  let (n1, i1) := countNew (cells.map fun c => (some c.1, c.2.1.bits))
  let (n2, i2) := countNew (ys.map fun y => (none, y.1.bits))
  let badH := ((hs.getD []).zip (List.range lanes)).findSome? fun e =>
    ((e.1.zip (List.range 64)).find? fun c => fp32.isNan c.1.2.1.bits && !c.1.2.2).map fun c => (e.2, c.2)
  let badY := ((ys.zip (List.range lanes)).find? fun e => fp32.isNan e.1.1.bits && !e.1.2).map fun e => (e.2, 0xFFFF)
  { hs := hs.map fun ls => ls.map fun l => l.map fun c => c.2.1.bits
    y := ys.map (·.1.bits)
    flags := ys.foldl (fun f y => f ||| y.1.flags) (cells.foldl (fun f c => f ||| c.2.1.flags) more)
    nan := n1 + n2, inf := i1 + i2
    first := badH.orElse fun _ => badY }

/-! ### The recurrent form (06 R193) -/

/-- Lane `l` of step `j` + 1: the state elements, y, whether an input of y is a NaN, the other flags. -/
def Scan.recurrentLane (b : Scan) (prev : Tab Row) (j l : Nat) : List Cell × Res × Bool × BitVec 7 :=
  let h := l / 64
  let delta := b.deltaAt h j
  let a := b.aOf h
  let x := b.xAt j l
  let ea := expOf (rne32 ((f32 delta).mul (f32 a)))
  let u := rne32 ((f32 delta).mul (f32 x))
  let shared := fp32.isNan delta || fp32.isNan a || fp32.isNan x
  let cells : List Cell := (List.range 64).map fun n =>
    let old := stateAt prev n l
    let bn := b.bAt j n
    (old, rne32 (((f32 ea.bits).mul (f32 old)).add ((f32 u.bits).mul (bf16.value bn))),
      shared || bf16.isNan bn || fp32.isNan old)
  let sum := sumOf ((cells.zip (List.range 64)).map fun e => (bf16.value (b.cAt j e.2)).mul (f32 e.1.2.1.bits))
  let nan := cells.any (·.2.2) || ((List.range 64).any fun n => bf16.isNan (b.cAt j n)) || fp32.isNan (b.dOf h)
  (cells, rne32 (sum.add ((f32 (b.dOf h)).mul (f32 x))), nan, u.flags ||| ea.flags)

/-- Step `j` + 1 of a recurrent block from the state `prev`. -/
def Scan.recurrent (b : Scan) (prev : Tab Row) (j : Nat) : ScanOut :=
  let per := (List.range lanes).map (b.recurrentLane prev j)
  ScanOut.make (some (per.map (·.1))) (per.map fun p => (p.2.1, p.2.2.1)) (per.foldl (fun f p => f ||| p.2.2.2) 0)

/-! ### The chunked form (06 R194) -/

/-- s[0] to s[t] of head `h`, each with the flags of its two roundings. -/
def Scan.sums (b : Scan) (h t : Nat) : List Res :=
  (List.range t).foldl (fun (acc : List Res) j =>
    let last := (acc.getLast?).getD plusZero
    let p := rne32 ((f32 (b.deltaAt h j)).mul (f32 (b.aOf h)))
    let r := rne32 ((f32 last.bits).add (f32 p.bits))
    acc ++ [{ r with flags := r.flags ||| p.flags }]) [plusZero]

/-- u[j + 1] of lane `l`. -/
def Scan.uAt (b : Scan) (j l : Nat) : Res := rne32 ((f32 (b.deltaAt (l / 64) j)).mul (f32 (b.xAt j l)))

/-- EXP(RNE32(s[t] − s[j])), without the flags of the sums. -/
def decay (s : List Res) (t j : Nat) : Res :=
  let bitsOf := fun (i : Nat) => ((s[i]?).getD plusZero).bits
  expOf (rne32 ((f32 (bitsOf t)).sub (f32 (bitsOf j))))

/-- G[t, j] for j = 1 to t. -/
def Scan.gRow (b : Scan) (t : Nat) : List Res :=
  (List.range t).map fun j => matrixSum none ((List.range 64).map fun n =>
    (bf16.value (b.cAt (t - 1) n)).mul (bf16.value (b.bAt j n)))

/-- Head `h` at step `t`: EXP(s[t]), the values W[t, j], the flags that step `t` is the first to set. -/
def Scan.headY (b : Scan) (g : List Res) (h t : Nat) : Res × List Val × BitVec 7 :=
  let s := b.sums h t
  let et := expOf ((s[t]?).getD plusZero)
  let w : List Res := (g.zip (List.range t)).map fun e =>
    let d := decay s t (e.2 + 1)
    let r := toBf16 (rne32 ((f32 d.bits).mul (f32 e.1.bits)))
    { r with flags := r.flags ||| d.flags }
  (et, w.map fun r => bf16.value r.bits, w.foldl (fun f r => f ||| r.flags) et.flags)

/-- Lane `l` at step `t`: y, with every flag it is the first to set. -/
def Scan.laneY (b : Scan) (head : Res × List Val × BitVec 7) (t l : Nat) : Res :=
  let (et, w, hf) := head
  let carried : List Res := (List.range 64).map fun n => toBf16 (rne32 ((f32 et.bits).mul (f32 (stateAt b.prev n l))))
  let inter := matrixSum none ((carried.zip (List.range 64)).map fun e =>
    (bf16.value (b.cAt (t - 1) e.2)).mul (bf16.value e.1.bits))
  let ub : List Res := (List.range t).map fun j => toBf16 (b.uAt j l)
  let terms := ((w.zip ub).map fun e => e.1.mul (bf16.value e.2.bits)) ++ List.replicate (b.len - t) (.num false 0 0 false)
  let y := matrixSum (some inter.bits) terms
  let r := rne32 ((f32 y.bits).add ((f32 (b.dOf (l / 64))).mul (f32 (b.xAt (t - 1) l))))
  let fl := carried.foldl (fun f c => f ||| c.flags) (inter.flags ||| y.flags ||| hf ||| (ub.getLast?.getD plusZero).flags)
  { r with flags := r.flags ||| fl }

/-- An input of y of lane `l` at step `t` is a NaN; `bc` says so of B and C. -/
def Scan.nanInY (b : Scan) (bc : Bool) (t l : Nat) : Bool :=
  let h := l / 64
  bc || fp32.isNan (b.aOf h) || fp32.isNan (b.dOf h)
    || ((List.range t).any fun j => fp32.isNan (b.deltaAt h j) || fp32.isNan (b.xAt j l))
    || ((List.range 64).any fun n => fp32.isNan (stateAt b.prev n l))

/-- y of step `t`, from 1, of a chunked block, and the flags of G[t, j]. -/
def Scan.chunkY (b : Scan) (t : Nat) : List (Res × Bool) × BitVec 7 :=
  let g := b.gRow t
  let heads := (List.range 3).map fun h => b.headY g h t
  let bc := (List.range 64).any fun n => bf16.isNan (b.cAt (t - 1) n) || (List.range t).any fun j => bf16.isNan (b.bAt j n)
  ((List.range lanes).map fun l => (b.laneY ((heads[l / 64]?).getD (plusZero, [], 0)) t l, b.nanInY bc t l),
    g.foldl (fun f r => f ||| r.flags) 0)

/-- Lane `l` of the state that a chunked block leaves, and the other flags it sets. -/
def Scan.laneState (b : Scan) (sums : List Res) (columns : List (List Val × Bool)) (l : Nat) : List Cell × BitVec 7 :=
  let h := l / 64
  let el := Func.exp.apply ((sums[b.len]?).getD plusZero).bits
  let k : List Res := (List.range b.len).map fun j =>
    let d := decay sums b.len (j + 1)
    let r := toBf16 (rne32 ((f32 d.bits).mul (f32 (b.uAt j l).bits)))
    { r with flags := r.flags ||| d.flags }
  let kv := k.map fun r => bf16.value r.bits
  let nan := fp32.isNan (b.aOf h) || ((List.range b.len).any fun j => fp32.isNan (b.deltaAt h j) || fp32.isNan (b.xAt j l))
  let cells : List Cell := (columns.zip (List.range 64)).map fun e =>
    let old := stateAt b.prev e.2 l
    let s := matrixSum none ((kv.zip e.1.1).map fun t => t.1.mul t.2)
    let r := rne32 (((f32 el.bits).mul (f32 old)).add (f32 s.bits))
    (old, { r with flags := r.flags ||| s.flags }, nan || e.1.2 || fp32.isNan old)
  (cells, k.foldl (fun f r => f ||| r.flags) el.flags)

/-- The state that a chunked block leaves. -/
def Scan.chunkState (b : Scan) : List (List Cell) × BitVec 7 :=
  let sums := (List.range 3).map fun h => b.sums h b.len
  let columns := (List.range 64).map fun n =>
    ((List.range b.len).map fun j => bf16.value (b.bAt j n), (List.range b.len).any fun j => bf16.isNan (b.bAt j n))
  let per := (List.range lanes).map fun l => b.laneState ((sums[l / 64]?).getD []) columns l
  (per.map (·.1), per.foldl (fun f p => f ||| p.2) 0)

/-- The output micro-step of step `t` of a chunked block: y, and with the last step the state. -/
def Scan.chunked_ (b : Scan) (t : Nat) : ScanOut :=
  let (ys, f) := b.chunkY t
  if t = b.len then
    let (hs, f') := b.chunkState
    ScanOut.make (some hs) ys (f ||| f')
  else ScanOut.make none ys f

/-! ### Micro-steps (06 R192, R196) -/

/-- Steps of the instruction. -/
def scanSteps (o : MXForm) : Nat := o.cnt.toNat + 1

/-- The block in progress, or the one that begins with the next micro-step: `form` 0 chooses by CHMIN, 1 is chunked, 2 is
recurrent. -/
def State.scanBlock (s : State) (form : Nat) (o : MXForm) : Scan :=
  match s.here.scan with
  | some b => if b.len = 0 then fresh b.base else b
  | none => fresh 0
where
  fresh (base : Nat) : Scan :=
    let len := min 64 (scanSteps o - base)
    let chunked := match form with
      | 0 => len == 64 || decide (s.me.chmin.toNat ≤ len)
      | 1 => true
      | _ => false
    { base := base, start := s.strip.ust, len := len, chunked := chunked, a := s.me.mcA, d := s.me.mcD, prev := s.here.hs }

/-- Micro-steps of a block. -/
def Scan.length (b : Scan) : Nat := if b.chunked then 84 + 4 * b.len else 64 * b.len

/-- Micro-steps of the instruction, as far as the present block tells: more than the next if this block is not the last. -/
def State.scanLast (s : State) (form : Nat) (o : MXForm) : Nat :=
  let b := s.scanBlock form o
  b.start + b.length + (if b.base + b.len < scanSteps o then 1 else 0)

/-- The Δ entry is popped: its lanes of the block's steps must be sound. -/
def State.popDelta (s : State) (b : Scan) : Except (Trap ⊕ Nat) (State × Scan) :=
  if !s.entryReady 2 then .error (.inr 2)
  else
    let (e, m) := s.popFifo 2
    let bad := (List.range 96).find? fun i => e.bad.getLsbD i && decide (2 * i % 64 < b.len)
    match bad with
    | some i => .error (.inl (matrixError (0x2A1000 + 8 * i) 0 (2 * i)))
    | none => .ok (m, { b with delta := e.row })

/-- The B/C and x entries of a step are popped. -/
def State.popStep (s : State) (b : Scan) : Except (Trap ⊕ Nat) (State × Scan) :=
  if !s.entryReady 0 then .error (.inr 0)
  else if !s.entryReady 2 then .error (.inr 2)
  else
    let (bc, m) := s.popFifo 0
    let (x, m) := m.popFifo 2
    match bc.badWord 0 32, x.badWord 0 96 with
    | some (off, l), _ => .error (.inl (matrixError off 0 l))
    | none, some (off, l) => .error (.inl (matrixError off 0 l))
    | none, none => .ok (m, { b with bcs := b.bcs ++ [bc.row], xs := b.xs ++ [x.row] })

/-- The first poisoned word of the state bank. -/
def State.badState (s : State) : Option Trap :=
  if s.poison.isEmpty then none
  else (List.range 64).findSome? fun n => (s.badRow (stateOffset n)).map fun b => matrixError b.1 n b.2

/-- The state bank is read, its errors corrected. -/
def State.scrubStates (s : State) : State :=
  if s.flips.isEmpty then s else (List.range 64).foldl (fun s n => s.scrubRow (stateOffset n)) s

/-- The block after its micro-step `q`, done with it. -/
def State.scanOn (s : State) (o : MXForm) (b : Scan) (q : Nat) : StripRes :=
  if q < b.length then .micro (s.modHere fun t => { t with scan := some b }) 1
  else
    let next := b.base + b.len
    if next < scanSteps o then .micro (s.modHere fun t => { t with scan := some { base := next } }) 1
    else .done (s.modHere fun t => { t with scan := none })

/-- An output micro-step: state rows, y entry, flags and counts, or the first-NaN trap (06 R197). -/
def State.scanWrites (s : State) (o : MXForm) (b : Scan) (q step : Nat) (out : ScanOut) : StripRes :=
  let f := destFifo o
  if !(s.fifo s.cur.unit f).hasRoom s.cycle then .wait 4 f s
  else
    let nan := if s.me.mode.getLsbD 2 then out.first else none
    s.orReport (nan.map fun e => s.matrixNan ((b.base + step) * 65536 + e.1) e.2) fun s =>
      let s := match out.hs with
        | none => s
        | some ls => (List.range 64).foldl (fun s n =>
            (s.cleanRow s.cur.unit (stateOffset n)).modHere fun t =>
              { t with hs := t.hs.put n (rowOfLanes (ls.map fun l => (l[n]?).getD 0)) }) s
      let s := s.owes 0 out.flags out.nan out.inf 0
      let s := (s.pushFifo f (rowOfLanes out.y) 0 (s.cycle + 1)).drainsAt (s.cycle + 1)
      s.scanOn o b q

/-- A micro-step that pops. -/
def State.scanPops (s : State) (o : MXForm) (q : Nat) (r : Except (Trap ⊕ Nat) (State × Scan)) : StripRes :=
  match r with
  | .error (.inr f) => .wait 3 f s
  | .error (.inl t) => .trap s t none
  | .ok (m, b) => m.scanOn o b q

/-- Micro-step UST + 1 of a scan. -/
def scanStep (form : Nat) (o : MXForm) (s : State) : StripRes :=
  let b := s.scanBlock form o
  let q := s.strip.ust + 1 - b.start
  let pops := if b.chunked then decide (q ≤ 1 + b.len) else (q - 1) % 64 == 0 || q == 2
  let s := if q = 1 then s.checkFifo 2 else if pops then (s.checkFifo 0).checkFifo 2 else s
  if b.chunked then
    if q = 1 then
      let s := s.scrubStates
      match s.badState with
      | some t => .trap s t none
      | none => s.scanPops o q (s.popDelta { b with prev := s.here.hs })
    else if q ≤ 1 + b.len then s.scanPops o q (s.popStep b)
    else if 84 < q ∧ (q - 84) % 4 = 0 then
      let t := (q - 84) / 4
      s.scanWrites o b q t (b.chunked_ t)
    else s.scanOn o b q
  else
    let step := (q - 1) / 64
    let r := (q - 1) % 64 + 1
    if r = 1 then s.scanPops o q (if step = 0 then s.popDelta b else s.popStep b)
    else if r = 2 ∧ step = 0 then s.scanPops o q (s.popStep b)
    else if r = 64 then
      let s := s.scrubStates
      match s.badState with
      | some t => .trap s t none
      | none => s.scanWrites o b q (step + 1) (b.recurrent s.here.hs step)
    else s.scanOn o b q

/-- A scan of the given form (06 R192). -/
def scan (form : Nat) (h : StripHead) (o : MXForm) (s : State) : Host.Outcome State Fault Refusal :=
  stripMany h inCompute (fun s => s.scanLast form o) (scanStep form o) s

/-- MSCAN (06 R192). -/
def execMscan (h : StripHead) (o : MXForm) (s : State) : Host.Outcome State Fault Refusal := scan 0 h o s
/-- MSCANC (06 R192). -/
def execMscanc (h : StripHead) (o : MXForm) (s : State) : Host.Outcome State Fault Refusal := scan 1 h o s
/-- MSCANR (06 R192). -/
def execMscanr (h : StripHead) (o : MXForm) (s : State) : Host.Outcome State Fault Refusal := scan 2 h o s

end Sys2Proof.Machine
end

