-- ==== Sys2Proof/Machine/Micro.lean ====
section
/-!
DEFINITION. What an engine checks before it issues from a line (02 R43, R45, R46, R63 to R65), the micro-steps of
multi-cycle instructions, and the small events of a tile: a pipelined result lands, a row buffer drains, a corrected word
is written back, a pending trap is delivered (02 R55, 04 R100, 07 R206, R219, 14 R393).
-/
namespace Sys2Proof.Machine

/-! ### The checks of an issue (02 R45, R46, R63 to R65) -/

/-- The 64-bit words of a line that hold its link word and the issuing slot `k`, with its extension slot if `two`; of a slot
above NVS, which does not issue, the link word alone (02 R41, R42, R65). -/
def issueWords (nvs k : Nat) (two : Bool) : List Nat :=
  if nvs < k then [0] else
  let two := two && decide (k < nvs)
  let first := (32 + 60 * k) / 64
  let last := (32 + 60 * k + (if two then 119 else 59)) / 64
  (0 :: (List.range (last + 1 - first)).map (first + ·)).eraseDups.filter fun w => decide (w < 8)

/-- The code-absent trap of a line (02 R43). -/
def absentTrap (line : Nat) : Trap := { cause := 0x05, i0 := BitVec.ofNat 64 line }

/-- The run past the end of a chain (02 R45). -/
def chainEnd : Trap := { cause := 0x01, i0 := 2 }

/-- The instruction that the acting engine issues from position `p`, whose slot was fetched as `slot` with the link word
`link`, or the trap that it raises instead (02 R64, R65). The data error of R65 comes after the line's presence and before every
other check (log entry 7). -/
def State.issueChecks (s : State) (p : Pos) (slot : Option (Slot × Option Slot)) (link : BitVec 32) : State × (Trap ⊕ Instr) :=
  let u := s.cur.unit
  let e := s.cur.eng
  let line := posLine p
  match (if s.linePresent u s.bank line then slot else none) with
  | none => (s, .inl (absentTrap line))
  | some (w, nxt) =>
    let pa := windowPA u (lineOffset line)
    let words := (issueWords (linkNvs link) (posSlot p) (isTwoSlot e w)).map fun i => pa + 8 * i
    let s := if s.flips.isEmpty then s else words.foldl (fun s a => s.checkWord (agentOf u s.bank) a) s
    match (if s.poison.isEmpty then none else words.find? s.poisoned) with
    | some a => (s, .inl (dataError e (a % 2 ^ 22)))
    | none =>
      if linkEng link ≠ e then (s, .inl { cause := 0x01, i0 := 1, i1 := link.setWidth 64 })
      else if link.extractLsb' 0 5 ≠ 0 then (s, .inl { cause := 0x02, i0 := 6, i1 := link.setWidth 64 })
      else if linkNvs link < posSlot p then (s, .inl { cause := 0x01, i0 := 3, i1 := w.setWidth 64 })
      else match decodeSlot (isSteward u) e w nxt with
        | .instr i => (s, .inr i)
        | .bad f => (s, .inl { cause := f.cause, i0 := BitVec.ofNat 64 f.info0, i1 := w.setWidth 64 })

/-! ### Micro-steps (02 R55, 04 R101) -/

/-- The meaning of a multi-cycle instruction. -/
def multiCycle : Instr → Option (State → Host.Outcome State Fault Refusal)
  | .div o => some (execDiv o)
  | .divn o => some (execDivn o)
  | .rem o => some (execRem o)
  | .remn o => some (execRemn o)
  | .fdiv o => some (execFdiv o)
  | .fsqrt o => some (execFsqrt o)
  | .srun h o => some (execSrun h o)
  | .ald h o => some (execAld h o)
  | .aldm h o => some (execAldm h o)
  | .agath h o => some (execAgath h o)
  | .acopy h o => some (execAcopy h o)
  | .xput h o => some (execXput h o)
  | .xget h o => some (execXget h o)
  | .xcir h o => some (execXcir h o)
  | .xdisp h o => some (execXdisp h o)
  | .xcomb h o => some (execXcomb h o)
  | .xgath8 h o => some (execXgath8 h o)
  | .xscat h o => some (execXscat h o)
  | .xred h o => some (execXred h o)
  | .xsend h o => some (execXsend h o)
  | .xland h o => some (execXland h o)
  | .aadd h o => some (execAadd h o)
  | .afadd h o => some (execAfadd h o)
  | .abfadd h o => some (execAbfadd h o)
  | .amin h o => some (execAmin h o)
  | .amax h o => some (execAmax h o)
  | .aand h o => some (execAand h o)
  | .aor h o => some (execAor h o)
  | .axor h o => some (execAxor h o)
  | .axchg h o => some (execAxchg h o)
  | .acas h o => some (execAcas h o)
  | .mma h o => some (execMma h o)
  | .mmas h o => some (execMmas h o)
  | .mmaz h o => some (execMmaz h o)
  | .adrn h o => some (execAdrn h o)
  | .alda h o => some (execAlda h o)
  | .hld h o => some (execHld h o)
  | .hst h o => some (execHst h o)
  | .mscan h o => some (execMscan h o)
  | .mscanc h o => some (execMscanc h o)
  | .mscanr h o => some (execMscanr h o)
  | .wst h o => some (execWst h o)
  | .wacc h o => some (execWacc h o)
  | .wscat h o => some (execWscat h o)
  | .sidle h o => some (execSidle h o)
  | _ => none

/-- The slot that the acting engine stands at. -/
def State.standing (s : State) : Option (Slot × Option Slot) :=
  if s.cur.eng = 0 then s.me.queue.f0.slot
  else s.stripFetched

/-- The multi-cycle instruction that the acting engine stands at. -/
def State.multiHere (s : State) : Option (State → Host.Outcome State Fault Refusal) :=
  match s.standing with
  | none => none
  | some (w, nxt) =>
    match decodeSlot (isSteward s.cur.unit) s.cur.eng w nxt with
    | .instr i => multiCycle i
    | .bad _ => none

/-- MICRO_STEP (02 R55): the next micro-step of the multi-cycle instruction that engine `e` of unit `u` stands at; it waits,
with nothing done, while its inputs or room are missing. -/
def execMicroStep (u e : Nat) (s : State) : Host.Outcome State Fault Refusal :=
  let s := { s with cur := { unit := u, eng := e } }
  match s.multiHere with
  | some f => f s
  | none => .next s

/-! ### Pipelined results (04 R100, R125) -/

/-- A value enters s`n`, with its flags and clamped elements; the register's interlock ends. -/
def State.landScalar (s : State) (u : Nat) (c : Bool) (r : CoreDest) (n : Nat) (v : Word) (fl : BitVec 7) (sat : Nat) : State :=
  if n = 2 then
    -- a result into s2 is checked and written by its own instruction (04 R102)
    s.modCtx u c fun x => { x with late := x.late.map fun l => if l.at_.isNone then { l with at_ := some s.cycle, v := v } else l }
  else (s.writeReg u c n v).modCtx u c fun x => ({ x with busy := x.busy.erase r }.raise fl).saturated sat

/-- PIPELINED_RESULT_WRITE (04 R100): the result lands in its register, predicate or mailbox. -/
def execPipelinedResultWrite (u : Nat) (c : Bool) (r : CoreDest) (v : Word) (fl : BitVec 7) (sat : Nat) (s : State) :
    Host.Outcome State Fault Refusal :=
  .next <|
    match r with
    | .sreg n => s.landScalar u c r n v fl sat
    | .preg n => s.modCtx u c fun x => ({ x.writeP n (v.getLsbD 0) with busy := x.busy.erase r }.raise fl)
    | .mailbox e k => (s.modStrip u c e fun t => { t with mailbox := t.mailbox.put k v }).clearPoison (mailboxPA u c e k)
    | .snapshot n die =>
      let s := s.snapRoutes die
      s.landScalar u c (.sreg n) n (BitVec.ofNat 64 (s.routeValue die 2 0)) fl sat
    | .counter n die sel e => s.landScalar u c (.sreg n) n (BitVec.ofNat 64 (s.routeValue die sel e)) fl sat

/-! ### Banks (07 R206, R219) -/

/-- ROW_BUFFER_DRAIN (07 R206): a bank that grants nothing in this cycle drains 64 B of its buffer into the array. -/
def execRowBufferDrain (u bank : Nat) (s : State) : Host.Outcome State Fault Refusal :=
  .next (if (s.tile u).granted.contains bank then s
    else s.mod u fun t => { t with rowBuf := t.rowBuf.put bank (t.rowBuf.look 0 bank - 64) })

/-- The bank of a scratchpad address that has granted an access in this cycle. -/
def State.bankTaken (s : State) (pa : Nat) : Bool :=
  let u := pa / 2 ^ 22 % 1024
  let off := pa % 2 ^ 22
  pa / 2 ^ 52 == 0xE && isBank u off && (s.tile u).granted.contains (bankOf off)

/-- ECC_WRITEBACK (07 R219): a corrected word is written back in its bank's next free cycle. -/
def execEccWriteback (pa : Nat) (s : State) : Host.Outcome State Fault Refusal :=
  .next (if s.bankTaken pa then s.schedule (s.cycle + 1) (.eccWriteback pa) else { s with flips := s.flips.del pa })

/-! ### Pending traps (14 R393) -/

/-- ASYNC_TRAP_DELIVERY (14 R393, R394): the pending trap that comes first is taken by the control core of its context. -/
def execAsyncTrapDelivery (u : Nat) (c : Bool) (s : State) : Host.Outcome State Fault Refusal := .next (s.deliver u c)

end Sys2Proof.Machine
end

