-- ==== Sys2Proof/Machine/Monitors.lean ====
section
/-!
DEFINITION. The steward's line monitor, benching, error injection, translation invalidation and the stamp sweeper (07 R222;
08 R240, R257, R258; 12 R351 to R353, R359).
-/
namespace Sys2Proof.Machine

/-! ### MONITOR and MWAIT (08 R257, R258) -/

/-- Why a physical address may not be monitored: the code of ctl.info1 of the permission trap. -/
def State.monitorFault (s : State) (pa : Nat) : Option Nat :=
  match s.badPA true pa with
  | some i => some i
  | none =>
    match (s.ownPA pa) / 2 ^ 52 with
    | 0 => none
    | 1 => if (s.nutonAt (pa % 2 ^ 48)).any (·.2) then none else some 4
    | _ => some 1

/-- The line monitor of a steward changed. -/
def State.modMonitor (s : State) (u : Nat) (f : LineMonitor → LineMonitor) : State :=
  s.mod u fun t => { t with lmon := f t.lmon }

/-- The monitored line is copied into the mirror of a steward's data memory. -/
def State.fillMirror (s : State) (u line : Nat) : State :=
  match s.readPlace { agent := agentOf u false, phase := 0 } { pa := line, tracked := false } 64 with
  | (s, .inr (v, bad)) => (s.storePA (windowPA u 0x7FFC0) 64 v).poisonBytes (windowPA u 0x7FFC0) 64 bad
  | (s, .inl _) => s

/-- The status word of the monitor of a steward. -/
def State.monitorStatus (s : State) (u reason : Nat) : State := s.storePA (windowPA u 0x7FFB8) 8 reason

/-- An instruction stands for the time of one access to memory, then acts. -/
def afterMemory (s m : State) (k : State → State) : CoreRes :=
  match s.me.hold with
  | none => .wait 6 ((s.modMe fun x => { x with hold := some (s.cycle + Config.memoryLatency s.fresh) }).used)
  | some t => if s.cycle < t then .wait 6 s else .done (k m)

/-- MONITOR (08 R257). -/
def execMonitor (o : CoreForm) (s : State) : Host.Outcome State Fault Refusal :=
  coreInstr o { privileged := true, reads := [(o.a.toNat, o.la)] } (fun s m vs =>
    let a := (nth vs 0).toNat
    let u := m.cur.unit
    if a % 64 != 0 then .trap { cause := 0x07, i0 := BitVec.ofNat 64 a } none
    else match s.monitorFault a with
      | some i => .trap { cause := 0x11, i0 := BitVec.ofNat 64 a, i1 := BitVec.ofNat 64 i } none
      | none =>
        afterMemory s m fun m =>
          let m := (m.fillMirror u (m.ownPA a)).monitorStatus u 0
          m.modMonitor u fun _ => { line := some (m.ownPA a) }) s

/-- MWAIT ends: it writes the reason, refetching the line for reasons 0 and 3, and disarms. -/
def State.monitorEnds (s : State) (u line reason : Nat) : State :=
  let s := if reason = 1 then s else s.fillMirror u line
  let s := (s.monitorStatus u reason).modMonitor u fun _ => {}
  { s with agenda := s.agenda.filter fun e => e.2 != .mwaitTimeout u }

/-- MWAIT (08 R258). -/
def execMwait (o : CoreForm) (s : State) : Host.Outcome State Fault Refusal :=
  coreInstr o { privileged := true, reads := [(o.a.toNat, o.la)] } (fun s m vs =>
    let u := m.cur.unit
    let n := (nth vs 0).toNat
    match m.here.lmon.line with
    | none => .done (m.monitorStatus u 2)
    | some line =>
      match m.here.lmon.wake with
      | some r => .done (m.monitorEnds u line r)
      | none =>
        if m.here.lmon.asleep then .wait 8 s
        else
          let s := s.modMonitor u fun l => { l with asleep := true, sleepFrom := s.cycle }
          .wait 8 (if n = 0 then s else s.schedule (s.cycle + n) (.mwaitTimeout u))) s

/-- An armed monitor takes the first reason to wake. -/
def State.wakeMonitor (s : State) (u reason : Nat) : State :=
  s.modMonitor u fun l => if l.line.isSome && l.wake.isNone then { l with wake := some reason } else l

/-- MONITOR_WAKE (08 R258). -/
def execMonitorWake (u : Nat) (s : State) : Host.Outcome State Fault Refusal := .next (s.wakeMonitor u 0)

/-- MWAIT_TIMEOUT (08 R258). -/
def execMwaitTimeout (u : Nat) (s : State) : Host.Outcome State Fault Refusal :=
  .next (if (s.tile u).lmon.asleep then s.wakeMonitor u 1 else s)

/-- MONITOR_LOSS (08 R258). -/
def execMonitorLoss (u : Nat) (s : State) : Host.Outcome State Fault Refusal := .next (s.wakeMonitor u 3)

/-! ### BENCH (12 R359) -/

/-- BENCH (12 R358, R359). -/
def execBench (o : CoreForm) (s : State) : Host.Outcome State Fault Refusal :=
  coreInstr o { privileged := true, reads := [(o.a.toNat, o.la)] } (fun s m vs =>
    if 768 ≤ (nth vs 0).toNat then s.badOperand else .done (m.benchTile (nth vs 0).toNat)) s

/-! ### ERRINJ (07 R222) -/

/-- The offset of a window holds a 64-bit word of a SECDED array: banks, the instruction store, the state of the strips, the entry
view, the store tags, the control-core blocks, the bank registers (07 R221, R228). -/
def isArrayWord (u off : Nat) : Bool :=
  let o := off % 0x10000
  match off / 0x10000 with
  | 0x2A => !isSteward u && ((decide (0x1000 ≤ o) && decide (o < 0x1300)) || (decide (0x4000 ≤ o) && decide (o < 0x8000)))
  | 0x2E => false
  | _ => decide (off < 0x300000) && windowListed u off

/-- A physical address names a word of an array of this module. -/
def namesArrayWord (pa : Nat) : Bool :=
  pa / 2 ^ 52 == 0xE && bits pa 32 20 == 0 && decide (bits pa 22 10 < 784) && isArrayWord (bits pa 22 10) (bits pa 0 22)

/-- Bits of a stored word inverted in place, by ERRINJ or by an upset. -/
def State.invert (s : State) (pa : Nat) (mask : Word) (check : Bool) (injected : Bool := true) : State :=
  if pa / 2 ^ 52 = 0xE ∧ isEntryView pa then s.invertEntry (bits pa 22 10) pa mask check injected
  else { s with flips := invertIn s.flips pa mask check injected }

/-- ERRINJ (07 R222), 4 cy: the other three pass as it issues. -/
def execErrinj (o : CoreForm) (s : State) : Host.Outcome State Fault Refusal :=
  coreInstr o { privileged := true, reads := [(o.a.toNat, o.la), (o.b.toNat, o.lb)] } (fun s m vs =>
    let a := (nth vs 0).toNat
    let mask := nth vs 1
    if a % 8 != 0 then .trap { cause := 0x07, i0 := BitVec.ofNat 64 a } none
    else if !namesArrayWord a then .trap { cause := 0x08, i0 := BitVec.ofNat 64 a } none
    else match s.me.hold with
      | none => .wait 6 (s.modMe fun x => { x with hold := some (s.cycle + 3) })
      | some t =>
        if s.cycle < t then .wait 6 s
        else if o.x.getLsbD 0 then
          .done (m.mod (bits a 22 10) fun t => { t with inject := some (a, mask, (o.x.extractLsb' 0 2)) })
        else .done (m.invert a mask (o.x.getLsbD 1))) s

/-! ### TLBINV (12 R351 to R353) -/

/-- Size of the page of a virtual address, as the tables stand: where the walk finds no entry that names a size, its
region. -/
def State.pageAt (s : State) (root va : Nat) : Nat :=
  match readTop s.tableRead root va with
  | .inl _ => 8388608
  | .inr e1 =>
    match readRegion s.tableRead va e1 with
    | .inl _ => 8388608
    | .inr e2 => pageSize (bits e2.toNat 60 3)

/-- The range of a TLBINV. -/
def State.invalidRange (s : State) (scope root va : Nat) : Nat × Nat :=
  let n := match scope with
    | 0 => 2 ^ 51
    | 1 => 2 ^ 38
    | 2 => 2 ^ 23
    | _ => s.pageAt root va
  (va / n * n, va / n * n + n)

/-- A request `v` of a TLBINV that 12 R351 permits. -/
def State.invalidationLegal (s : State) (scope v : Nat) : Bool :=
  let epa := bits v 64 64
  bits v 51 13 == 0 && bits v 196 3 == 0 && bits v 200 56 == 0 && epa % 8 == 0 && decide (s.ownPA epa < 2 ^ 40)
    && (scope != 0 || (bits v 0 64 == 0 && epa == 0))

/-- Cached translations of a slot that lie in a range are purged. -/
def State.purge (s : State) (slot lo hi : Nat) : State :=
  let keep := fun (e : TlbEntry) => !(e.slot == slot && decide (lo ≤ e.va) && decide (e.va + e.size ≤ hi))
  { s with
    units := s.units.map fun e => (e.1, { e.2 with tlb := e.2.tlb.filter keep })
    walkCache := s.walkCache.map fun e => (e.1, e.2.filter keep) }

/-- A strip with an instruction in progress is ahead of a marker. -/
def Strip.marked (t : Strip) (k : Nat) : Strip :=
  if t.op.isSome || t.popped || t.ust != 0 || t.spent != 0 then { t with ahead := k :: t.ahead } else t

/-- A stream is ahead of a marker; a FAULTED one retries behind it, under the new mapping (09 R281). -/
def Stream.marked (t : Stream) (k : Nat) : Stream :=
  if t.state = 1 then { t with state := 0, cause := 0 } else { t with ahead := k :: t.ahead }

/-- Every stream, and the access strip's instruction, of a context of the job meets a marker. -/
def Ctx.marked (x : Ctx) (id : BitVec 32) (k : Nat) : Ctx :=
  if x.jobId != id || x.life == .free then x
  else { x with
    access := x.access.marked k
    streams := x.streams.map fun e => (e.1, e.2.marked k) }

/-- The markers of a shadow are placed in every translating queue of a job. -/
def State.placeMarkers (s : State) (id : BitVec 32) (k : Nat) : State :=
  let mine := fun (p : Placement) => p.job == id && (p.state == 2 || p.saving)
  { s with
    units := s.units.map fun e => (e.1, { e.2 with ctxA := e.2.ctxA.marked id k, ctxB := e.2.ctxB.marked id k })
    placed := s.placed.map fun e => (e.1, if mine e.2 then { e.2 with ahead := k :: e.2.ahead } else e.2) }

/-- A command ahead of the markers of a shadow has not completed. -/
def State.aheadOf (s : State) (k : Nat) : Bool :=
  let ctx := fun (x : Ctx) => x.access.ahead.contains k || x.streams.any fun e => e.2.ahead.contains k
  s.units.any (fun e => ctx e.2.ctxA || ctx e.2.ctxB) || s.placed.any fun e => e.2.ahead.contains k

/-- The translation register of a job with its root: the VALID one that names it, else another that names it, whose copies may still be
cached, else that of its open-job slot (12 R343, R352). -/
def State.slotNaming (s : State) (id : BitVec 32) : Nat × Nat :=
  match s.rootOf id with
  | some r => r
  | none =>
    let j := (((List.range 8).find? fun j => (s.job j).root1.extractLsb' 0 32 == id).or (s.jobSlot id)).getD 0
    (j, ((s.job j).root0.extractLsb' 16 24).toNat * 65536)

/-- The cached translations of a slot that lie in a range: of every tile, then of the walkers. -/
def State.cachedIn (s : State) (slot lo hi : Nat) : List TlbEntry :=
  ((s.units.flatMap fun e => e.2.tlb) ++ s.walkCache.flatMap fun e => e.2).filter
    fun e => e.slot == slot && decide (lo ≤ e.va) && decide (e.va + e.size ≤ hi)

/-- TLBINV takes effect (12 R352): the shadow, the rewrite, the purge, the markers. -/
def State.invalidate (s : State) (u scope k : Nat) (id : BitVec 32) (v : Nat) : State :=
  let va := bits v 0 51
  let epa := s.ownPA (bits v 64 64)
  let (slot, root) := s.slotNaming id
  let (lo, hi) := s.invalidRange scope root va
  let h : Shadow := {
    slot := slot, lo := lo, hi := hi, tables := s.mem, bad := s.poison, root := root, cached := s.cachedIn slot lo hi, steward := u
    sig := if v.testBit 199 then some (bits v 192 4) else none, placedAt := s.cycle + 64 }
  let s := { s with shadows := s.shadows.put k h }
  let s := if bits v 64 64 = 0 then s else
    (s.storePA epa 8 (bits v 128 64) (some (agentOf u false))).stampLines false (agentOf u false) 0 .write epa 8
  (s.purge slot lo hi).placeMarkers id k

/-- TLBINV (12 R351, R352): it waits for a shadow slot, and holds issue until its markers are placed. -/
def execTlbinv (o : CoreForm) (s : State) : Host.Outcome State Fault Refusal :=
  coreInstr o { privileged := true, reads := [(o.a.toNat, o.la), (o.b.toNat, o.lb)] } (fun s m vs =>
    let u := m.cur.unit
    let a := (nth vs 0).toNat
    match s.me.hold with
    | some t => if s.cycle < t then .wait 6 s else .done m
    | none =>
      if a % 32 == 0 && decide (scratchSize u < a + 32) then .trap { cause := 0x08, i0 := BitVec.ofNat 64 a } none
      else
        withRequest a 32 32 s m fun m v =>
          let id : BitVec 32 := (nth vs 1).extractLsb' 0 32
          if (nth vs 1).extractLsb' 32 32 != 0 || (m.jobSlot id).isNone || !m.invalidationLegal (o.x.toNat % 4) v then s.badOperand
          else match (List.range 16).find? fun k => (m.shadows.find k).isNone with
            | none => .wait 8 s
            | some k => .wait 6 ((m.invalidate u (o.x.toNat % 4) k id v).modMe fun x => { x with dead := s.me.dead, hold := some (s.cycle + 63) })) s

/-- TLBINV_MARKERS_COMPLETE (12 R352): the shadow is free, and the counter it names gains one. -/
def execTlbinvMarkersComplete (k : Nat) (s : State) : Host.Outcome State Fault Refusal :=
  .next <|
    match s.shadows.find k with
    | none => s
    | some h =>
      if s.aheadOf k then s
      else { s with shadows := s.shadows.del k }.signalSteward (h.sig.map fun i => 16 * h.steward + i)

/-! ### The sweeper (08 R240, R241) -/

/-- A tracked range of a job slot holds a line. -/
def Job.tracks (b : Job) (line : Nat) : Bool :=
  (List.range 16).any fun r =>
    let w := b.ranges.look 0 (2 * r)
    let base := (w.extractLsb' 16 24).toNat
    let size := ((b.ranges.look 0 (2 * r + 1)).extractLsb' 0 24).toNat
    w.getLsbD 63 && decide (base ≤ line / 1024) && decide (line / 1024 < base + size)

/-- A stamp is old in phase `p`. -/
def oldStamp (st : BitVec 32) (p : Nat) : Bool := decide (2 ^ 19 ≤ (p % 2 ^ 20 + 2 ^ 20 - bits st.toNat 12 20) % 2 ^ 20)

/-- SWEEPER_VISIT (08 R240): an old stamp, or any stamp of a line that no open job owns, becomes empty. -/
def execSweeperVisit (line : Nat) (s : State) : Host.Outcome State Fault Refusal :=
  .next <|
    match (List.range 8).find? fun j => (s.job j).opened && (s.job j).tracks line with
    | none => s.setStamp line 0xFFD
    | some j => if oldStamp (s.stamp line) (s.job j).phase then s.setStamp line 0xFFD else s

end Sys2Proof.Machine
end

