-- ==== Sys2Proof/Machine/Whistle.lean ====
section
/-!
DEFINITION. The whistle: the wave, the settled cause, release, steps and replay (11 R341; 14 R398 to R407; 04 R110).
-/
namespace Sys2Proof.Machine

/-! ### The wave (14 R400) -/

/-- WAVE_REACHES_TILE (14 R400): the tile's running context of the job freezes, tile (0, 0) with the boundary unit. -/
def execWaveReachesTile (j u : Nat) (s : State) : Host.Outcome State Fault Refusal :=
  let c := (s.tile u).run
  let x := s.ctx u c
  .next <|
    if !(s.job j).opened then s
    else
      let s := if u = 0 then s.holdBoundary j else s
      if x.frozen || !x.takesPart || x.jobId != (s.job j).id then s
      else
        let cause := if x.stopped then (x.cause.extractLsb' 0 8).toNat else 0x23
        (s.freezeContext j u cause).recordFreeze u c cause

/-! ### The cause register (14 R403, R404) -/

/-- The cycle of the first edge at or after a past device time, in units of 2^-16/17 ns. -/
def State.edgeAt (s : State) (t : Nat) : Nat :=
  if s.servo.lock then edgeUpTo t ((s.time - t) / (timePerCycle - 65) + 1) s.cycle s.time
  else s.cycle - (s.time - t) / timePerCycle

/-- The freeze record of a tile once the cause is settled. -/
def State.settleRecord (s : State) (u ref : Nat) (won : Bool) (cause : Nat) : State :=
  s.mod u fun t =>
    let off := (t.freeze.look 0 1).toNat - ref
    { t with freeze := t.freeze.put 0 (((t.freeze.look 0 0) &&& 0xA000000000000000)
        ||| fields [(won.toNat, 62), (if won then cause else 0x23, 32), (off % 2 ^ 32, 0)]) }

/-- The tiles whose running context of a job is frozen. -/
def State.frozenTiles (s : State) (j : Nat) : List Nat :=
  let id := (s.job j).id
  (s.units.filter fun e => !isSteward e.1 && (e.2.ctx e.2.run).frozen && (e.2.ctx e.2.run).jobId == id).map (·.1)

/-- CAUSE_SETTLE (14 R404): 4 µs after the first wave the winner is final, E is fixed, and so is each OFFSET. -/
def execCauseSettle (j : Nat) (s : State) : Host.Outcome State Fault Refusal :=
  let b := s.job j
  .next <|
    match b.winner with
    | none => s
    | some w =>
      if !b.opened || !b.valid || b.settled || b.lcycle + 3400 != s.cycle then s
      else
        let ref := s.edgeAt (w.time * timePerNs + w.frac * 17)
        let s := s.modJob j fun b => { b with settled := true, ref := ref, since := w.time }
        (s.frozenTiles j).foldl
          (fun s u => s.settleRecord u ref (decide (w.dev = s.device) && decide (w.tile = u)) w.cause) s

/-! ### Release (14 R405) -/

/-- OFFSET of a frozen tile. -/
def State.offsetOf (s : State) (j u : Nat) : Nat := ((s.tile u).freeze.look 0 1).toNat - (s.job j).ref

/-- What the boundary unit sends again after a change of plane (01 R36): what the module still held at the old port goes, and a home
forgets what had come on the old plane, since every module sends it again. -/
def State.sendAgain (s : State) (j : Nat) : State :=
  let b := s.job j
  if !b.moved then s
  else
    let s := s.modJob j fun b => { b with moved := false, flitSent := b.flitSent && b.released }
    let ours := fun (w : Nat) => s.windowJob w == b.id && !s.delivered.contains w
    let s := { s with
      portWait := s.portWait.filter fun e => s.windowJob (e.2.field 1 1 % 8) != b.id
      merged := s.merged.filter fun m => m.dev == s.device || !ours m.w || s.windowHome m.w != s.device
      flushes := s.flushes.filter fun f => f.2 == s.device || !ours f.1 || s.windowHome f.1 != s.device }
    let mine := fun (w : Nat) => s.windowJob w == b.id && s.windowHome w != s.device && !s.delivered.contains w
    let s := (s.merged.filter fun m => m.dev == s.device && mine m.w).foldl
      (fun s m => s.sendRed m.w (s.redPacket (s.windowHome m.w) 0 m m.opnd.toNat)) s
    (s.flushes.filter fun f => f.2 == s.device && mine f.1).foldl (fun s f =>
      s.sendRed f.1 (s.redPacket (s.windowHome f.1) 1
        { w := f.1, dev := s.device, tile := 0, word := 0, op := 0, type := 0, opnd := 0, opId := 0, c := false } 0)) s

/-- The boundary unit runs again, and a held start pulse leaves. -/
def State.freeBoundary (s : State) (j : Nat) : State :=
  let s := s.modJob j fun b => { b with held := false, conditionsAt := if b.sequence then b.conditionsAt else none }
  let s := s.sendAgain j
  let b := s.job j
  if b.pulse && !b.suspended then s.sendPulse j (b.pulseLeft.getD 1) else s

/-- A frozen context runs again: its queue from the registers, the registers from their hidden copies, what was held sent. -/
def State.thaw (s : State) (j u : Nat) (c : Bool) : State :=
  let old := s.ctx u c
  let x := s.thawed u c
  let s := s.modCtx u c fun _ => { x with atPhend := x.atPhend && old.epc == old.queue.f0.word, pulseLeft := none, arrivedAt := 0 }
  let s := s.mod u fun t => { t with kept := t.kept.map fun k => if k.c == c then { k with sentAt := 0 } else k }
  let s := (s.tile u).heldOut.foldl (fun s e => s.sendHeld e.1 e.2) s
  let s := s.mod u fun t => { t with heldOut := [], freeze := t.freeze.put 0 ((t.freeze.look 0 0) &&& 0x7FFFFFFFFFFFFFFF) }
  let s := s.traceEvent u 6 0 c (BitVec.ofNat 64 (256 + (((s.tile u).freeze.look 0 0).extractLsb' 32 8).toNat))
  match old.pulseLeft with
  | some 0 => s.due (.startPulseArrival j u)
  | some n => s.schedule (s.cycle + n) (.startPulseArrival j u)
  | none => s

/-- TILE_RELEASE (14 R405): the tile's release cycle R + OFFSET; for tile (0, 0) also that of the boundary unit. -/
def execTileRelease (j u : Nat) (s : State) : Host.Outcome State Fault Refusal :=
  let b := s.job j
  let c := (s.tile u).run
  let x := s.ctx u c
  .next <|
    match b.release with
    | none => s
    | some r =>
      let s := if u = 0 ∧ b.held ∧ s.cycle = r + (b.heldAt - b.ref) then s.freeBoundary j else s
      if x.frozen && x.jobId == b.id && decide (s.cycle = r + s.offsetOf j u) then s.thaw j u c else s

/-- A release at device time `t` takes hold: with `n`, each tile freezes again after `n` cycles. -/
def State.releaseAt (s : State) (j t : Nat) (n : Option Nat) : State :=
  let b := s.job j
  let r := s.cycleAt t
  let hold := b.heldAt - b.ref
  let s := s.modJob j fun b => { b with
    release := some r, stepFor := n, shift := b.shift + (t - b.since), valid := n.isSome, runState := if n.isSome then 2 else 0 }
  let s := s.schedule (r + hold) (.tileRelease j 0)
  let frozen := s.frozenTiles j
  let s := frozen.foldl (fun s u => s.schedule (r + s.offsetOf j u) (.tileRelease j u)) s
  match n with
  | none => s
  | some n =>
    let waiting := ((s.placed.filter fun e => e.2.state == 3 && e.2.job == b.id).flatMap fun e => e.2.tiles).filter
      (!frozen.contains ·)
    let s := frozen.foldl (fun s u => s.schedule (r + s.offsetOf j u + n) (.stepRefreeze j u)) s
    let s := waiting.foldl (fun s u => s.schedule (r + hold + pulseDelay u + n) (.stepRefreeze j u)) s
    s.schedule (r + hold + n) (.stepRefreeze j 0)

/-- STEP_REFREEZE (14 R406): a tile freezes again at the end of a job-step, which leaves OFFSET as it was. -/
def execStepRefreeze (j u : Nat) (s : State) : Host.Outcome State Fault Refusal :=
  let b := s.job j
  let c := (s.tile u).run
  .next <|
    match b.release, b.stepFor with
    | some r, some n =>
      let s := if u = 0 ∧ s.cycle = r + (b.heldAt - b.ref) + n then
          (s.holdBoundary j).modJob j fun b => { b with since := s.ns }
        else s
      let was := (s.ctx u c).frozen
      let s := s.freezeContext j u 0x23
      let s := if was || !(s.ctx u c).frozen then s
        else
          let at_ : Word := BitVec.ofNat 64 s.cycle
          s.mod u fun t => { t with freeze := (t.freeze.put 0 ((t.freeze.look 0 0) ||| BitVec.twoPow 64 63)).put 1 at_ }
      let again := fun (v : Nat) => (s.ctx v (s.tile v).run).frozen && decide (r ≤ ((s.tile v).freeze.look 0 1).toNat)
      let done := (s.job j).held && decide (r ≤ (s.job j).heldAt) && (s.members j).all again
      if done then s.modJob j fun b => { b with ref := r + n, release := none, stepFor := none, runState := 1 } else s
    | _, _ => s

/-- Why a release of a job at a device time is refused. -/
def State.mayRelease (s : State) (j : Nat) : Bool :=
  let b := s.job j
  b.valid && b.settled && b.runState == 1

/-- The packet of a release or job-step of a job by a unit of this module. -/
def State.releasePacket (s : State) (j unit kind n t : Nat) : Packet :=
  let b := s.job j
  let w : Whistle := { time := s.ns, frac := s.frac, dev := s.device, tile := unit, eng := 0, cause := 0, info0 := 0 }
  whistlePacket b.dgrp s.device kind b.id w n t

/-- RESUME (14 R405). -/
def execResume (o : CoreForm) (s : State) : Host.Outcome State Fault Refusal :=
  coreInstr o { privileged := true, reads := [(o.a.toNat, o.la), (o.b.toNat, o.lb)] } (fun s m vs =>
    let t := (nth vs 1).toNat
    match s.jobSlot ((nth vs 0).extractLsb' 0 32) with
    | none => s.badOperand
    | some j =>
      if 2 ^ 32 ≤ (nth vs 0).toNat ∨ s.mayRelease j = false ∨ t < s.ns + 4000 ∨ s.ns + 2 ^ 32 < t then s.badOperand
      else .done ((m.sendWhistle 0 (m.releasePacket j m.cur.unit 1 0 t)).releaseAt j t none)) s

/-- STEP.job (14 R406). -/
def execStepJob (o : CoreForm) (s : State) : Host.Outcome State Fault Refusal :=
  coreInstr o { privileged := true, reads := [(o.a.toNat, o.la), (o.b.toNat, o.lb)] } (fun s m vs =>
    let n := (nth vs 1).toNat
    match s.jobSlot ((nth vs 0).extractLsb' 0 32) with
    | none => s.badOperand
    | some j =>
      if 2 ^ 32 ≤ (nth vs 0).toNat ∨ n = 0 ∨ 2 ^ 32 ≤ n ∨ s.mayRelease j = false then s.badOperand
      else
        let t := s.ns + 4096
        .done ((m.sendWhistle 0 (m.releasePacket j m.cur.unit 2 n t)).releaseAt j t (some n))) s

/-! ### Whistles from elsewhere (14 R398, R399, R405, R407) -/

/-- WHISTLE (14 R407): the wave starts at the top-left tile of the steward's die. -/
def execWhistle (o : CoreForm) (s : State) : Host.Outcome State Fault Refusal :=
  coreInstr o { privileged := true, reads := [(o.a.toNat, o.la)] } (fun s m vs =>
    match s.jobSlot ((nth vs 0).extractLsb' 0 32) with
    | none => s.badOperand
    | some j =>
      if 2 ^ 32 ≤ (nth vs 0).toNat then s.badOperand
      else
        let d := dieOf m.cur.unit
        .done (m.originate j m.cur.unit 0 0x22 0 (d / 2 * 12) (d % 2 * 16))) s

/-- The identity of a whistle packet: KIND, ODEV, OTILE, OTIME, OFRAC. -/
def whistleId (p : Packet) : Nat × Nat × Nat × Nat × Nat :=
  (p.field 4 1, p.field 18 2 % 1024, p.field 6 2 % 1024, p.field 8 8, p.field 16 2)

/-- What a whistle packet does to its job the first time it comes; packets that this module has sent are not acted on. -/
def State.onWhistle (s : State) (p : Packet) (act : Nat → State → State) : State :=
  match s.jobSlot (BitVec.ofNat 32 (p.field 0 4)) with
  | none => s
  | some j =>
    if (s.job j).seen.contains (whistleId p) || p.field 18 2 % 1024 == s.device then s
    else act j (s.modJob j fun b => { b with seen := whistleId p :: b.seen })

/-- WHISTLE_FREEZE (14 R399, R400, R404): the wave starts at tile (0, 0). -/
def execWhistleFreeze (p : Packet) (s : State) : Host.Outcome State Fault Refusal :=
  .next (s.onWhistle p fun j s =>
    let w : Whistle :=
      { time := p.field 8 8, frac := p.field 16 2, dev := p.field 18 2 % 1024, tile := p.field 6 2 % 1024
        eng := p.field 6 2 / 4096 % 8, cause := p.field 5 1, info0 := BitVec.ofNat 64 (p.field 32 8) }
    let b := s.job j
    let counted := b.valid && b.settled && b.runState != 2
    let s := s.seeWhistle j w
    if counted then s else s.startWave j 0 0)

/-- WHISTLE_RESUME (14 R405). -/
def execWhistleResume (p : Packet) (s : State) : Host.Outcome State Fault Refusal :=
  .next (s.onWhistle p fun j s => if s.mayRelease j then s.releaseAt j (p.field 24 8) none else s)

/-- WHISTLE_JOB_STEP (14 R406); other kinds are reserved. -/
def execWhistleJobStep (p : Packet) (s : State) : Host.Outcome State Fault Refusal :=
  .next (s.onWhistle p fun j s =>
    if p.field 4 1 = 2 && s.mayRelease j then s.releaseAt j (p.field 24 8) (some (p.field 20 4)) else s)

/-! ### Steps of one engine (14 R406) -/

/-- Why a step of an engine of a tile is refused. -/
def State.mayStep (s : State) (v : Nat) : Bool :=
  let u := bits v 0 10
  let e := bits v 12 3
  let x := s.ctx u (s.tile u).run
  decide (v < 2 ^ 15) && bits v 10 2 == 0 && decide (u < 768) && decide (e ≤ 4) && x.frozen && (s.tile u).stepping.isNone
    && (e == 0 || (x.strip e).state == 2 || (x.strip e).state == 3 || (x.strip e).state == 5)

/-- An engine of a frozen tile begins a step. -/
def State.beginStep (s : State) (v : Nat) (whole : Bool) : State :=
  let u := bits v 0 10
  let e := bits v 12 3
  let c := (s.tile u).run
  let x := s.thawed u c
  let s := if e = 0 then s.modCtx u c fun _ => { x with frozen := true } else s
  s.mod u fun t => { t with stepping := some { eng := e, whole := whole || e == 0, since := s.cycle } }

/-- A step ends: the context is captured again, and the cycles it took, if it did anything, join FCYC. -/
def State.endStep (s : State) (u cycles : Nat) : State :=
  let c := (s.tile u).run
  let s := s.mod u fun t => { t with
    stepping := none
    freeze := if cycles = 0 then t.freeze
      else (t.freeze.put 1 (t.freeze.look 0 1 + BitVec.ofNat 64 cycles)).put 2
        (BitVec.ofNat 64 (((t.freeze.look 0 2).extractLsb' 0 32).toNat + 1))
    }
  let s := s.modCtx u c Ctx.capture
  match s.slotOf u c with
  | none => s
  | some j =>
    if (s.job j).settled then
      s.mod u fun t => { t with freeze := t.freeze.put 0 (((t.freeze.look 0 0) &&& 0xFFFFFFFF00000000)
        ||| BitVec.ofNat 64 (((t.freeze.look 0 1).toNat - (s.job j).ref) % 2 ^ 32)) }
    else s

/-- A step instruction. -/
def stepInstr (o : CoreForm) (whole : Bool) (s : State) : Host.Outcome State Fault Refusal :=
  coreInstr o { privileged := true, reads := [(o.a.toNat, o.la)] } (fun s m vs =>
    if s.mayStep (nth vs 0).toNat then .done (m.beginStep (nth vs 0).toNat whole) else s.badOperand) s

/-- STEP.tile (14 R406). -/
def execStepTile (o : CoreForm) (s : State) : Host.Outcome State Fault Refusal := stepInstr o false s

/-- STEP.insn (14 R406). -/
def execStepInsn (o : CoreForm) (s : State) : Host.Outcome State Fault Refusal := stepInstr o true s

/-- STEP_TIMEOUT (14 R406): an engine that could not go on for 2^16 cycles ends its step with nothing issued. -/
def execStepTimeout (u e : Nat) (s : State) : Host.Outcome State Fault Refusal :=
  .next <|
    match (s.tile u).stepping with
    | some st => if st.eng = e then s.endStep u 0 else s
    | none => s

/-! ### Replay (11 R341) -/

/-- A packet is on its way between tiles, as against service units. -/
def Event.ofTile : Event → Option Nat
  | .write p => some p.dtile.toNat
  | .writem p => some p.dtile.toNat
  | .read p => some p.dtile.toNat
  | .rreply p => some p.dtile.toNat
  | .creply p => some p.dtile.toNat
  | .rslot p => some p.dtile.toNat
  | .ares p => some p.dtile.toNat
  | .ack p => some p.dtile.toNat
  | .nack p => some p.dtile.toNat
  | .cmark p => some p.dtile.toNat
  | .creport p => some p.dtile.toNat
  | .fault p => some p.dtile.toNat
  | .nackRetry u _ _ _ _ => some u
  | .circuitBeat u _ _ _ _ _ => some u
  | .circuitDeparture u _ => some u
  | _ => none

/-- A strip at the opening of a superstep. -/
def Strip.reopen (t : Strip) (o : Option StripOpening) : Strip :=
  match o with
  | some o => { t.clean with state := o.state, pos := o.pos, next := 0 }
  | none => t.clean

/-- A context returns to the opening of its superstep. -/
def Ctx.reopen (x : Ctx) (o : Opening) : Ctx :=
  { x with
    queue := o.queue, hidden := none, ust := 0, unchecked := false, late := none, hold := none, told := false, since := none
    sources := none, spoiled := false
    access := x.access.reopen o.strips[0]?, matrix := x.matrix.reopen o.strips[1]?, vector := x.vector.reopen o.strips[2]?
    writeback := x.writeback.reopen o.strips[3]?
    desc := o.desc, dcur := o.dcur, wdesc := o.wdesc, wcur := o.wcur, slots := o.slots
    gen := o.gen, vgen := o.vgen, mgen := o.mgen, seed := o.seed
    fpend := 0, flagsClear := 0, flagsOr := 0, flagsDue := [], flagsCommit := 0, nanPending := 0, infPending := 0, satPending := 0, slipPending := 0
    landed := [], busy := [], vbusy := [], accesses := [], traps := [], ops := x.ops.filter (·.stream)
    phend := false, atPhend := false, released := false, pulseDue := false, tend := o.tend, arrived := false, checked := false
    stopped := false, pulseLeft := none, life := .waiting }

/-- A tile at the opening of a replayed superstep: its context reopened, its queues empty, its transfers forgotten. -/
def State.reopenTile (s : State) (u : Nat) : State :=
  let t := s.tile u
  let c := t.run
  match (t.ctx c).opening with
  | none => s
  | some o =>
    let x := t.ctx c
    let regs := match x.hidden with
      | some h => { x with epc := h.epc, enpc := h.enpc, ennpc := h.ennpc, ebits := h.ebits, ustate0 := h.ustate0, ustate1 := h.ustate1 }
      | none => x
    let x := (regs.reopen o).capture
    s.mod u fun t =>
      { t.setCtx c x with
        banks := o.banks.foldl (fun bs e => bs.put e.1 e.2) t.banks
        fifos := [], tokens := [], newTokens := [], tokensDue := [], goneTokens := [], scan := none, accBusy := []
        wload := { t.wload with busy := false, left := 0 }
        kept := [], waitOut := [], tx := [], rx := [], asked := [], runs := [], heldOut := []
        rxc := t.rxc.map fun r => { r with anchored := false, runBeats := 0, runGroups := 0, pre := [] }
        freeze := (t.freeze.put 0 ((t.freeze.look 0 0) &&& 0xA0000000FFFFFFFF)).put 2 0 }

/-- The current superstep of a job is abandoned. -/
def State.replay (s : State) (j : Nat) : State :=
  let b := s.job j
  let us := s.frozenTiles j
  let goes := fun (e : Event) => match Event.ofTile e with
    | some u => us.contains u
    | none => false
  let s := us.foldl (fun s u => s.reopenTile u) { s with
    agenda := s.agenda.filter fun e => !goes e.2
    inbox := s.inbox.filter fun e => !goes e
    merged := s.merged.filter fun m => m.dev != s.device || !us.contains m.tile }
  let s := s.placed.foldl (fun s e =>
    if e.2.job = b.id ∧ e.2.state = 6 ∧ s.gangEnded e.2 = false then s.modPlacement e.1 fun p => { p with state := 4, farEnded := false }
    else s) s
  (s.clearWindows b.id).modJob j fun b => { b with
    phase := b.phase / 2 * 2 + 2, straggler := none, conditionsAt := none, flitSent := false, released := false, sequence := false
    pulse := true, pulseLeft := some 0, nwh := 0
    winner := b.winner.map fun w => { w with dev := 0, tile := 0, eng := 0, cause := 0, time := 0, frac := 0, info0 := 0 } }

/-- LAUNCH.replay (11 R341): the job is frozen, and every gang of it is replayable. -/
def execLaunchReplay (o : CoreForm) (s : State) : Host.Outcome State Fault Refusal :=
  coreInstr o (gangSpec o) (fun s m vs =>
    let refused : CoreRes := .trap { cause := 0x02, i0 := 15, i1 := s.me.slotWord } none
    if 2 ^ 32 ≤ (nth vs 0).toNat then s.badOperand
    else match s.jobSlot ((nth vs 0).extractLsb' 0 32) with
      | none => refused
      | some j =>
        let b := s.job j
        let frozen := b.valid && b.runState == 1 && (s.members j).all fun u => (s.ctx u (s.tile u).run).frozen
        let repl := s.placed.all fun e => e.2.job != b.id || e.2.state == 0 || taskRepl e.2.task
        if frozen && repl then (m.replay j).status o 0 else refused) s

end Sys2Proof.Machine
end

