-- ==== Sys2Proof/Machine/Soft.lean ====
section
/-!
DEFINITION. Soft errors of the machine's own state (01 R37; 02 R71; 03 R96; 04 R127; 05 R170; 06 R202; 07 R228; 08 R259; 09 R291;
10 R325; 11 R342; 12 R364; 13 R388; 14 R412; 15 R427): words of a window that are checked without an instruction's reading them, and
what an uncorrectable word outside the windows does.
-/
namespace Sys2Proof.Machine

/-! ### Words of a window -/

/-- The engine that a word of protected state at a window offset belongs to: one whose uncorrectable error freezes the job at
whatever engine, read or not. The s and p registers, vector registers, masks, mailboxes, access descriptors and matrix rows trap
their readers instead (04 R127, 05 R170, 06 R202, 09 R291). -/
def protectedEngine (off : Nat) : Option Nat :=
  let o := off % 0x10000
  let within := fun (lo hi : Nat) => decide (lo ≤ o) && decide (o < hi)
  match off / 0x10000 with
  | 0x24 => if within 0xA900 0xA918 || within 0xAA00 0xAD00 then some 3 else none
  | 0x25 => if within 0xA900 0xA918 || within 0xAA00 0xAD00 then some 3 else none
  | 0x27 =>
    let k := off % 0x1000
    if within 0x8000 0x8100 then some 2
    else if within 0xC000 0xE000 && (decide (k < 0x48) || (decide (0x80 ≤ k) && decide (k < 0x90)) || k == 0x200
      || (decide (0x400 ≤ k) && decide (k < 0x700))) then some 2 else none
  | 0x28 => if 0xC000 ≤ o then some 2 else none
  | 0x2A => if within 0x4000 0x8000 then some 0 else none
  | 0x2D => if o < 0xC0 then some 0 else none
  | b =>
    if b ≠ 0x2B ∧ b ≠ 0x2C then none
    else if within 0x8000 0x8190 || within 0x6400 0x6480 then some 0
    else if o = 0x7010 then some 2
    else if o = 0x7018 then some 3
    else if o = 0x7020 ∨ o = 0x6280 ∨ within 0x6000 0x6140 then some 4
    else if within 0x5180 0x5188 || within 0x5200 0x5310 || within 0x5400 0x5680 || within 0x5800 0x6000 || o == 0x7008 then some 1
    else none

/-- The handle whose word lies at a window offset (10 R319). -/
def handleAt (off : Nat) : Option (Bool × Nat) :=
  match blockOf off with
  | some (c, o) => if 0x5700 ≤ o ∧ o < 0x5800 then some (c, (o - 0x5700) / 16) else none
  | none => none

/-- One word of a unit's protected state is checked: a correctable error is corrected and logged; an uncorrectable one tears the
circuit of its handle, or freezes the context. -/
def State.checkState (s : State) (u : Nat) (c : Bool) (pa : Nat) : State :=
  let off := pa % 2 ^ 22
  let s := match s.flips.find pa with
    | none => s
    | some f => let s := s.checkWord (agentOf u c) pa; { s with flips := s.flips.del pa }
  let s := { s with agenda := s.agenda.filter fun e => e.2 != .eccWriteback pa }
  if !s.poisoned pa then s
  else match handleAt off with
    | some (c, h) => (s.clearPoison pa).tearCircuit u (.handle c h) 7
    | none => match protectedEngine off with
      | some e => if (s.ctx u c).stopped then s else s.freezeTrap u c { dataError e off with pos := (s.ctx u c).pc }
      | none => s

/-- The running context of a unit that acts in this cycle. -/
def State.actsNow (s : State) (u : Nat) : Bool :=
  let t := s.tile u
  let x := t.ctx t.run
  if isSteward u then t.started && !t.halted else x.life == .running && !x.stopped && (!x.frozen || t.stepping.isSome)

/-- At the beginning of its turn a unit's protected words are checked, those of its running context (log entry 55). -/
def State.checkProtected (s : State) (u : Nat) : State :=
  if (s.flips.isEmpty && s.poison.isEmpty) || !s.actsNow u then s
  else
    let c := (s.tile u).run
    let ours := fun (pa : Nat) => pa / 2 ^ 22 == windowPA u 0 / 2 ^ 22 && (s.tile u).targetContext (pa % 2 ^ 22) == c
      && ((protectedEngine (pa % 2 ^ 22)).isSome || (handleAt (pa % 2 ^ 22)).isSome)
    ((s.flips.map (·.1) ++ s.poison.map (·.1)).eraseDups.filter ours).foldl (fun s pa => s.checkState u c pa) s

/-! ### Words outside the windows -/

/-- An uncorrectable error freezes a job: a whistle of cause 0x13 from a unit, whose die's first tile begins the wave. -/
def State.freezeJob (s : State) (id : BitVec 32) (unit : Nat) : State :=
  match s.jobSlot id with
  | none => s
  | some j => s.originate j unit 0 0x13 0 (dieOf unit / 2 * 12) (dieOf unit % 2 * 16)

/-- An uncorrectable error reported to a steward by freezing it (14 R412, 15 R427): the control-space word is named. -/
def State.freezeSteward (s : State) (u off : Nat) : State := s.freezeTrap u false (dataError 0 (controlPA off))

/-- The die of an entry of a reservation table: of a framed link, the lower one of its pair. -/
def dieOfEntry (off : Nat) : Nat :=
  if off < 0x90000 then (off - 0x80000) / 0x100 / 12
  else if off < 0x94000 then (off - 0x90000) / 0x80 / 18
  else dieOfLink (72 + 60 * ((off - 0x94000) % 0x10000 / 0x2000))

/-- The circuit of a reservation is torn with cause 7 (12 R364). -/
def State.tearReserved (s : State) (entry : Nat) : State :=
  match s.resv.find entry with
  | none => s
  | some r => let s := s.tearReservation (dieOfEntry entry) r.cid 7
    { s with resv := s.resv.del entry }

/-- An uncorrectable error in a word of state that no window shows, or that control space shows. -/
def State.spoil (s : State) (w : Protected) : State :=
  match w with
  | .boundaryUnit j => s.freezeJob (s.job j).id 0
  | .context u c e =>
    let x := s.ctx u c
    if x.life == .running || isSteward u then s.freezeTrap u c { dataError e 0 with pos := x.pc } else s
  | .contention page =>
    match s.contention.find? fun e => e.page == page with
    | none => s
    | some e =>
      if e.migrated then
        match (List.range 8).find? fun j => (s.job j).opened && (s.job j).tracks (1024 * page) with
        | some j => s.freezeJob (s.job j).id (768 + 4 * dieOfPage page)
        | none => s
      else { s with contention := s.contention.filter fun e => e.page != page }
  | .lineMonitor u => s.wakeMonitor u 3
  | .meter u k => s.tearCircuit u (.meter k) 7
  | .reservation entry => s.tearReserved entry
  | .placement p => s.freezeJob (s.placement p).job (768 + 4 * dieOf ((s.placement p).tiles.head?.getD 0))
  | .shadow k =>
    match s.shadows.find k with
    | none => s
    | some h => s.freezeJob (s.job h.slot).id h.steward
  | .tlb u k => s.mod u fun t => { t with tlb := t.tlb.eraseIdx k }
  | .walkCache d k => { s with walkCache := s.walkCache.put d ((s.walkCache.look [] d).eraseIdx k) }
  | .table off => s.setPoison (controlPA off)
  | .routeUnit d => s.freezeJob (s.routeUnit.look {} d).job (768 + 4 * d)
  | .monitor true inst k => { s with dieMon := s.dieMon.put (8 * inst + k) {} }
  | .monitor false u k => s.mod u fun t => { t with mon := t.mon.put k {} }
  | .cause j => (s.modJob j fun b => { b with settled := false }).freezeSteward 768 (0xE0000 + 0x40 * j)
  | .securityKey => { s with spdm := { s.spdm with session := false, exchange := none } }
  | .status => s.freezeSteward 768 0xF0000

/-! ### The debugger rewrites a cause register (14 R412) -/

/-- A job slot whose cause register takes a word from the debugger. -/
def Job.causePut (b : Job) (w : Nat) (v : Word) : Job :=
  let was : Whistle := b.winner.getD { time := 0, frac := 0, dev := 0, tile := 0, eng := 0, cause := 0, info0 := 0 }
  match w with
  | 0 => { b with settled := b.valid && v.getLsbD 62, nwh := (v.extractLsb' 40 8).toNat }
  | 1 => { b with winner := some { was with
      dev := (v.extractLsb' 32 10).toNat, tile := (v.extractLsb' 16 10).toNat, eng := (v.extractLsb' 8 3).toNat
      cause := (v.extractLsb' 0 8).toNat } }
  | 2 => { b with winner := some { was with time := v.toNat } }
  | 3 => { b with winner := some { was with frac := (v.extractLsb' 0 16).toNat } }
  | 4 => { b with ltime := v.toNat }
  | 5 => { b with wphase := v.toNat }
  | 6 => { b with ref := v.toNat }
  | _ => { b with winner := some { was with info0 := v } }

/-- A write of control space by the debugger: a cause register whose SETTLED an error has cleared takes whole words (log entry 55). -/
def State.debugControl (s : State) (off n v : Nat) : State :=
  let j := (off - 0xE0000) / 0x40
  let b := s.job j
  if 0xE0000 ≤ off ∧ off < 0xE0200 ∧ off % 8 = 0 ∧ n = 8 then
    if b.valid && !b.settled && decide (b.lcycle + 3400 < s.cycle) then
      s.modJob j fun b => b.causePut (off % 0x40 / 8) (BitVec.ofNat 64 v)
    else s
  else s.controlWrite off n v

/-! ### Inputs that no row of the opcode table is (08 R233, R247, R258; 11 R335) -/

/-- The host stores up to 64 bytes of its memory, at the home agent or, in a coherent window, in a cache of its own: device reads see
them from now on, and an armed monitor of the line wakes (08 R233, R247, R258). -/
def State.hostStored (s : State) (addr n : Nat) (v : BitVec 512) : State :=
  s.storePA (2 ^ 52 + addr % 2 ^ 48) (min n 64) v.toNat

/-- What an input that is no row of the opcode table does. -/
def execOutside (o : Outside) (s : State) : Host.Outcome State Fault Refusal :=
  .next <|
    match o with
    | .hostStore addr n v => s.hostStored addr n v
    | .hostCache addr => s.wakeMonitors none (2 ^ 52 + addr % 2 ^ 48 / 64 * 64) 64
    | .membersEnded p => s.modPlacement p fun e => { e with farEnded := true }
    | .arrayError pa mask check => s.invert (pa / 8 * 8) mask check false
    | .stateError w => s.spoil w

end Sys2Proof.Machine
end

