-- ==== Sys2Proof/Machine/Startup.lean ====
section
/-!
DEFINITION. Power-on, firmware verification, identity and configuration, links, temperature and the removal of power (10
R323, R324; 15 R413 to R418, R420, R423, R424, R426).
-/
namespace Sys2Proof.Machine

/-! ### What the sideband reports (15 R423) -/

/-- The module state sensor: 0 booting, 1 ready, 2 replacement requested, 3 failed. -/
def State.moduleState (s : State) : Nat :=
  if s.boot.failed then 3 else if !(s.tile 768).started then 0 else if s.boot.rreq then 2 else 1

/-- The state sensors: the module, the fabric ports, the Nuton width. -/
def State.stateSensors (s : State) : List Nat :=
  s.moduleState :: (List.range 72).map (fun p => (s.links.look {} p).state) ++ [s.nutonWidth]

/-- An event of state sensor `i` that changed to `v`, over the sideband; sensor numbers are the model's (log entry 9). -/
def sensorEvent (i v : Nat) : Outgoing := .sideband [BitVec.ofNat 8 (21 + i), BitVec.ofNat 8 v]

/-- Every state sensor that changed is reported. -/
def State.tellSensors (s : State) : State :=
  let now := s.stateSensors
  if !s.boot.aux || s.sensors.told == now then s
  else
    let changed := ((List.range now.length).zip now).filter fun e => s.sensors.told[e.1]? != some e.2
    let s := changed.foldl (fun s e => s.emit (sensorEvent e.1 e.2)) s
    { s with sensors := { s.sensors with told := now } }

/-! ### Signed images (15 R415, R416) -/

/-- Bytes 0 to 63 of a header. -/
def imageHead (i : SignedImage) : BitVec 512 :=
  BitVec.ofNat 512 (i.magic.toNat + i.kind % 2 ^ 32 * 2 ^ 32 + i.svn % 2 ^ 32 * 2 ^ 64 + i.length % 2 ^ 32 * 2 ^ 96
    + i.digest.toNat * 2 ^ 128)

/-- The failure detail of an image of a kind, 0 if it is accepted: the checks in their order. -/
def imageCheck (i : SignedImage) (kind : Nat) : Nat :=
  if i.magic ≠ 0x4B494D47 ∨ i.kind ≠ kind ∨ i.reservedZero = false then 1
  else if !Config.ecdsaOk (imageHead i) i.esig then 2
  else if !Config.lmsOk (imageHead i) i.lsig then 3
  else if Config.sha384 (i.body.take i.length) ≠ i.digest ∨ i.body.length < i.length then 4
  else 0

/-- The first image of a kind. -/
def Boot.image (b : Boot) (kind : Nat) : Option SignedImage := b.images.find? fun i => i.kind == kind

/-- An image is accepted: it joins the measurements. -/
def Boot.accept (b : Boot) (i : SignedImage) : Boot := { b with accepted := b.accepted ++ [(i.kind, i.digest, i.svn)] }

/-! ### Configuration (15 R418) -/

/-- A configuration item applied; `none` if it is unknown or out of range. -/
def State.applyItem (s : State) : ConfigItem → Option State
  | .deviceId d => if d < 576 then some { s with device := d } else none
  | .planeMap port plane =>
    if port < 72 ∧ plane < 72 then some { s with boot := { s.boot with planeMap := s.boot.planeMap.put port plane } } else none
  | .laneTiming item v => some { s with boot := { s.boot with laneTiming := s.boot.laneTiming.put item v } }
  | .sidebandAddress a => if a < 128 then some { s with boot := { s.boot with sideband := a } } else none
  | .servoWord w => if w &&& ~~~0xF7F#64 = 0 then some { s with servo := { s.servo with config := w } } else none
  | .warnLimit q => if q ≤ 380 then some { s with sensors := { s.sensors with warn := q } } else none
  | .criticalLimit q => if q ≤ 420 then some { s with sensors := { s.sensors with critical := q } } else none
  | .unknown _ => none

/-- The items of an image, in order. -/
def State.applyItems (s : State) : List ConfigItem → Option State
  | [] => some s
  | i :: is =>
    match s.applyItem i with
    | none => none
    | some s => s.applyItems is

/-- The configuration images, in order: the state, or the failure detail. -/
def State.configure (s : State) : List SignedImage → State ⊕ Nat
  | [] => .inl s
  | i :: is =>
    if i.kind = 1 ∨ i.kind = 2 then s.configure is
    else if i.kind ≠ 3 then .inr 5
    else if imageCheck i 3 ≠ 0 then .inr (imageCheck i 3)
    else match s.applyItems i.items with
      | none => .inr 6
      | some s => { s with boot := s.boot.accept i }.configure is

/-! ### The stages (15 R413, R414, R417, R424) -/

/-- The module as a reset of it leaves it: what is in board flash, host memory, the sensors' readings and what has left the
module stay. -/
def State.restart (s : State) (images : List SignedImage) (helper : Bool) : State :=
  { State.reset with
    mem := s.mem.filter fun e => decide (2 ^ 52 ≤ e.1) && decide (e.1 < 2 ^ 53)
    fresh := s.fresh, out := s.out
    sensors := { die := s.sensors.die, stack := s.sensors.stack, power := s.sensors.power, told := s.sensors.told }
    boot := { images := images, helper := helper, aux := true, stage := 1 } }

/-- Start-up fails in its stage with a detail; the auxiliary domain goes on. -/
def State.startFails (s : State) (detail : Nat) (unit : BitVec 16 := 0) : State :=
  { s with
    power := false
    boot := { s.boot with failed := true, error := BitVec.ofNat 16 (s.boot.stage * 256 + detail), unit := unit } }

/-- The next stage begins; the fourth raises the main rails. -/
def State.nextStage (s : State) : State :=
  { s with power := s.power || s.boot.stage == 3, boot := { s.boot with stage := s.boot.stage + 1 } }

/-- Digests and security version numbers of measurements 1 to 3, as the alias key depends on them. -/
def Boot.layer (b : Boot) : Nat :=
  [1, 2].foldl (fun n k => match b.image k with
    | some i => n * 2 ^ 416 + i.digest.toNat * 2 ^ 32 + i.svn % 2 ^ 32
    | none => n * 2 ^ 416) Config.romVersion.toNat

/-- Identity (15 R417). -/
def State.identify (s : State) : State :=
  if !s.boot.helper then s.startFails 1
  else match Config.pufSecret s.fresh with
    | none => s.used.startFails 2
    | some k =>
      { s.used with boot := { s.boot with
          secret := some k, devId := some (Config.deriveKey k 0), aliasKey := some (Config.deriveKey k (1 + s.boot.layer)) } }.nextStage

/-- The code lines of a body, from line 0 on, into the instruction store of a steward. -/
def State.loadFirmware (s : State) (u : Nat) (body : List Byte) : State :=
  let n := min 4096 ((body.length + 63) / 64)
  let line := fun (i : Nat) => ((body.drop (64 * i)).take 64).foldr (fun b v => b.toNat + 256 * v) 0
  let s := (List.range n).foldl (fun s i =>
    (s.storePA (windowPA u (lineOffset i)) 64 (line i)).mod u fun t => { t with tags := t.tags.put i (some (false, i)) }) s
  let q := s.queueAt u false 0
  s.mod u fun t => { t with started := true, ctxA := { t.ctxA with queue := q, life := .running } }

/-- The digest of a training leaves by the link in its first control flit; that of a sub-link stays in the module (10 R323). -/
def State.sendDigest (s : State) (l : Nat) (d : Word) : State := if l < 72 then s.emit (.digest l d) else s

/-- What digests that match make of a link: UP, or DEGRADED with fewer than 4 lanes (10 R323). -/
def matchedState (d : Word) : Nat := if (d.extractLsb' 0 8).toNat < 4 then 2 else 1

/-- A link that training at start-up has left UP or DEGRADED with a number of lanes, with the digest both ends sent. -/
def State.linkUp (s : State) (l lanes : Nat) : State :=
  let d := (Config.freeWord s.fresh &&& 0x0000FFFFFFFF0000#64) ||| BitVec.ofNat 64 (lanes % 256)
  (s.used.modLink l fun k => { k with
    state := if lanes < 4 then 2 else 1, lat := Config.trainingLatency l % 65536, ldig := d, rdig := d }).sendDigest l d

/-- STARTUP_STAGE_COMPLETE (15 R413): the work of the stage has ended with the result given. -/
def execStartupStageComplete (r : StageResult) (s : State) : Host.Outcome State Fault Refusal :=
  let run : State :=
    if !s.boot.aux || s.boot.failed then s
    else match s.boot.stage with
      | 1 =>
        match s.boot.image 1 with
        | none => s.startFails 1
        | some i => if imageCheck i 1 ≠ 0 then s.startFails (imageCheck i 1) else { s with boot := s.boot.accept i }.nextStage
      | 2 => s.identify
      | 3 =>
        match s.configure s.boot.images with
        | .inl s => s.nextStage
        | .inr d => s.startFails d
      | 4 =>
        match r.badUnit with
        | some u => s.startFails 1 u
        | none => ((r.benched.filter (· < 768)).foldl State.benchTile s).nextStage
      | 5 =>
        if r.badStack then s.startFails 1
        else if r.badSublink then s.startFails 2
        else ((List.range 240).foldl (fun s i => s.linkUp (72 + i) 4) s).nextStage
      | 6 =>
        if r.nuton < 8 then s.startFails 1
        else
          let s := (List.range 72).foldl (fun s p =>
            if r.portsUp.contains p then s.linkUp p ((r.narrow.find? (·.1 == p)).elim 4 (·.2)) else s.modLink p fun k => { k with state := 4 }) { s with nutonWidth := r.nuton }
          let s := if s.servo.isMaster then s.schedule (s.cycle + s.servo.interval) .syncInterval else s
          s.nextStage
      | 7 =>
        if (s.tile 768).started then s
        else match s.boot.image 2 with
          | none => s.startFails 1
          | some i =>
            if imageCheck i 2 ≠ 0 then s.startFails (imageCheck i 2)
            else (List.range 16).foldl (fun s k => s.loadFirmware (768 + k) (i.body.take i.length))
              { s with boot := s.boot.accept i }
      | _ => s
  .next run.tellSensors

/-- AUX_POWER_ON (15 R413): the auxiliary supply comes up, and start-up begins at stage 1. -/
def execAuxPowerOn (images : List SignedImage) (helper : Bool) (s : State) : Host.Outcome State Fault Refusal :=
  .next (if s.boot.aux then s else (s.restart images helper).tellSensors)

/-- MODULE_RESET (15 R413). -/
def execModuleReset (s : State) : Host.Outcome State Fault Refusal :=
  .next (if s.boot.aux then (s.restart s.boot.images s.boot.helper).tellSensors else s)

/-! ### Links (10 R323, R324; 12 R363; 15 R420) -/

/-- A link enters QUARANTINE (10 R323). -/
def State.quarantine (s : State) (l : Nat) : State :=
  let up := (s.links.look {} l).up
  let s := s.modLink l fun k => { k with state := 3, qcnt := cap32 (k.qcnt + 1) }
  let s := if up then s.linkLeaves l else s
  let k := s.links.look {} l
  let s := s.schedule (s.cycle + 850000) (.quarantineRetrain l)
  s.pend (768 + 4 * dieOfLink l) false { cause := 0x31, i0 := BitVec.ofNat 64 l, i1 := k.ldig, i2 := k.rdig }

/-- LINK_TRAINED (10 R323): a link in TRAINING has trained and its digests are sent; those that match bring it up. -/
def execLinkTrained (l : Nat) (ldig rdig : Word) (lat : Nat) (s : State) : Host.Outcome State Fault Refusal :=
  .next <|
    if (s.links.look {} l).state ≠ 0 then s
    else
      let s := (s.modLink l fun k => { k with ldig := ldig, rdig := rdig, lat := lat % 65536 }).sendDigest l ldig
      if ldig = rdig then s.modLink l fun k => { k with state := matchedState ldig, tries := 0 }
      else s.quarantine l

/-- QUARANTINE_RETRAIN (10 R323): three retrains, then DOWN. -/
def execQuarantineRetrain (l : Nat) (s : State) : Host.Outcome State Fault Refusal :=
  let k := s.links.look {} l
  .next (if k.state ≠ 3 then s
    else s.modLink l fun k => if k.tries < 3 then { k with state := 0, tries := k.tries + 1 } else { k with state := 4 })

/-- LINK_FAILURE (10 R322, 12 R363): a link that was UP trains again. -/
def execLinkFailure (l : Nat) (s : State) : Host.Outcome State Fault Refusal := .next (s.trainLink l)

/-- RETRAIN_WRITE (10 R324). -/
def execRetrainWrite (agent : Nat) (l : Nat) (s : State) : Host.Outcome State Fault Refusal :=
  let off := if l < 72 then 0x30000 + 0x20 * l else 0x32000 + 0x800 * ((l - 72) / 60) + 0x20 * ((l - 72) % 60)
  .next (s.agentControl agent off 8 (2 ^ 60))

/-- NUTON_RETRAIN (15 R420): every armed monitor loses its line, and the new width is noticed at die 0. -/
def execNutonRetrain (width : Nat) (s : State) : Host.Outcome State Fault Refusal :=
  let armed := (s.units.filter fun e => e.2.lmon.line.isSome).map (·.1)
  let s := armed.foldl (fun s u => s.due (.monitorLoss u)) { s with nutonWidth := width }
  .next (s.notice 0 (5 + width % 64 * 256))

/-- A stream whose access has not been answered faults at element `i` (09 R281). -/
def State.streamTimesOut (s : State) (u : Nat) (c : Bool) (k i : Nat) : State :=
  match (s.ctx u c).streams.find k with
  | none => s
  | some t =>
    if t.state = 1 ∨ 4 ≤ t.kind then s
    else
      let s := s.modCtx u c fun x => { x with streams := x.streams.put k { t with state := 0, done := min i t.cnt, sent := 0 } }
      s.streamFaults u c k (descAddr t.desc (t.start + min i t.cnt)) { cause := 0x14, recorded := false }

/-- HOST_ACCESS_TIMEOUT (15 R420): the remote fault at its element; the strip that stands in it stops. From 65,536 on the element is
65,536 + 2,048 times an entry of the stream queue + an element of that stream, and the stream stops (09 R281; log entry 48). -/
def execHostAccessTimeout (u : Nat) (c : Bool) (elem : Nat) (s : State) : Host.Outcome State Fault Refusal :=
  .next <|
    if 65536 ≤ elem then s.streamTimesOut u c ((elem - 65536) / 2048) (elem % 2048)
    else
      let p := (s.ctx u c).access
      let s := if p.state = 2 then s.modStrip u c 1 fun p => { p with state := 5 } else s
      s.used.pend u c {
        cause := 0x14, eng := 1, i0 := Config.freeWord s.fresh, i3 := BitVec.ofNat 64 elem, pos := p.pos, ust := p.ust, rank := 1 }

/-! ### Temperature and power (15 R426) -/

/-- A sensor's reading. -/
def State.readTemperature (s : State) (die sensor reading : Nat) : State :=
  let k := 8 * die + sensor
  let s := { s with sensors := { s.sensors with die := s.sensors.die.put k reading } }
  if s.sensors.critical ≤ reading then
    if (s.sensors.hot.find k).isSome then s
    else { s with sensors := { s.sensors with hot := s.sensors.hot.put k s.cycle } }.schedule (s.cycle + 850000)
      (.criticalTemperature die sensor)
  else
    { s with
      sensors := { s.sensors with hot := s.sensors.hot.del k }
      agenda := s.agenda.filter fun e => e.2 != .criticalTemperature die sensor }

/-- TEMPERATURE_WARNING (15 R426). -/
def execTemperatureWarning (die sensor reading : Nat) (s : State) : Host.Outcome State Fault Refusal :=
  let s := s.readTemperature die sensor reading
  .next <|
    if reading < s.sensors.warn then s
    else (s.notice die (4 + sensor % 8 * 256 + reading % 65536 * 65536)).emit
      (.sideband [BitVec.ofNat 8 die, BitVec.ofNat 8 reading, BitVec.ofNat 8 (reading / 256)])

/-- CRITICAL_TEMPERATURE (15 R426): every open job is whistled, and the rails go 10 ms later. -/
def execCriticalTemperature (_die _sensor : Nat) (s : State) : Host.Outcome State Fault Refusal :=
  let s := (List.range 8).foldl (fun s j => if (s.job j).opened then s.originate j 0x3FF 0 0x22 0x7E 0 0 else s) s
  .next (s.schedule (s.cycle + 8500000) .railRemoval)

/-- RAIL_REMOVAL (15 R426). -/
def execRailRemoval (s : State) : Host.Outcome State Fault Refusal :=
  .next ({ s with power := false, ready := [], agenda := [], boot := { s.boot with failed := true, error := 0x0F01 } }.tellSensors)

/-- HEALTH_MONITOR_SAMPLE (13 R385): a periodic source; a temperature is its sensor's reading. -/
def execHealthMonitorSample (die : Bool) (inst src sel value : Nat) (s : State) : Host.Outcome State Fault Refusal :=
  let s := if die then s.dieSample inst src sel value else s.sample inst src value
  .next <|
    if die && src == 10 then
      let before := s.sensors.die.look 0 (8 * inst + sel)
      let s := s.readTemperature inst sel value
      if before < s.sensors.warn && decide (s.sensors.warn ≤ value) then s.due (.temperatureWarning inst sel value) else s
    else s

end Sys2Proof.Machine
end

