-- ==== Sys2Proof/Machine/Outside.lean ====
section
/-!
DEFINITION. What comes from outside the core: the host aperture, writes of windows and registers by an agent, the sideband
with its debug messages, sensors and attestation (07 R218, R221; 08 R234; 09 R265, R282; 10 R303, R304; 13 R373, R377, R385;
14 R409; 15 R419 to R423).
-/
namespace Sys2Proof.Machine

/-- A little-endian value as bytes. -/
def bytesOf (v n : Nat) : List Byte := (List.range n).map fun i => BitVec.ofNat 8 (bits v (8 * i) 8)

/-! ### The host aperture (15 R421) -/

/-- The host writes HBM (08 R234): a tracked line takes its stamp, another becomes empty. -/
def State.hostWrite (s : State) (pa n v : Nat) : State :=
  (linesOf pa n).foldl (fun s l =>
    let tracked := (List.range 8).any fun j => (s.job j).opened && (s.job j).tracks l
    s.setStamp l (if tracked then mkStamp 0 0xFFF else 0xFFD)) ((s.scrub 0xFFF pa n).storePA pa n v)

/-- HOST_APERTURE_ACCESS (15 R421). -/
def execHostApertureAccess (a : ByteAccess) (s : State) : Host.Outcome State Fault Refusal :=
  let n := min a.size 64
  let win := a.addr - 2 ^ 40
  let ctl := a.addr - 0x11000000000
  let answer := fun (s : State) (v : Nat) => s.emit (.host (bytesOf v n))
  .next <|
    if s.power && decide (a.addr + n ≤ 2 ^ 40) then
      if a.write then s.hostWrite a.addr n a.data.toNat
      else
        let s := s.scrub 0xFFF a.addr n
        answer s (s.loadPA a.addr n)
    else if s.power && decide (2 ^ 40 ≤ a.addr) && decide (win + n ≤ 784 * 2 ^ 22) then
      let u := win / 2 ^ 22
      if a.write then s.agentWindow 0xFFF u (win % 2 ^ 22) n a.data.toNat
      else answer (s.scrub 0xFFF (windowPA u (win % 2 ^ 22)) n) (s.windowRead u (win % 2 ^ 22) n)
    else if s.power && decide (0x11000000000 ≤ a.addr) && decide (ctl + n ≤ 2 ^ 32) then
      if a.write then s else answer s (s.controlRead ctl n)
    else
      let s := s.emit (.hostUnsupported a.addr)
      if a.write then s else answer s (2 ^ 512 - 1)

/-! ### Writes of words by an agent -/

/-- The window offset of a context's control-core block. -/
def blockBase (c : Bool) : Nat := if c then 0x2C0000 else 0x2B0000

/-- BARRIER_PLANE_WRITE (01 R36). -/
def execBarrierPlaneWrite (agent j : Nat) (v : Word) (s : State) : Host.Outcome State Fault Refusal :=
  .next (if j < 8 then s.agentControl agent (0x50800 + 8 * j) 8 v.toNat else s)

/-- RFQ_SERVED (10 R303). -/
def execRfqServed (agent u : Nat) (c : Bool) (k : Nat) (s : State) : Host.Outcome State Fault Refusal :=
  .next (s.agentWindow agent u (blockBase c + 0x5800 + 0x20 * (k % 64)) 8 (2 ^ 62))

/-- RFQ_DEAD (10 R303). -/
def execRfqDead (agent u : Nat) (c : Bool) (k : Nat) (s : State) : Host.Outcome State Fault Refusal :=
  .next (s.agentWindow agent u (blockBase c + 0x5800 + 0x20 * (k % 64)) 8 (2 ^ 61))

/-- STREAM_RETRY (09 R282). -/
def execStreamRetry (agent u : Nat) (c : Bool) (k : Nat) (s : State) : Host.Outcome State Fault Refusal :=
  .next (s.agentWindow agent u (blockBase c + 0x5200 + 16 * (k % 16)) 8 (2 ^ 62))

/-- STRIP_STATUS_WRITE (09 R265). -/
def execStripStatusWrite (agent u : Nat) (c : Bool) (e : Nat) (v : Word) (s : State) : Host.Outcome State Fault Refusal :=
  .next (if 1 ≤ e ∧ e ≤ 4 then s.agentWindow agent u (blockBase c + 0x7000 + 8 * e) 8 v.toNat else s)

/-- TIMELINE_WINDOW_WRITE (13 R373). -/
def execTimelineWindowWrite (agent u : Nat) (c : Bool) (k : Nat) (v : Word) (s : State) : Host.Outcome State Fault Refusal :=
  .next (s.agentWindow agent u (blockBase c + 0x6400 + 8 * (k % 16)) 8 v.toNat)

/-- NOTICE_LINE_SET (10 R304). -/
def execNoticeLineSet (agent die : Nat) (v : Word) (s : State) : Host.Outcome State Fault Refusal :=
  .next (s.agentControl agent (0x31000 + 8 * (die % 4)) 8 v.toNat)

/-- ERROR_LOG_CLEAR (07 R221). -/
def execErrorLogClear (agent u a : Nat) (s : State) : Host.Outcome State Fault Refusal :=
  .next (s.agentWindow agent u (0x2E0000 + 0x20 * (a % 8)) 8 (2 ^ 63))

/-- TRACE_CONTROL_WRITE (14 R409). -/
def execTraceControlWrite (agent u : Nat) (v : Word) (s : State) : Host.Outcome State Fault Refusal :=
  .next (s.agentWindow agent u 0x2E3000 8 v.toNat)

/-- MONITOR_CONFIG_WRITE (13 R385): a monitor of a die, or of a tile. -/
def execMonitorConfigWrite (agent : Nat) (die : Bool) (inst k : Nat) (v : Word) (s : State) : Host.Outcome State Fault Refusal :=
  .next (if die then s.agentControl agent (0xC0000 + 0x1000 * (inst % 4) + 0x200 * (k % 8) + 0x118) 8 v.toNat
    else s.agentWindow agent inst (0x2E1000 + 0x200 * (k % 2) + 0x118) 8 v.toNat)

/-- ROUTE_UNIT_JOB_WRITE (13 R377). -/
def execRouteUnitJobWrite (agent die : Nat) (v : Word) (s : State) : Host.Outcome State Fault Refusal :=
  .next (s.agentControl agent (0x78000 + 0x1000 * (die % 4)) 8 v.toNat)

/-- WINDOW_WRITE (07 R218, 08 R230). -/
def execWindowWrite (agent : Nat) (a : ByteAccess) (s : State) : Host.Outcome State Fault Refusal := .next (s.agentWrite agent a)

/-! ### Debug messages (15 R422) -/

/-- A debug message acts only inside an SPDM session. -/
def inSession (s : State) (k : State → State) : Host.Outcome State Fault Refusal := .next (if s.spdm.session then k s else s)

/-- DEBUG_WINDOW_ACCESS (15 R422): windows and control space, with steward rights. -/
def execDebugWindowAccess (a : ByteAccess) (s : State) : Host.Outcome State Fault Refusal :=
  inSession s fun s =>
    let n := min a.size 64
    let u := bits a.addr 22 10
    let answer := fun (s : State) (v : Nat) => s.emit (.sideband (bytesOf v n))
    if (s.badPA true a.addr).isSome then s
    else match a.addr / 2 ^ 52 with
      | 0xE =>
        if a.write then (s.storeWindow u (bits a.addr 0 22) n a.data.toNat true).getD s
        else answer (s.scrub 0xFFF a.addr n) (s.windowRead u (bits a.addr 0 22) n)
      | 0xF => if a.write then s.debugControl (bits a.addr 0 32) n a.data.toNat else answer s (s.controlRead (bits a.addr 0 32) n)
      | _ => s

/-- DEBUG_WHISTLE (14 R398, 15 R422). -/
def execDebugWhistle (job : BitVec 32) (s : State) : Host.Outcome State Fault Refusal :=
  inSession s fun s => match s.jobSlot job with
    | some j => s.originate j 0x3FF 0 0x22 0 0 0
    | none => s

/-- DEBUG_RELEASE (14 R405, 15 R422). -/
def execDebugRelease (job : BitVec 32) (t : Word) (s : State) : Host.Outcome State Fault Refusal :=
  inSession s fun s => match s.jobSlot job with
    | some j =>
      if s.mayRelease j = false ∨ t.toNat < s.ns + 4000 ∨ s.ns + 2 ^ 32 < t.toNat then s
      else (s.sendWhistle 0 (s.releasePacket j 0x3FF 1 0 t.toNat)).releaseAt j t.toNat none
    | none => s

/-- DEBUG_STEP (14 R406, 15 R422): 0 a job, 1 one entry or micro-step of a tile, 2 one instruction of a tile. -/
def execDebugStep (kind : Nat) (a b : Word) (s : State) : Host.Outcome State Fault Refusal :=
  inSession s fun s => match kind with
    | 0 =>
      match s.jobSlot (a.extractLsb' 0 32) with
      | some j =>
        if b.toNat = 0 ∨ 2 ^ 32 ≤ b.toNat ∨ 2 ^ 32 ≤ a.toNat ∨ s.mayRelease j = false then s
        else (s.sendWhistle 0 (s.releasePacket j 0x3FF 2 b.toNat (s.ns + 4096))).releaseAt j (s.ns + 4096) (some b.toNat)
      | none => s
    | _ => if s.mayStep a.toNat && decide (kind ≤ 2) then s.beginStep a.toNat (kind == 2) else s

/-- DEBUG_HALT_STEWARD (15 R422). -/
def execDebugHaltSteward (k : Nat) (s : State) : Host.Outcome State Fault Refusal :=
  inSession s fun s => if k < 16 then s.mod (768 + k) fun t => { t with halted := true } else s

/-- DEBUG_RESTART_STEWARD (15 R422). -/
def execDebugRestartSteward (k : Nat) (s : State) : Host.Outcome State Fault Refusal :=
  inSession s fun s =>
    if k < 16 then s.mod (768 + k) fun t => { t with halted := false, ctxA := { t.ctxA with stopped := false } } else s

/-- DEBUG_RESET (15 R422). -/
def execDebugReset (s : State) : Host.Outcome State Fault Refusal :=
  inSession s fun s => (s.restart s.boot.images s.boot.helper).tellSensors

/-! ### Sensors (15 R423) -/

/-- The reading of a sensor, by the model's numbers (log entry 9): 0 to 3 dies, 4 to 19 stacks, 20 power, from 21 on the state
sensors. -/
def State.sensorReading (s : State) (i : Nat) : Option Nat :=
  if i < 4 then some ((List.range 8).foldl (fun m k => max m (s.sensors.die.look 0 (8 * i + k))) 0)
  else if i < 20 then some (s.sensors.stack.look 0 (i - 4))
  else if i = 20 then some s.sensors.power
  else s.stateSensors[i - 21]?

/-- PLDM_GET_SENSOR (15 R423). -/
def execPldmGetSensor (sensor : Nat) (s : State) : Host.Outcome State Fault Refusal :=
  .next <|
    if !s.boot.aux then s
    else match s.sensorReading sensor with
      | some v => s.emit (.sideband (0 :: bytesOf v 4))
      | none => s.emit (.sideband [0x80])

/-! ### Attestation (15 R419) -/

/-- A response: version 1.2, its code, two parameters, what follows. -/
def spdmResponse (code p1 p2 : Nat) (rest : List Byte) : List Byte :=
  [0x12, BitVec.ofNat 8 code, BitVec.ofNat 8 p1, BitVec.ofNat 8 p2] ++ rest

/-- ERROR with a code. -/
def State.spdmError (s : State) (code : Nat) : State := s.emit (.sideband (spdmResponse 0x7F code 0 []))

/-- A response leaves. -/
def State.spdmAnswer (s : State) (code p1 p2 : Nat) (rest : List Byte) : State := s.emit (.sideband (spdmResponse code p1 p2 rest))

/-- A request after the algorithms are agreed, once the alias key exists. -/
def State.attested (s : State) (k : BitVec 384 → State) : State :=
  match s.boot.aliasKey with
  | some key => if s.spdm.algorithmsDone then k key else s.spdmError 4
  | none => s.spdmError 4

/-- Byte `i` of a request. -/
def reqByte (req : List Byte) (i : Nat) : Nat := (req[i]?.getD 0).toNat

/-- A digest, big-endian. -/
def digestBytes (d : BitVec 384) : List Byte := (bytesOf d.toNat 48).reverse

/-- A measurement (15 R419). -/
def State.measurement (s : State) (i : Nat) : List Byte :=
  let of := fun (k : Nat) => (s.boot.accepted.filter (·.1 == k)).flatMap fun e => digestBytes e.2.1 ++ bytesOf e.2.2 4
  match i with
  | 1 => digestBytes Config.romVersion
  | 2 => of 1
  | 3 => of 2
  | 4 => of 3
  | 5 => bytesOf s.statusWord.toNat 8 ++ bytesOf s.bench.toNat 96
  | _ => []

/-- A request of the responder; none is served without auxiliary power. -/
def spdmRequest (s : State) (k : State → State) : Host.Outcome State Fault Refusal := .next (if s.boot.aux then k s else s)

/-- GET_VERSION (15 R419): the connection starts anew. -/
def execGetVersion (_req : List Byte) (s : State) : Host.Outcome State Fault Refusal :=
  spdmRequest s fun s =>
    { s with spdm := { versionDone := true } }.emit (.sideband [0x10, 0x04, 0, 0, 0, 1, 0x00, 0x12])

/-- GET_CAPABILITIES (15 R419): certificates, challenge, measurements with signature, key exchange; no pre-shared keys and no
mutual authentication. -/
def execGetCapabilities (_req : List Byte) (s : State) : Host.Outcome State Fault Refusal :=
  spdmRequest s fun s =>
    if s.spdm.versionDone then
      { s with spdm := { s.spdm with capsDone := true } }.spdmAnswer 0x61 0 0 ([0, 0, 0, 0] ++ bytesOf 0x2D6 4 ++ bytesOf 4096 4 ++ bytesOf 4096 4)
    else s.spdmError 4

/-- NEGOTIATE_ALGORITHMS (15 R419): ECDSA P-384 and SHA-384. -/
def execNegotiateAlgorithms (_req : List Byte) (s : State) : Host.Outcome State Fault Refusal :=
  spdmRequest s fun s =>
    if s.spdm.capsDone then
      { s with spdm := { s.spdm with algorithmsDone := true } }.spdmAnswer 0x63 0 0 (bytesOf 0x80 4 ++ bytesOf 0x02 4)
    else s.spdmError 4

/-- GET_DIGESTS (15 R419): slot 0 alone. -/
def execGetDigests (_req : List Byte) (s : State) : Host.Outcome State Fault Refusal :=
  spdmRequest s fun s => s.attested fun _ => s.spdmAnswer 0x01 0 1 (digestBytes (Config.sha384 (Config.certificate 0)))

/-- GET_CERTIFICATE (15 R419): a portion of the chain of slot 0; other slots are not supported. -/
def execGetCertificate (req : List Byte) (s : State) : Host.Outcome State Fault Refusal :=
  spdmRequest s fun s => s.attested fun _ =>
    if reqByte req 2 % 16 ≠ 0 then s.spdmError 1
    else
      let off := reqByte req 4 + 256 * reqByte req 5
      let rest := (Config.certificate 0).drop off
      let part := rest.take (reqByte req 6 + 256 * reqByte req 7)
      s.spdmAnswer 0x02 0 0 (bytesOf part.length 2 ++ bytesOf (rest.length - part.length) 2 ++ part)

/-- CHALLENGE (15 R419): signed by the alias key. -/
def execChallenge (req : List Byte) (s : State) : Host.Outcome State Fault Refusal :=
  spdmRequest s fun s => s.attested fun key =>
    if reqByte req 2 ≠ 0 then s.spdmError 1
    else
      let body := digestBytes (Config.sha384 (Config.certificate 0))
      s.spdmAnswer 0x03 0 1 (body ++ Config.sign key (req ++ body))

/-- GET_MEASUREMENTS (15 R419): how many, all, or one; signed by the alias key where the request asks it. -/
def execGetMeasurements (req : List Byte) (s : State) : Host.Outcome State Fault Refusal :=
  spdmRequest s fun s => s.attested fun key =>
    let i := reqByte req 3
    let wanted := if i = 0 then [] else if i = 0xFF then [1, 2, 3, 4, 5] else if i ≤ 5 then [i] else []
    let record := wanted.flatMap fun j => let m := s.measurement j; [BitVec.ofNat 8 j, 1] ++ bytesOf m.length 2 ++ m
    let body := [BitVec.ofNat 8 wanted.length] ++ bytesOf record.length 3 ++ record
    let signed := if reqByte req 2 % 2 = 1 then body ++ Config.sign key (req ++ body) else body
    if 5 < i ∧ i ≠ 0xFF then s.spdmError 1 else s.spdmAnswer 0x60 (if i = 0 then 5 else 0) 0 signed

/-- KEY_EXCHANGE (15 R419). -/
def execKeyExchange (req : List Byte) (s : State) : Host.Outcome State Fault Refusal :=
  spdmRequest s fun s => s.attested fun key =>
    if reqByte req 3 ≠ 0 then s.spdmError 1
    else
      let shared := Config.sharedSecret key req
      { s with spdm := { s.spdm with exchange := some shared } }.spdmAnswer 0x64 0 0 (Config.sign key req)

/-- FINISH (15 R419): the session is open if the request checks against the shared secret of the key exchange. -/
def execFinish (req : List Byte) (s : State) : Host.Outcome State Fault Refusal :=
  spdmRequest s fun s => s.attested fun _ =>
    match s.spdm.exchange with
    | none => s.spdmError 4
    | some k =>
      if Config.finishOk k req then { s with spdm := { s.spdm with session := true } }.spdmAnswer 0x65 0 0 []
      else s.spdmError 6

/-- END_SESSION (15 R419). -/
def execEndSession (_req : List Byte) (s : State) : Host.Outcome State Fault Refusal :=
  spdmRequest s fun s =>
    if s.spdm.session then { s with spdm := { s.spdm with session := false, exchange := none } }.spdmAnswer 0x6C 0 0 []
    else s.spdmError 4

/-- SPDM_UNSUPPORTED_REQUEST (15 R419). -/
def execSpdmUnsupportedRequest (req : List Byte) (s : State) : Host.Outcome State Fault Refusal :=
  spdmRequest s fun s => s.emit (.sideband (spdmResponse 0x7F 7 (reqByte req 1) []))

end Sys2Proof.Machine
end

