-- ==== Sys2Proof/Machine/Predicates.lean ====
section
/-!
DEFINITION. The compare, predicate and select instructions of the control core (04 R120, R121).
-/
namespace Sys2Proof.Machine

/-- The predicate that D names. -/
def predD (o : CoreForm) : Nat := o.d.toNat % 16

/-- CMP (04 R121). -/
def execCmp (o : CoreForm) (s : State) : Host.Outcome State Fault Refusal :=
  coreInstr o { usesAB o with writes := [.preg (predD o)] }
    (fun _ m vs => m.resultP (predD o) (intCondition o.x.toNat (nth vs 0) (nth vs 1))) s

/-- CMPI (04 R121). -/
def execCmpi (o : CoreForm) (s : State) : Host.Outcome State Fault Refusal :=
  coreInstr o { usesA o with writes := [.preg (predD o)] }
    (fun _ m vs => m.resultP (predD o) (intCondition o.x.toNat (nth vs 0) (simm o))) s

/-- FCMP (04 R121), 2 cy. -/
def execFcmp (o : CoreForm) (s : State) : Host.Outcome State Fault Refusal :=
  coreInstr o { usesAB o with writes := [.preg (predD o)] } (fun _ m vs =>
    let f := fmtOf o
    let v := f.condition o.x.toNat (f.operand (nth vs 0)) (f.operand (nth vs 1))
    .done ((m.modMe fun x => { x with busy := .preg (predD o) :: x.busy }).schedule (m.cycle + 2)
      (.pipelinedResultWrite m.cur.unit m.bank (.preg (predD o)) (if v then 1 else 0) 0 0))) s

/-- PAND, POR, PXOR with the inversions X[0] to X[2] (04 R121). -/
def predicateOp (o : CoreForm) (f : Bool → Bool → Bool) (s : State) : Host.Outcome State Fault Refusal :=
  let a := o.a.toNat % 16
  let b := o.b.toNat % 16
  coreInstr o { preds := [a, b], writes := [.preg (predD o)] } (fun _ m _ =>
    m.resultP (predD o)
      ((f (m.me.readP a != o.x.getLsbD 0) (m.me.readP b != o.x.getLsbD 1)) != o.x.getLsbD 2)) s

/-- PAND (04 R121). -/
def execPand (o : CoreForm) (s : State) : Host.Outcome State Fault Refusal := predicateOp o (· && ·) s
/-- POR (04 R121). -/
def execPor (o : CoreForm) (s : State) : Host.Outcome State Fault Refusal := predicateOp o (· || ·) s
/-- PXOR (04 R121). -/
def execPxor (o : CoreForm) (s : State) : Host.Outcome State Fault Refusal := predicateOp o (· != ·) s

/-- PSET (04 R121). -/
def execPset (o : CoreForm) (s : State) : Host.Outcome State Fault Refusal :=
  coreInstr o { writes := [.preg (predD o)] } (fun _ m _ => m.resultP (predD o) (o.imm.getLsbD 0)) s

/-- The eight predicates of half X[0]. -/
def halfOf (o : CoreForm) : List Nat := (List.range 8).map fun i => (if o.x.getLsbD 0 then 8 else 0) + i

/-- PPACK (04 R121). -/
def execPpack (o : CoreForm) (s : State) : Host.Outcome State Fault Refusal :=
  coreInstr o { preds := halfOf o, writes := [.sreg o.d.toNat] } (fun _ m _ =>
    m.result o.d.toNat ((if o.x.getLsbD 0 then m.me.p.extractLsb' 8 8 else m.me.p.extractLsb' 0 8).setWidth 64)) s

/-- PUNPK (04 R121). -/
def execPunpk (o : CoreForm) (s : State) : Host.Outcome State Fault Refusal :=
  coreInstr o { reads := [(o.a.toNat, o.la)], writes := (halfOf o).map .preg } (fun _ m vs =>
    .done (m.modMe fun x => (List.range 8).foldl (fun x i =>
      x.writeP ((if o.x.getLsbD 0 then 8 else 0) + i) ((nth vs 0).getLsbD i)) x)) s

/-- SEL (04 R121). -/
def execSel (o : CoreForm) (s : State) : Host.Outcome State Fault Refusal :=
  let p := o.x.toNat % 16
  coreInstr o { usesAB o with preds := [p] }
    (fun _ m vs => m.result o.d.toNat (if m.me.readP p then nth vs 0 else nth vs 1)) s

end Sys2Proof.Machine
end

