-- ==== Sys2Proof/Machine/Vector.lean ====
section
/-!
DEFINITION. The arithmetic, bit, transcendental, compare, select and mask instructions of the vector strip, threshold
counting and selection (05 R143 to R152).
-/
namespace Sys2Proof.Machine

/-! ### Shapes -/

/-- D, A of a VR instruction. -/
def vrA (o : VRForm) (lat : Nat := 4) (round : Nat := 0) : VectorSpec :=
  { sources := [sourceOf o.a o.la], target := targetOfCode o.d, m := o.m.toNat, lat := lat, round := round }
/-- D, A, B. -/
def vrAB (o : VRForm) (lat : Nat := 4) (round : Nat := 0) : VectorSpec :=
  { vrA o lat round with sources := [sourceOf o.a o.la, sourceOf o.b o.lb] }
/-- D, A, B, C. -/
def vrABC (o : VRForm) (lat : Nat := 4) (round : Nat := 0) : VectorSpec :=
  { vrA o lat round with sources := [sourceOf o.a o.la, sourceOf o.b o.lb, sourceOf o.c o.lc] }

/-- The rounding code of F[2:0] for a floating-point type; integers do not round (05 R141). -/
def roundOf (o : VRForm) : Nat := if floats o.t then (o.f.extractLsb' 0 3).toNat else 0

/-- Element `e` of lane `l` of operand `i`. -/
def el (t : BitVec 4) (vs : List Row) (i l e : Nat) : Nat := element (lane (nthRow vs i) l) (widthOf t) e

/-- An integer result, wrapped or saturated (03 R73, R74). -/
def intResult (t : BitVec 4) (sat : Bool) (i : Int) : Res :=
  if sat then saturate (isSigned t) (widthOf t) i else { bits := wrap (widthOf t) i }

/-- A floating-point operation of two values that rounds once. -/
def floatAB (t : BitVec 4) (f : Val → Val → Val) (mode : Nat) (vs : List Row) (g : BitVec 32) (l e : Nat) : Res :=
  (elemFmt t).round mode g (f ((elemFmt t).value (el t vs 0 l e)) ((elemFmt t).value (el t vs 1 l e)))

/-- An operation with divide-by-zero. -/
def withDivZero (t : BitVec 4) (mode : Nat) (g : BitVec 32) (v : Val × Bool) : Res :=
  let r := (elemFmt t).round mode g v.1
  if v.2 then { r with flags := r.flags ||| fDivZero } else r

/-- VADD, VSUB and VMUL (05 R143). -/
def vectorArith (h : StripHead) (o : VRForm) (f : Val → Val → Val) (k : Int → Int → Int) (s : State) :
    Host.Outcome State Fault Refusal :=
  vectorInstr h (vrAB o 4 (roundOf o)) (fun x mode on vs =>
    if floats o.t then perElement x mode (widthOf o.t) on (floatAB o.t f mode vs)
    else perElement x 0 (widthOf o.t) on fun _ l e =>
      intResult o.t (o.f.getLsbD 0) (k (intOf o.t (el o.t vs 0 l e)) (intOf o.t (el o.t vs 1 l e)))) s

/-- VADD (05 R143). -/
def execVadd (h : StripHead) (o : VRForm) (s : State) : Host.Outcome State Fault Refusal := vectorArith h o Val.add (· + ·) s
/-- VSUB (05 R143). -/
def execVsub (h : StripHead) (o : VRForm) (s : State) : Host.Outcome State Fault Refusal := vectorArith h o Val.sub (· - ·) s
/-- VMUL (05 R143). -/
def execVmul (h : StripHead) (o : VRForm) (s : State) : Host.Outcome State Fault Refusal := vectorArith h o Val.mul (· * ·) s

/-- A fused multiply-add: the sign of the product and of the addend may be changed; 0 times infinity is a produced NaN
whatever c holds (05 R143, R144). -/
def vectorFused (h : StripHead) (o : VRForm) (negProduct negAddend : Bool) (s : State) : Host.Outcome State Fault Refusal :=
  vectorInstr h (vrABC o 4 (roundOf o)) (fun x mode on vs => perElement x mode (widthOf o.t) on fun g l e =>
    let f := elemFmt o.t
    let v := fun i => f.value (el o.t vs i l e)
    let p := (v 0).mul (v 1)
    let p := if negProduct then p.neg else p
    let c := if negAddend then (v 2).neg else v 2
    f.round mode g (if p = .made then .made else p.add c)) s

/-- VFMA (05 R143). -/
def execVfma (h : StripHead) (o : VRForm) (s : State) : Host.Outcome State Fault Refusal := vectorFused h o false false s
/-- VFMS (05 R143). -/
def execVfms (h : StripHead) (o : VRForm) (s : State) : Host.Outcome State Fault Refusal := vectorFused h o false true s
/-- VFNMA (05 R143). -/
def execVfnma (h : StripHead) (o : VRForm) (s : State) : Host.Outcome State Fault Refusal := vectorFused h o true false s

/-- VDIV (05 R143, R144). -/
def execVdiv (h : StripHead) (o : VRForm) (s : State) : Host.Outcome State Fault Refusal :=
  vectorInstr h (vrAB o 12 (roundOf o)) (fun x mode on vs => perElement x mode (widthOf o.t) on fun g l e =>
    let f := elemFmt o.t
    withDivZero o.t mode g ((f.value (el o.t vs 0 l e)).div (f.value (el o.t vs 1 l e)))) s

/-- A function of one value that rounds. -/
def vectorRoot (h : StripHead) (o : VRForm) (k : Val → Val × Bool) (s : State) : Host.Outcome State Fault Refusal :=
  vectorInstr h (vrA o 12 (roundOf o)) (fun x mode on vs => perElement x mode (widthOf o.t) on fun g l e =>
    withDivZero o.t mode g (k ((elemFmt o.t).value (el o.t vs 0 l e)))) s

/-- VSQRT (05 R143, R144). -/
def execVsqrt (h : StripHead) (o : VRForm) (s : State) : Host.Outcome State Fault Refusal :=
  vectorRoot h o (fun v => (v.sqrt, false)) s
/-- VRSQ (05 R143, R144). -/
def execVrsq (h : StripHead) (o : VRForm) (s : State) : Host.Outcome State Fault Refusal := vectorRoot h o Val.rsqrt s
/-- VRCP (05 R143, R144). -/
def execVrcp (h : StripHead) (o : VRForm) (s : State) : Host.Outcome State Fault Refusal :=
  vectorRoot h o (fun v => (Val.num false 1 0 false).div v) s

/-- VMIN and VMAX (05 R143). -/
def vectorPick (h : StripHead) (o : VRForm) (greater : Bool) (s : State) : Host.Outcome State Fault Refusal :=
  vectorInstr h (vrAB o) (fun x _ on vs => perElement x 0 (widthOf o.t) on fun _ l e =>
    let a := el o.t vs 0 l e
    let b := el o.t vs 1 l e
    if floats o.t then { bits := (elemFmt o.t).pick greater a b }
    else
      let less := decide (intOf o.t a < intOf o.t b)
      { bits := if less == greater then b else a }) s

/-- VMIN (05 R143). -/
def execVmin (h : StripHead) (o : VRForm) (s : State) : Host.Outcome State Fault Refusal := vectorPick h o false s
/-- VMAX (05 R143). -/
def execVmax (h : StripHead) (o : VRForm) (s : State) : Host.Outcome State Fault Refusal := vectorPick h o true s

/-- VABS: the sign bit cleared, or the absolute value (05 R143). -/
def execVabs (h : StripHead) (o : VRForm) (s : State) : Host.Outcome State Fault Refusal :=
  vectorInstr h (vrA o) (fun x _ on vs => perElement x 0 (widthOf o.t) on fun _ l e =>
    let a := el o.t vs 0 l e
    if floats o.t then { bits := (elemFmt o.t).mag a } else intResult o.t (o.f.getLsbD 0) (intOf o.t a).natAbs) s

/-- VNEG: the sign bit inverted, or the negation (05 R143). -/
def execVneg (h : StripHead) (o : VRForm) (s : State) : Host.Outcome State Fault Refusal :=
  vectorInstr h (vrA o) (fun x _ on vs => perElement x 0 (widthOf o.t) on fun _ l e =>
    let a := el o.t vs 0 l e
    if floats o.t then { bits := (elemFmt o.t).pack (!(elemFmt o.t).sign a) ((elemFmt o.t).mag a) }
    else intResult o.t (o.f.getLsbD 0) (-intOf o.t a)) s

/-! ### Integer and bit instructions (05 R145) -/

/-- A bitwise operation of two whole lanes. -/
def vectorBits (h : StripHead) (o : VRForm) (f : BitVec 32 → BitVec 32 → BitVec 32) (s : State) :
    Host.Outcome State Fault Refusal :=
  vectorInstr h (vrAB o) (fun x _ on vs => perLane x on fun l => f (lane (nthRow vs 0) l) (lane (nthRow vs 1) l)) s

/-- VAND (05 R145). -/
def execVand (h : StripHead) (o : VRForm) (s : State) : Host.Outcome State Fault Refusal := vectorBits h o (· &&& ·) s
/-- VOR (05 R145). -/
def execVor (h : StripHead) (o : VRForm) (s : State) : Host.Outcome State Fault Refusal := vectorBits h o (· ||| ·) s
/-- VXOR (05 R145). -/
def execVxor (h : StripHead) (o : VRForm) (s : State) : Host.Outcome State Fault Refusal := vectorBits h o (· ^^^ ·) s
/-- VNOT (05 R145). -/
def execVnot (h : StripHead) (o : VRForm) (s : State) : Host.Outcome State Fault Refusal :=
  vectorInstr h (vrA o) (fun x _ on vs => perLane x on fun l => ~~~lane (nthRow vs 0) l) s

/-- A shift of each element by the low log2(w) bits of the matching element of B (05 R145). -/
def vectorShift (h : StripHead) (o : VRForm) (f : Nat → Nat → Nat → Nat) (s : State) : Host.Outcome State Fault Refusal :=
  vectorInstr h (vrAB o) (fun x _ on vs => perElement x 0 (widthOf o.t) on fun _ l e =>
    let w := widthOf o.t
    { bits := f w (el o.t vs 0 l e) (el o.t vs 1 l e % w) }) s

/-- VSHL (05 R145). -/
def execVshl (h : StripHead) (o : VRForm) (s : State) : Host.Outcome State Fault Refusal :=
  vectorShift h o (fun w a k => a * 2 ^ k % 2 ^ w) s
/-- VSHR (05 R145). -/
def execVshr (h : StripHead) (o : VRForm) (s : State) : Host.Outcome State Fault Refusal :=
  vectorShift h o (fun _ a k => a / 2 ^ k) s
/-- VSRA (05 R145). -/
def execVsra (h : StripHead) (o : VRForm) (s : State) : Host.Outcome State Fault Refusal :=
  vectorShift h o (fun w a k => wrap w (signedOf a w / (2 ^ k : Nat))) s

/-- A count over the bits of each element. -/
def vectorCount (h : StripHead) (o : VRForm) (f : Nat → Nat → Nat) (s : State) : Host.Outcome State Fault Refusal :=
  vectorInstr h (vrA o) (fun x _ on vs => perElement x 0 (widthOf o.t) on fun _ l e =>
    { bits := f (widthOf o.t) (el o.t vs 0 l e) }) s

/-- VPOPC (05 R145). -/
def execVpopc (h : StripHead) (o : VRForm) (s : State) : Host.Outcome State Fault Refusal :=
  vectorCount h o (fun w a => ((List.range w).filter a.testBit).length) s
/-- VCLZ (05 R145). -/
def execVclz (h : StripHead) (o : VRForm) (s : State) : Host.Outcome State Fault Refusal :=
  vectorCount h o (fun w a => w - bitLength a) s

/-- VMULH (05 R145). -/
def execVmulh (h : StripHead) (o : VRForm) (s : State) : Host.Outcome State Fault Refusal :=
  vectorInstr h (vrAB o) (fun x _ on vs => perElement x 0 (widthOf o.t) on fun _ l e =>
    let w := widthOf o.t
    { bits := wrap w (intOf o.t (el o.t vs 0 l e) * intOf o.t (el o.t vs 1 l e) / (2 ^ w : Nat)) }) s

/-! ### Transcendental functions (05 R146, 03 R87) -/

/-- A function rounded to FP32; a packed element is taken to FP32 exactly and rounded once more. -/
def Func.applyIn (f : Func) (t : BitVec 4) (a : Nat) : Res :=
  let fm := elemFmt t
  if fm = fp32 then f.apply a
  else
    let r := f.apply (convert fm fp32 0 0 false a).bits
    let r' := convert fp32 fm 0 0 false r.bits
    { r' with flags := r.flags ||| r'.flags, made := r.made }

/-- A transcendental instruction. -/
def vectorFunc (h : StripHead) (o : VRForm) (f : Func) (s : State) : Host.Outcome State Fault Refusal :=
  vectorInstr h (vrA o 12) (fun x _ on vs => perElement x 0 (widthOf o.t) on fun _ l e => f.applyIn o.t (el o.t vs 0 l e)) s

/-- VEXP (05 R146). -/
def execVexp (h : StripHead) (o : VRForm) (s : State) : Host.Outcome State Fault Refusal := vectorFunc h o .exp s
/-- VEXP2 (05 R146). -/
def execVexp2 (h : StripHead) (o : VRForm) (s : State) : Host.Outcome State Fault Refusal := vectorFunc h o .exp2 s
/-- VLOG (05 R146). -/
def execVlog (h : StripHead) (o : VRForm) (s : State) : Host.Outcome State Fault Refusal := vectorFunc h o .log s
/-- VLOG2 (05 R146). -/
def execVlog2 (h : StripHead) (o : VRForm) (s : State) : Host.Outcome State Fault Refusal := vectorFunc h o .log2 s
/-- VTANH (05 R146). -/
def execVtanh (h : StripHead) (o : VRForm) (s : State) : Host.Outcome State Fault Refusal := vectorFunc h o .tanh s
/-- VSIGM (05 R146). -/
def execVsigm (h : StripHead) (o : VRForm) (s : State) : Host.Outcome State Fault Refusal := vectorFunc h o .sigm s
/-- VSILU (05 R146). -/
def execVsilu (h : StripHead) (o : VRForm) (s : State) : Host.Outcome State Fault Refusal := vectorFunc h o .silu s
/-- VGELU (05 R146). -/
def execVgelu (h : StripHead) (o : VRForm) (s : State) : Host.Outcome State Fault Refusal := vectorFunc h o .gelu s

/-! ### Compare, select and masks (05 R147 to R149) -/

/-- The condition of VCMP on two lanes (05 R147, 04 R121). -/
def laneCondition (t : BitVec 4) (c : Nat) (a b : BitVec 32) : Bool :=
  if floats t then fp32.condition c a.toNat b.toNat
  else
    let x := intOf t a.toNat
    let y := intOf t b.toNat
    match c with
    | 0 => x == y
    | 1 => x != y
    | 2 => decide (x < y)
    | 3 => decide (x ≤ y)
    | 4 => decide (y < x)
    | 5 => decide (y ≤ x)
    | 8 => a &&& b != 0
    | _ => a &&& b == 0

/-- VCMP (05 R147). -/
def execVcmp (h : StripHead) (o : VRForm) (s : State) : Host.Outcome State Fault Refusal :=
  vectorInstr h { vrAB o with target := .mask o.d.toNat } (fun x _ on vs => perMask x on fun l =>
    laneCondition o.t o.f.toNat (lane (nthRow vs 0) l) (lane (nthRow vs 1) l)) s

/-- VSEL (05 R148). -/
def execVsel (h : StripHead) (o : VRForm) (s : State) : Host.Outcome State Fault Refusal :=
  vectorInstr h { vrAB o with sources := [sourceOf o.a o.la, sourceOf o.b o.lb, .mask o.c.toNat] } (fun x _ on vs =>
    perLane x on fun l => lane (nthRow vs (if (nthRow vs 2).getLsbD l then 0 else 1)) l) s

/-- A mask logic instruction (05 R149). -/
def maskLogic (h : StripHead) (o : VRForm) (two : Bool) (f : Bool → Bool → Bool) (s : State) :
    Host.Outcome State Fault Refusal :=
  let sources := if two then [.mask o.a.toNat, .mask o.b.toNat] else [.mask o.a.toNat]
  vectorInstr h { sources := sources, target := .mask o.d.toNat, m := o.m.toNat } (fun x _ on vs =>
    perMask x on fun l => f ((nthRow vs 0).getLsbD l) ((nthRow vs 1).getLsbD l)) s

/-- VMAND (05 R149). -/
def execVmand (h : StripHead) (o : VRForm) (s : State) : Host.Outcome State Fault Refusal :=
  maskLogic h o true (fun a b => a && (b != o.f.getLsbD 0)) s
/-- VMOR (05 R149). -/
def execVmor (h : StripHead) (o : VRForm) (s : State) : Host.Outcome State Fault Refusal := maskLogic h o true (· || ·) s
/-- VMXOR (05 R149). -/
def execVmxor (h : StripHead) (o : VRForm) (s : State) : Host.Outcome State Fault Refusal := maskLogic h o true (· != ·) s
/-- VMNOT (05 R149). -/
def execVmnot (h : StripHead) (o : VRForm) (s : State) : Host.Outcome State Fault Refusal := maskLogic h o false (fun a _ => !a) s

/-- VMPOP (05 R149). -/
def execVmpop (h : StripHead) (o : VRForm) (s : State) : Host.Outcome State Fault Refusal :=
  vectorInstr h { sources := [.mask o.a.toNat], target := targetOfCode o.d, m := o.m.toNat } (fun x _ on vs =>
    let n := BitVec.ofNat 32 ((List.range lanes).filter (nthRow vs 0).getLsbD).length
    perLane x on fun _ => n) s

/-! ### Threshold counting and selection (05 R150 to R152) -/

/-- Lanes of a group by its code (05 R150). -/
def groupSize (f : BitVec 4) : Nat :=
  match f.toNat with
  | 0 => 2 | 1 => 3 | 2 => 4 | 3 => 6 | 4 => 8 | 5 => 12 | 6 => 16 | 7 => 24 | 8 => 32 | 9 => 48 | 10 => 64 | 11 => 96
  | _ => 192

/-- The key of a lane (05 R150). -/
def laneKey (t : BitVec 4) (a : BitVec 32) : Nat := if floats t then (orderedKey a).toNat else a.toNat

/-- The active lanes of group `j`, ascending. -/
def groupLanes (g j : Nat) (on : LaneMask) : List Nat := ((List.range g).map (j * g + ·)).filter on.getLsbD

/-- The heads of the groups that have an active lane (05 R150). -/
def headLanes (g : Nat) (on : LaneMask) : LaneMask := lanesFrom on fun l => l / g * g

/-- The lanes that a counting instruction consumes: the active ones of its keys, the heads in the sources from number `i` on. -/
def headsAfter (g i : Nat) (_ : List Row) (on : LaneMask) (k : Nat) : LaneMask := if k < i then on else headLanes g on

/-- VTHC (05 R151). -/
def execVthc (h : StripHead) (o : VRForm) (s : State) : Host.Outcome State Fault Refusal :=
  let g := groupSize o.f
  vectorInstr h { vrAB o with consumed := headsAfter g 1 } (fun x _ on vs =>
    let count := fun j =>
      let thr := (lane (nthRow vs 1) (j * g)).toNat
      ((groupLanes g j on).filter fun l => decide (thr ≤ laneKey o.t (lane (nthRow vs 0) l))).length
    let counts := (List.range (lanes / g)).map count
    perLane x on fun l => BitVec.ofNat 32 ((counts[l / g]?).getD 0)) s

/-- The lanes that VTHS chooses in group `j` (05 R152). -/
def chosen (t : BitVec 4) (vs : List Row) (g j : Nat) (on : LaneMask) : List Nat :=
  let tau := (lane (nthRow vs 1) (j * g)).toNat
  let k := (lane (nthRow vs 2) (j * g)).toNat
  let key := fun l => laneKey t (lane (nthRow vs 0) l)
  let c := groupLanes g j on
  ((c.filter fun l => decide (tau < key l)) ++ c.filter fun l => key l == tau).take k

/-- VTHS (05 R152). -/
def execVths (h : StripHead) (o : VRForm) (s : State) : Host.Outcome State Fault Refusal :=
  let g := groupSize o.f
  vectorInstr h { vrABC o 6 with target := .mask o.d.toNat, consumed := headsAfter g 1 } (fun x _ on vs =>
    let sel := (List.range (lanes / g)).flatMap fun j => chosen o.t vs g j on
    perMask x on fun l => sel.contains l) s

end Sys2Proof.Machine
end

