-- ==== Sys2Proof/Machine/VectorMove.lean ====
section
/-!
DEFINITION. Conversions, reductions, scans, permutes, moves, scalar transfers and port bindings of the vector strip (05 R154
to R168; 09 R269).
-/
namespace Sys2Proof.Machine

/-! ### Conversions (05 R154 to R158) -/

/-- One element converted between two types (05 R154; 03 R84, R85). -/
def convertElement (src dst : BitVec 4) (mode : Nat) (g : BitVec 32) (strict : Bool) (a : Nat) : Res :=
  if floats src then
    if floats dst then convert (elemFmt src) (elemFmt dst) mode g strict a
    else toInteger (isSigned dst) (widthOf dst) mode g ((elemFmt src).value a)
  else if floats dst then (elemFmt dst).round mode g (Val.ofInt (intOf src a))
  else saturate (isSigned dst) (widthOf dst) (intOf src a)

/-- The mode of F[3:1], which only a conversion that rounds uses. -/
def highRound (o : VRForm) : Nat := (o.f.extractLsb' 1 3).toNat

/-- ctl.mode.STRICT (03 R84). -/
def Ctx.strict (x : Ctx) : Bool := x.mode.getLsbD 1

/-- VCVT (05 R154). -/
def execVcvt (h : StripHead) (o : VRForm) (s : State) : Host.Outcome State Fault Refusal :=
  let src := o.b.extractLsb' 0 4
  vectorInstr h (vrA o 4 (highRound o)) (fun x mode on vs =>
    let rounds := if floats src || floats o.t then mode else 0
    perElement x rounds (widthOf o.t) on fun g l e => convertElement src o.t mode g x.strict (el o.t vs 0 l e)) s

/-- The 32-bit source type of a narrowing (05 R155). -/
def wideOf (t : BitVec 4) : BitVec 4 := if floats t then 2 else if isSigned t then 0 else 1

/-- VPACK (05 R155). -/
def execVpack (h : StripHead) (o : VRForm) (s : State) : Host.Outcome State Fault Refusal :=
  let quad := elements o.t == 4
  let base := if quad && o.f.getLsbD 0 then 2 else 0
  let p := if quad then vrABC o 4 (highRound o) else vrAB o 4 (highRound o)
  vectorInstr h p (fun x mode on vs =>
    let taken := fun e => e == base || e == base + 1
    perElementIn x (fun e => if taken e && floats o.t then mode else 0) (widthOf o.t) on fun g l e =>
      if taken e then convertElement (wideOf o.t) o.t mode g x.strict (lane (nthRow vs (e - base)) l).toNat
      else { bits := el o.t vs 2 l e }) s

/-- VUNPK: exact widening of element or half F of A (05 R156). -/
def execVunpk (h : StripHead) (o : VRForm) (s : State) : Host.Outcome State Fault Refusal :=
  let src := o.b.extractLsb' 0 4
  vectorInstr h (vrA o) (fun x _ on vs => perElement x 0 (widthOf o.t) on fun _ l e =>
    let a := el src vs 0 l (o.f.toNat * elements o.t + e)
    if floats src then { bits := (convert (elemFmt src) (elemFmt o.t) 0 0 false a).bits }
    else { bits := wrap (widthOf o.t) (intOf src a) }) s

/-- VQNT (05 R157): a NaN operand is converted as 03 R84 converts it, with its sign. -/
def execVqnt (h : StripHead) (o : VRForm) (s : State) : Host.Outcome State Fault Refusal :=
  let at_ := (o.f.extractLsb' 0 2).toNat
  let mode := if o.f.getLsbD 2 then 4 else 0
  vectorInstr h (vrABC o) (fun x _ on vs =>
    perElementIn x (fun e => if e = at_ then mode else 0) (widthOf o.t) on fun g l e =>
      if e = at_ then
        let a := (lane (nthRow vs 0) l).toNat
        let b := (lane (nthRow vs 1) l).toNat
        let q := (fp32.value a).mul (fp32.value b)
        if !floats o.t then toInteger (isSigned o.t) (widthOf o.t) mode g q
        else if fp32.isNan a then convert fp32 (elemFmt o.t) mode g x.strict a
        else if fp32.isNan b then convert fp32 (elemFmt o.t) mode g x.strict b
        else (elemFmt o.t).round mode g q x.strict
      else { bits := el o.t vs 2 l e }) s

/-- A value times a power of two. -/
def Val.scaled (v : Val) (k : Int) : Val :=
  match v with
  | .num s n e m => .num s n (e + k) m
  | v => v

/-- VSCL (05 R158). -/
def execVscl (h : StripHead) (o : VRForm) (s : State) : Host.Outcome State Fault Refusal :=
  vectorInstr h (vrAB o 4 (roundOf o)) (fun x mode on vs => perElement x mode (widthOf o.t) on fun g l e =>
    (elemFmt o.t).round mode g
      (((elemFmt o.t).value (el o.t vs 0 l e)).scaled (signedOf (el o.t vs 1 l e) (widthOf o.t)))) s

/-! ### Reductions (05 R159, 03 R91) -/

/-- What a step of the tree has: the running result and the value per element. -/
abbrev TreeNode := Nat × List Nat

/-- One combination of two nodes, element by element; the generator and the report are those of the left node's lane. -/
def combineNodes (x : Ctx) (t : BitVec 4) (mode : Nat) (f : BitVec 32 → Nat → Nat → Res) (a : Calc) (p q : TreeNode) :
    Calc × TreeNode :=
  let r := (List.range (elements t)).foldl (fun (st : Calc × List Nat) e =>
    let g := st.1.step x mode p.1
    let r := f g ((p.2[e]?).getD 0) ((q.2[e]?).getD 0)
    let a := st.1.put mode g x.stops (widthOf t) p.1 e r
    (a, st.2 ++ [r.bits])) (a, [])
  (r.1, (p.1, r.2))

/-- One level of the tree: adjacent pairs in order. -/
def treeLevel (k : Calc → TreeNode → TreeNode → Calc × TreeNode) : Calc → List TreeNode → Calc × List TreeNode
  | a, p :: q :: rest =>
    let (a, n) := k a p q
    let (a, ns) := treeLevel k a rest
    (a, n :: ns)
  | a, ns => (a, ns)

/-- The whole tree: six levels within the blocks, then (g0, g1), then g2. -/
def tree (k : Calc → TreeNode → TreeNode → Calc × TreeNode) (a : Calc) (ns : List TreeNode) : Calc × List Nat :=
  let (a, ns) := (List.range 6).foldl (fun st _ => treeLevel k st.1 st.2) (a, ns)
  match ns with
  | n :: rest =>
    let (a, n) := rest.foldl (fun (st : Calc × TreeNode) m => k st.1 st.2 m) (a, n)
    (a, n.2)
  | [] => (a, [])

/-- A reduction of all lanes by `f`; inactive lanes enter as `one`; the result goes into every active lane. -/
def reduce (x : Ctx) (t : BitVec 4) (mode one : Nat) (f : BitVec 32 → Nat → Nat → Res) (on : LaneMask) (r : Row) : Calc :=
  let nodes := (List.range lanes).map fun l =>
    (l, (List.range (elements t)).map fun e => if on.getLsbD l then element (lane r l) (widthOf t) e else one)
  let (a, v) := tree (combineNodes x t mode f) { gens := x.vgen } nodes
  let value := BitVec.ofNat 32 (v.foldr (fun b n => n * 2 ^ widthOf t + b) 0)
  { a with row := rowOf (fun l => if on.getLsbD l then value else 0) lanes }

/-- VRSUM (05 R159). -/
def execVrsum (h : StripHead) (o : VRForm) (s : State) : Host.Outcome State Fault Refusal :=
  let fm := elemFmt o.t
  vectorInstr h (vrA o 12 (roundOf o)) (fun x mode on vs =>
    if floats o.t then
      reduce x o.t mode (fm.pack true 0) (fun g a b => fm.round mode g ((fm.value a).add (fm.value b))) on (nthRow vs 0)
    else reduce x o.t 0 0 (fun _ a b => { bits := (a + b) % 2 ^ 32 }) on (nthRow vs 0)) s

/-- The integer at one end of a type's range. -/
def endOfRange (t : BitVec 4) (top : Bool) : Nat :=
  let w := widthOf t
  if isSigned t then (if top then 2 ^ (w - 1) - 1 else 2 ^ (w - 1)) else if top then 2 ^ w - 1 else 0

/-- VRMAX and VRMIN (05 R159). -/
def vectorExtreme (h : StripHead) (o : VRForm) (greater : Bool) (s : State) : Host.Outcome State Fault Refusal :=
  let fm := elemFmt o.t
  vectorInstr h (vrA o 12) (fun x _ on vs =>
    if floats o.t then
      reduce x o.t 0 (fm.pack greater fm.infCode) (fun _ a b => { bits := fm.pick greater a b }) on (nthRow vs 0)
    else
      reduce x o.t 0 (endOfRange o.t (!greater)) (fun _ a b =>
        { bits := if decide (intOf o.t a < intOf o.t b) == greater then b else a }) on (nthRow vs 0)) s

/-- VRMAX (05 R159). -/
def execVrmax (h : StripHead) (o : VRForm) (s : State) : Host.Outcome State Fault Refusal := vectorExtreme h o true s
/-- VRMIN (05 R159). -/
def execVrmin (h : StripHead) (o : VRForm) (s : State) : Host.Outcome State Fault Refusal := vectorExtreme h o false s

/-- Whether lane value `b` beats `a` for VRARG: a NaN beats every number, equal values do not beat (05 R159). -/
def beats (t : BitVec 4) (least : Bool) (b a : BitVec 32) : Bool :=
  if floats t then
    if fp32.isNan a.toNat then false
    else if fp32.isNan b.toNat then true
    else if least then decide (fp32.order b.toNat < fp32.order a.toNat) else decide (fp32.order a.toNat < fp32.order b.toNat)
  else if least then decide (intOf t b.toNat < intOf t a.toNat) else decide (intOf t a.toNat < intOf t b.toNat)

/-- VRARG (05 R159). -/
def execVrarg (h : StripHead) (o : VRForm) (s : State) : Host.Outcome State Fault Refusal :=
  vectorInstr h (vrA o 12) (fun x _ on vs =>
    let r := nthRow vs 0
    let best := (List.range lanes).foldl (fun (b : Option Nat) l =>
      if on.getLsbD l then
        match b with
        | none => some l
        | some k => if beats o.t (o.f.getLsbD 0) (lane r l) (lane r k) then some l else some k
      else b) none
    perLane x on fun _ => BitVec.ofNat 32 (best.getD 0)) s

/-- The running sums of a scan over the lanes that remain (05 R160). -/
def scanLanes (x : Ctx) (mode : Nat) (on : LaneMask) (exclusive : Bool) (value : Nat → Val)
    (round : BitVec 32 → Val → Res) : List Nat → Option Val → Calc → Calc
  | [], _, a => a
  | l :: ls, sum, a =>
    if on.getLsbD l then
      let next := match sum with
        | none => value l
        | some v => v.add (value l)
      let v := if exclusive then sum.getD (.num false 0 0 false) else next
      let g := a.step x mode l
      scanLanes x mode on exclusive value round ls (some next) (a.put mode g x.stops 32 l 0 (round g v))
    else scanLanes x mode on exclusive value round ls sum a

/-- The running sums of integers. -/
def scanInts (on : LaneMask) (exclusive : Bool) (value : Nat → Nat) : List Nat → Nat → Nat → Nat
  | [], _, row => row
  | l :: ls, sum, row =>
    if on.getLsbD l then
      let next := (sum + value l) % 2 ^ 32
      scanInts on exclusive value ls next (row + (if exclusive then sum else next) * 2 ^ (32 * l))
    else scanInts on exclusive value ls sum row

/-- VSCAN (05 R160). -/
def execVscan (h : StripHead) (o : VRForm) (s : State) : Host.Outcome State Fault Refusal :=
  let ex := o.f.getLsbD 0
  vectorInstr h (vrA o 12 (if floats o.t then highRound o else 0)) (fun x mode on vs =>
    let r := nthRow vs 0
    if floats o.t then
      scanLanes x mode on ex (fun l => fp32.value (lane r l).toNat) (fun g v => fp32.round mode g v) (List.range lanes) none
        { gens := x.vgen }
    else { row := scanInts on ex (fun l => (lane r l).toNat) (List.range lanes) 0 0, gens := x.vgen }) s

/-! ### Permutes and moves (05 R161 to R168) -/

/-- VPERM (05 R161). -/
def execVperm (h : StripHead) (o : VRForm) (s : State) : Host.Outcome State Fault Refusal :=
  let from_ := fun (vs : List Row) (on : LaneMask) (i : Nat) =>
    if i = 0 then lanesFrom on fun l => (lane (nthRow vs 1) l).toNat else on
  vectorInstr h { vrAB o 6 with consumed := from_ } (fun x _ on vs => perLane x on fun l =>
    let i := (lane (nthRow vs 1) l).toNat
    if i < lanes then lane (nthRow vs 0) i else 0) s

/-- VBCAST (05 R162). -/
def execVbcast (h : StripHead) (o : VRForm) (s : State) : Host.Outcome State Fault Refusal :=
  let g := groupSize o.f
  vectorInstr h { vrA o 6 with consumed := fun _ on _ => headLanes g on } (fun x _ on vs => perLane x on fun l =>
    lane (nthRow vs 0) (l / g * g)) s

/-- The A operand of a VI instruction. -/
def viA (o : VIForm) (lat : Nat := 4) : VectorSpec :=
  { sources := [sourceOf o.a o.la], target := targetOfCode o.d, m := o.m.toNat, lat := lat }

/-- VROT (05 R163). -/
def execVrot (h : StripHead) (o : VIForm) (s : State) : Host.Outcome State Fault Refusal :=
  let from_ := fun (l : Nat) => (l + (o.imm.extractLsb' 0 8).toNat) % lanes
  vectorInstr h { viA o 6 with consumed := fun _ on _ => lanesFrom on from_ } (fun x _ on vs => perLane x on fun l =>
    lane (nthRow vs 0) (from_ l)) s

/-- VIOTA (05 R166). -/
def execViota (h : StripHead) (o : VIForm) (s : State) : Host.Outcome State Fault Refusal :=
  let start := (o.imm.extractLsb' 0 12).toNat
  let step := (o.imm.extractLsb' 12 5).toNat
  vectorInstr h { viA o with sources := [] } (fun x _ on _ => perLane x on fun l => BitVec.ofNat 32 (start + l * step)) s

/-- VMOV (05 R164). -/
def execVmov (h : StripHead) (o : VRForm) (s : State) : Host.Outcome State Fault Refusal :=
  vectorInstr h (vrA o) (fun x _ on vs => perLane x on fun l => lane (nthRow vs 0) l) s

/-- VLI (05 R165). -/
def execVli (h : StripHead) (o : VIForm) (ext : Option (BitVec 32)) (s : State) : Host.Outcome State Fault Refusal :=
  let v : BitVec 32 := ext.getD ((o.imm.extractLsb' 0 17).signExtend 32)
  vectorInstr h { viA o with sources := [] } (fun x _ on _ => perLane x on fun _ => v) s

/-- VGET (05 R167). -/
def execVget (h : StripHead) (o : VIForm) (s : State) : Host.Outcome State Fault Refusal :=
  let l := (o.imm.extractLsb' 0 8).toNat
  vectorInstr h { viA o with target := .mailbox o.d.toNat, consumed := fun _ _ _ => BitVec.twoPow 192 l } (fun x _ _ vs =>
    let v := lane (nthRow vs 0) l
    { row := (if o.t = 0 then v.signExtend 64 else v.setWidth 64).toNat, gens := x.vgen }) s (BitVec.twoPow 192 l)

/-- VPUT (05 R168). -/
def execVput (h : StripHead) (o : VIForm) (s : State) : Host.Outcome State Fault Refusal :=
  let only : LaneMask := if o.imm.getLsbD 8 then BitVec.allOnes 192 else BitVec.twoPow 192 (o.imm.extractLsb' 0 8).toNat
  vectorInstr h { viA o with sources := [.mailbox o.a.toNat] } (fun x _ on vs =>
    perLane x on fun _ => lane (nthRow vs 0) 0) s only

/-- VBIND (09 R269): a latency of 1 cycle, and no wait of its own. -/
def execVbind (h : StripHead) (o : VIForm) (s : State) : Host.Outcome State Fault Refusal :=
  stripOnce h inCompute (fun s =>
    let q := o.d.toNat - 0x38
    .done (s.modMe fun x => { x with bind := BitVec.ofNat 32 (setBits x.bind.toNat (4 * q) 4 (o.imm.extractLsb' 0 3).toNat) })) s

end Sys2Proof.Machine
end

