-- ==== Sys2Proof/Machine/Dispatch.lean ====
section
/-!
DEFINITION. The one dispatch from an instruction or event to its meaning.
-/
namespace Sys2Proof.Machine

/-- The effect of a step of the module. -/
def exec (i : Instr) (s : State) : Host.Outcome State Fault Refusal :=
  match i with
  | .add o => Sys2Proof.Machine.execAdd o s
  | .sub o => Sys2Proof.Machine.execSub o s
  | .mul o => Sys2Proof.Machine.execMul o s
  | .mulh o => Sys2Proof.Machine.execMulh o s
  | .mulhn o => Sys2Proof.Machine.execMulhn o s
  | .div o => Sys2Proof.Machine.execDiv o s
  | .divn o => Sys2Proof.Machine.execDivn o s
  | .rem o => Sys2Proof.Machine.execRem o s
  | .remn o => Sys2Proof.Machine.execRemn o s
  | .and o => Sys2Proof.Machine.execAnd o s
  | .or o => Sys2Proof.Machine.execOr o s
  | .xor o => Sys2Proof.Machine.execXor o s
  | .andn o => Sys2Proof.Machine.execAndn o s
  | .shl o => Sys2Proof.Machine.execShl o s
  | .shr o => Sys2Proof.Machine.execShr o s
  | .sra o => Sys2Proof.Machine.execSra o s
  | .rot o => Sys2Proof.Machine.execRot o s
  | .min o => Sys2Proof.Machine.execMin o s
  | .max o => Sys2Proof.Machine.execMax o s
  | .minn o => Sys2Proof.Machine.execMinn o s
  | .maxn o => Sys2Proof.Machine.execMaxn o s
  | .clz o => Sys2Proof.Machine.execClz o s
  | .popc o => Sys2Proof.Machine.execPopc o s
  | .addi o => Sys2Proof.Machine.execAddi o s
  | .andi o => Sys2Proof.Machine.execAndi o s
  | .ori o => Sys2Proof.Machine.execOri o s
  | .xori o => Sys2Proof.Machine.execXori o s
  | .shli o => Sys2Proof.Machine.execShli o s
  | .shri o => Sys2Proof.Machine.execShri o s
  | .srai o => Sys2Proof.Machine.execSrai o s
  | .lui o => Sys2Proof.Machine.execLui o s
  | .li o ext => Sys2Proof.Machine.execLi o ext s
  | .cmp o => Sys2Proof.Machine.execCmp o s
  | .cmpi o => Sys2Proof.Machine.execCmpi o s
  | .fcmp o => Sys2Proof.Machine.execFcmp o s
  | .pand o => Sys2Proof.Machine.execPand o s
  | .por o => Sys2Proof.Machine.execPor o s
  | .pxor o => Sys2Proof.Machine.execPxor o s
  | .pset o => Sys2Proof.Machine.execPset o s
  | .ppack o => Sys2Proof.Machine.execPpack o s
  | .punpk o => Sys2Proof.Machine.execPunpk o s
  | .sel o => Sys2Proof.Machine.execSel o s
  | .fadd o => Sys2Proof.Machine.execFadd o s
  | .fsub o => Sys2Proof.Machine.execFsub o s
  | .fmul o => Sys2Proof.Machine.execFmul o s
  | .fdiv o => Sys2Proof.Machine.execFdiv o s
  | .fsqrt o => Sys2Proof.Machine.execFsqrt o s
  | .fma o => Sys2Proof.Machine.execFma o s
  | .fms o => Sys2Proof.Machine.execFms o s
  | .fmin o => Sys2Proof.Machine.execFmin o s
  | .fmax o => Sys2Proof.Machine.execFmax o s
  | .fsgn o => Sys2Proof.Machine.execFsgn o s
  | .fcvt o => Sys2Proof.Machine.execFcvt o s
  | .fclass o => Sys2Proof.Machine.execFclass o s
  | .b o => Sys2Proof.Machine.execB o s
  | .bna o => Sys2Proof.Machine.execBna o s
  | .bta o => Sys2Proof.Machine.execBta o s
  | .bcmp o => Sys2Proof.Machine.execBcmp o s
  | .bcmpna o => Sys2Proof.Machine.execBcmpna o s
  | .call o => Sys2Proof.Machine.execCall o s
  | .callr o => Sys2Proof.Machine.execCallr o s
  | .jr o => Sys2Proof.Machine.execJr o s
  | .ld o => Sys2Proof.Machine.execLd o s
  | .st o => Sys2Proof.Machine.execSt o s
  | .ldp o => Sys2Proof.Machine.execLdp o s
  | .stp o => Sys2Proof.Machine.execStp o s
  | .ldx o => Sys2Proof.Machine.execLdx o s
  | .sgo o => Sys2Proof.Machine.execSgo o s
  | .sstart o => Sys2Proof.Machine.execSstart o s
  | .sstop o => Sys2Proof.Machine.execSstop o s
  | .gset o => Sys2Proof.Machine.execGset o s
  | .phend o => Sys2Proof.Machine.execPhend o s
  | .phbud o => Sys2Proof.Machine.execPhbud o s
  | .tlsig o => Sys2Proof.Machine.execTlsig o s
  | .tlwait o => Sys2Proof.Machine.execTlwait o s
  | .waitt o => Sys2Proof.Machine.execWaitt o s
  | .trap o => Sys2Proof.Machine.execTrap o s
  | .brk o => Sys2Proof.Machine.execBrk o s
  | .mfc o => Sys2Proof.Machine.execMfc o s
  | .mtc o => Sys2Proof.Machine.execMtc o s
  | .fenceLocal o => Sys2Proof.Machine.execFenceLocal o s
  | .fenceStrips o => Sys2Proof.Machine.execFenceStrips o s
  | .traceCfg o => Sys2Proof.Machine.execTraceCfg o s
  | .traceMark o => Sys2Proof.Machine.execTraceMark o s
  | .traceTrig o => Sys2Proof.Machine.execTraceTrig o s
  | .tend o => Sys2Proof.Machine.execTend o s
  | .tspawn o => Sys2Proof.Machine.execTspawn o s
  | .eret o => Sys2Proof.Machine.execEret o s
  | .launchOpen o => Sys2Proof.Machine.execLaunchOpen o s
  | .launchGo o => Sys2Proof.Machine.execLaunchGo o s
  | .launchReplay o => Sys2Proof.Machine.execLaunchReplay o s
  | .launchSel o => Sys2Proof.Machine.execLaunchSel o s
  | .place o => Sys2Proof.Machine.execPlace o s
  | .ctxsave o => Sys2Proof.Machine.execCtxsave o s
  | .ctxload o => Sys2Proof.Machine.execCtxload o s
  | .ctxsw o => Sys2Proof.Machine.execCtxsw o s
  | .tlbinv o => Sys2Proof.Machine.execTlbinv o s
  | .monitor o => Sys2Proof.Machine.execMonitor o s
  | .mwait o => Sys2Proof.Machine.execMwait o s
  | .whistle o => Sys2Proof.Machine.execWhistle o s
  | .resume o => Sys2Proof.Machine.execResume o s
  | .stepJob o => Sys2Proof.Machine.execStepJob o s
  | .stepTile o => Sys2Proof.Machine.execStepTile o s
  | .stepInsn o => Sys2Proof.Machine.execStepInsn o s
  | .bench o => Sys2Proof.Machine.execBench o s
  | .errinj o => Sys2Proof.Machine.execErrinj o s
  | .copen o => Sys2Proof.Machine.execCopen o s
  | .chold o => Sys2Proof.Machine.execChold o s
  | .cclose o => Sys2Proof.Machine.execCclose o s
  | .cstat o => Sys2Proof.Machine.execCstat o s
  | .rcsnap o => Sys2Proof.Machine.execRcsnap o s
  | .rcread o => Sys2Proof.Machine.execRcread o s
  | .fmset o => Sys2Proof.Machine.execFmset o s
  | .fmread o => Sys2Proof.Machine.execFmread o s
  | .rdcyc o => Sys2Proof.Machine.execRdcyc o s
  | .rdtime o => Sys2Proof.Machine.execRdtime o s
  | .rdphase o => Sys2Proof.Machine.execRdphase o s
  | .histcfg o => Sys2Proof.Machine.execHistcfg o s
  | .histrd o => Sys2Proof.Machine.execHistrd o s
  | .sdesc h o => Sys2Proof.Machine.execSdesc h o s
  | .srun h o => Sys2Proof.Machine.execSrun h o s
  | .sskip h o => Sys2Proof.Machine.execSskip h o s
  | .ald h o => Sys2Proof.Machine.execAld h o s
  | .aldm h o => Sys2Proof.Machine.execAldm h o s
  | .agath h o => Sys2Proof.Machine.execAgath h o s
  | .acopy h o => Sys2Proof.Machine.execAcopy h o s
  | .bgin h o => Sys2Proof.Machine.execBgin h o s
  | .bgout h o => Sys2Proof.Machine.execBgout h o s
  | .bgfill h o => Sys2Proof.Machine.execBgfill h o s
  | .bgcode h o => Sys2Proof.Machine.execBgcode h o s
  | .tpref h o => Sys2Proof.Machine.execTpref h o s
  | .tprobe h o => Sys2Proof.Machine.execTprobe h o s
  | .xput h o => Sys2Proof.Machine.execXput h o s
  | .xget h o => Sys2Proof.Machine.execXget h o s
  | .xcir h o => Sys2Proof.Machine.execXcir h o s
  | .xdisp h o => Sys2Proof.Machine.execXdisp h o s
  | .xcomb h o => Sys2Proof.Machine.execXcomb h o s
  | .xgath8 h o => Sys2Proof.Machine.execXgath8 h o s
  | .xscat h o => Sys2Proof.Machine.execXscat h o s
  | .xred h o => Sys2Proof.Machine.execXred h o s
  | .xsend h o => Sys2Proof.Machine.execXsend h o s
  | .xland h o => Sys2Proof.Machine.execXland h o s
  | .aadd h o => Sys2Proof.Machine.execAadd h o s
  | .afadd h o => Sys2Proof.Machine.execAfadd h o s
  | .abfadd h o => Sys2Proof.Machine.execAbfadd h o s
  | .amin h o => Sys2Proof.Machine.execAmin h o s
  | .amax h o => Sys2Proof.Machine.execAmax h o s
  | .aand h o => Sys2Proof.Machine.execAand h o s
  | .aor h o => Sys2Proof.Machine.execAor h o s
  | .axor h o => Sys2Proof.Machine.execAxor h o s
  | .axchg h o => Sys2Proof.Machine.execAxchg h o s
  | .acas h o => Sys2Proof.Machine.execAcas h o s
  | .wld h o => Sys2Proof.Machine.execWld h o s
  | .wlds h o => Sys2Proof.Machine.execWlds h o s
  | .wldg h o => Sys2Proof.Machine.execWldg h o s
  | .mma h o => Sys2Proof.Machine.execMma h o s
  | .mmas h o => Sys2Proof.Machine.execMmas h o s
  | .mmaz h o => Sys2Proof.Machine.execMmaz h o s
  | .aclr h o => Sys2Proof.Machine.execAclr h o s
  | .adrn h o => Sys2Proof.Machine.execAdrn h o s
  | .alda h o => Sys2Proof.Machine.execAlda h o s
  | .mscan h o => Sys2Proof.Machine.execMscan h o s
  | .mscanc h o => Sys2Proof.Machine.execMscanc h o s
  | .mscanr h o => Sys2Proof.Machine.execMscanr h o s
  | .hld h o => Sys2Proof.Machine.execHld h o s
  | .hst h o => Sys2Proof.Machine.execHst h o s
  | .hclr h o => Sys2Proof.Machine.execHclr h o s
  | .mcfgWrite h o => Sys2Proof.Machine.execMcfgWrite h o s
  | .mcfgRead h o => Sys2Proof.Machine.execMcfgRead h o s
  | .mxcnt h o => Sys2Proof.Machine.execMxcnt h o s
  | .vadd h o => Sys2Proof.Machine.execVadd h o s
  | .vsub h o => Sys2Proof.Machine.execVsub h o s
  | .vmul h o => Sys2Proof.Machine.execVmul h o s
  | .vfma h o => Sys2Proof.Machine.execVfma h o s
  | .vfms h o => Sys2Proof.Machine.execVfms h o s
  | .vfnma h o => Sys2Proof.Machine.execVfnma h o s
  | .vdiv h o => Sys2Proof.Machine.execVdiv h o s
  | .vsqrt h o => Sys2Proof.Machine.execVsqrt h o s
  | .vrsq h o => Sys2Proof.Machine.execVrsq h o s
  | .vrcp h o => Sys2Proof.Machine.execVrcp h o s
  | .vmin h o => Sys2Proof.Machine.execVmin h o s
  | .vmax h o => Sys2Proof.Machine.execVmax h o s
  | .vabs h o => Sys2Proof.Machine.execVabs h o s
  | .vneg h o => Sys2Proof.Machine.execVneg h o s
  | .vand h o => Sys2Proof.Machine.execVand h o s
  | .vor h o => Sys2Proof.Machine.execVor h o s
  | .vxor h o => Sys2Proof.Machine.execVxor h o s
  | .vnot h o => Sys2Proof.Machine.execVnot h o s
  | .vshl h o => Sys2Proof.Machine.execVshl h o s
  | .vshr h o => Sys2Proof.Machine.execVshr h o s
  | .vsra h o => Sys2Proof.Machine.execVsra h o s
  | .vpopc h o => Sys2Proof.Machine.execVpopc h o s
  | .vclz h o => Sys2Proof.Machine.execVclz h o s
  | .vmulh h o => Sys2Proof.Machine.execVmulh h o s
  | .vexp h o => Sys2Proof.Machine.execVexp h o s
  | .vexp2 h o => Sys2Proof.Machine.execVexp2 h o s
  | .vlog h o => Sys2Proof.Machine.execVlog h o s
  | .vlog2 h o => Sys2Proof.Machine.execVlog2 h o s
  | .vtanh h o => Sys2Proof.Machine.execVtanh h o s
  | .vsigm h o => Sys2Proof.Machine.execVsigm h o s
  | .vsilu h o => Sys2Proof.Machine.execVsilu h o s
  | .vgelu h o => Sys2Proof.Machine.execVgelu h o s
  | .vcmp h o => Sys2Proof.Machine.execVcmp h o s
  | .vsel h o => Sys2Proof.Machine.execVsel h o s
  | .vmand h o => Sys2Proof.Machine.execVmand h o s
  | .vmor h o => Sys2Proof.Machine.execVmor h o s
  | .vmxor h o => Sys2Proof.Machine.execVmxor h o s
  | .vmnot h o => Sys2Proof.Machine.execVmnot h o s
  | .vmpop h o => Sys2Proof.Machine.execVmpop h o s
  | .vthc h o => Sys2Proof.Machine.execVthc h o s
  | .vths h o => Sys2Proof.Machine.execVths h o s
  | .vcvt h o => Sys2Proof.Machine.execVcvt h o s
  | .vpack h o => Sys2Proof.Machine.execVpack h o s
  | .vunpk h o => Sys2Proof.Machine.execVunpk h o s
  | .vqnt h o => Sys2Proof.Machine.execVqnt h o s
  | .vscl h o => Sys2Proof.Machine.execVscl h o s
  | .vrsum h o => Sys2Proof.Machine.execVrsum h o s
  | .vrmax h o => Sys2Proof.Machine.execVrmax h o s
  | .vrmin h o => Sys2Proof.Machine.execVrmin h o s
  | .vrarg h o => Sys2Proof.Machine.execVrarg h o s
  | .vscan h o => Sys2Proof.Machine.execVscan h o s
  | .vperm h o => Sys2Proof.Machine.execVperm h o s
  | .vbcast h o => Sys2Proof.Machine.execVbcast h o s
  | .vrot h o => Sys2Proof.Machine.execVrot h o s
  | .viota h o => Sys2Proof.Machine.execViota h o s
  | .vmov h o => Sys2Proof.Machine.execVmov h o s
  | .vli h o ext => Sys2Proof.Machine.execVli h o ext s
  | .vget h o => Sys2Proof.Machine.execVget h o s
  | .vput h o => Sys2Proof.Machine.execVput h o s
  | .vbind h o => Sys2Proof.Machine.execVbind h o s
  | .wst h o => Sys2Proof.Machine.execWst h o s
  | .wacc h o => Sys2Proof.Machine.execWacc h o s
  | .wscat h o => Sys2Proof.Machine.execWscat h o s
  | .wdsc h o => Sys2Proof.Machine.execWdsc h o s
  | .sidle h o => Sys2Proof.Machine.execSidle h o s
  | .send h o => Sys2Proof.Machine.execSend h o s
  | .smark h o => Sys2Proof.Machine.execSmark h o s
  | .sflgOr h o => Sys2Proof.Machine.execSflgOr h o s
  | .sflgGet h o => Sys2Proof.Machine.execSflgGet h o s
  | .sflgClr h o => Sys2Proof.Machine.execSflgClr h o s
  | .microStep u e => Sys2Proof.Machine.execMicroStep u e s
  | .pipelinedResultWrite u c r v fl sat => Sys2Proof.Machine.execPipelinedResultWrite u c r v fl sat s
  | .vectorResultLands u c r on v bad fl sat => Sys2Proof.Machine.execVectorResultLands u c r on v bad fl sat s
  | .accumulatorEntry u row v => Sys2Proof.Machine.execAccumulatorEntry u row v s
  | .wloadEntry u => Sys2Proof.Machine.execWloadEntry u s
  | .latchValid u w => Sys2Proof.Machine.execLatchValid u w s
  | .latchRestoreComplete u => Sys2Proof.Machine.execLatchRestoreComplete u s
  | .rowBufferDrain u bank => Sys2Proof.Machine.execRowBufferDrain u bank s
  | .eccWriteback pa => Sys2Proof.Machine.execEccWriteback pa s
  | .asyncTrapDelivery u c => Sys2Proof.Machine.execAsyncTrapDelivery u c s
  | .boundaryConditionsMet j => Sys2Proof.Machine.execBoundaryConditionsMet j s
  | .minimumPairExpiry j => Sys2Proof.Machine.execMinimumPairExpiry j s
  | .timedBoundaryTime j => Sys2Proof.Machine.execTimedBoundaryTime j s
  | .boundarySequence j => Sys2Proof.Machine.execBoundarySequence j s
  | .startPulseArrival j u => Sys2Proof.Machine.execStartPulseArrival j u s
  | .stragglerFault j => Sys2Proof.Machine.execStragglerFault j s
  | .deadlineFault u c => Sys2Proof.Machine.execDeadlineFault u c s
  | .hangFault u c e => Sys2Proof.Machine.execHangFault u c e s
  | .waveReachesTile j u => Sys2Proof.Machine.execWaveReachesTile j u s
  | .causeSettle j => Sys2Proof.Machine.execCauseSettle j s
  | .tileRelease j u => Sys2Proof.Machine.execTileRelease j u s
  | .stepRefreeze j u => Sys2Proof.Machine.execStepRefreeze j u s
  | .stepTimeout u e => Sys2Proof.Machine.execStepTimeout u e s
  | .write p => Sys2Proof.Machine.execWrite p s
  | .writem p => Sys2Proof.Machine.execWritem p s
  | .read p => Sys2Proof.Machine.execRead p s
  | .rreply p => Sys2Proof.Machine.execRreply p s
  | .cread p => Sys2Proof.Machine.execCread p s
  | .creply p => Sys2Proof.Machine.execCreply p s
  | .rcount p => Sys2Proof.Machine.execRcount p s
  | .rslot p => Sys2Proof.Machine.execRslot p s
  | .atom p => Sys2Proof.Machine.execAtom p s
  | .ares p => Sys2Proof.Machine.execAres p s
  | .red p => Sys2Proof.Machine.execRed p s
  | .reductionDelivery w => Sys2Proof.Machine.execReductionDelivery w s
  | .ack p => Sys2Proof.Machine.execAck p s
  | .nack p => Sys2Proof.Machine.execNack p s
  | .probe p => Sys2Proof.Machine.execProbe p s
  | .back p => Sys2Proof.Machine.execBack p s
  | .ready p => Sys2Proof.Machine.execReady p s
  | .fail p => Sys2Proof.Machine.execFail p s
  | .cmark p => Sys2Proof.Machine.execCmark p s
  | .creport p => Sys2Proof.Machine.execCreport p s
  | .fault p => Sys2Proof.Machine.execFault p s
  | .free p => Sys2Proof.Machine.execFree p s
  | .barrier p => Sys2Proof.Machine.execBarrier p s
  | .whistleFreeze p => Sys2Proof.Machine.execWhistleFreeze p s
  | .whistleResume p => Sys2Proof.Machine.execWhistleResume p s
  | .whistleJobStep p => Sys2Proof.Machine.execWhistleJobStep p s
  | .circuitBeat u cid n v bad late => Sys2Proof.Machine.execCircuitBeat u cid n v bad late s
  | .circuitTeardown u src cause => Sys2Proof.Machine.execCircuitTeardown u src cause s
  | .leaseExpiry u c h => Sys2Proof.Machine.execLeaseExpiry u c h s
  | .meterIdleExpiry u k => Sys2Proof.Machine.execMeterIdleExpiry u k s
  | .holdoffExpiry u k => Sys2Proof.Machine.execHoldoffExpiry u k s
  | .meterDecay u => Sys2Proof.Machine.execMeterDecay u s
  | .meterProbeTimeout u k => Sys2Proof.Machine.execMeterProbeTimeout u k s
  | .handleProbeTimeout u c h => Sys2Proof.Machine.execHandleProbeTimeout u c h s
  | .reservationTimeout entry => Sys2Proof.Machine.execReservationTimeout entry s
  | .retransmitTimeout u ddev dtile label => Sys2Proof.Machine.execRetransmitTimeout u ddev dtile label s
  | .ackTimer u sdev stile label => Sys2Proof.Machine.execAckTimer u sdev stile label s
  | .nackRetry u ddev dtile label seq => Sys2Proof.Machine.execNackRetry u ddev dtile label seq s
  | .hostAccessTimeout u c elem => Sys2Proof.Machine.execHostAccessTimeout u c elem s
  | .streamGranule u => Sys2Proof.Machine.execStreamGranule u s
  | .streamComplete u c k => Sys2Proof.Machine.execStreamComplete u c k s
  | .timelineIncrement u c k => Sys2Proof.Machine.execTimelineIncrement u c k s
  | .pageWalkComplete u c w => Sys2Proof.Machine.execPageWalkComplete u c w s
  | .tlbinvMarkersComplete shadow => Sys2Proof.Machine.execTlbinvMarkersComplete shadow s
  | .launchLoadComplete p => Sys2Proof.Machine.execLaunchLoadComplete p s
  | .ctxsaveComplete p => Sys2Proof.Machine.execCtxsaveComplete p s
  | .ctxloadComplete p => Sys2Proof.Machine.execCtxloadComplete p s
  | .monitorWake u => Sys2Proof.Machine.execMonitorWake u s
  | .mwaitTimeout u => Sys2Proof.Machine.execMwaitTimeout u s
  | .monitorLoss u => Sys2Proof.Machine.execMonitorLoss u s
  | .sweeperVisit line => Sys2Proof.Machine.execSweeperVisit line s
  | .hostApertureAccess a => Sys2Proof.Machine.execHostApertureAccess a s
  | .linkTrained link ldig rdig lat => Sys2Proof.Machine.execLinkTrained link ldig rdig lat s
  | .quarantineRetrain link => Sys2Proof.Machine.execQuarantineRetrain link s
  | .linkFailure link => Sys2Proof.Machine.execLinkFailure link s
  | .retrainWrite agent link => Sys2Proof.Machine.execRetrainWrite agent link s
  | .nutonRetrain width => Sys2Proof.Machine.execNutonRetrain width s
  | .syncInterval => Sys2Proof.Machine.execSyncInterval s
  | .sync m => Sys2Proof.Machine.execSync m s
  | .followUp m => Sys2Proof.Machine.execFollowUp m s
  | .delayReq m => Sys2Proof.Machine.execDelayReq m s
  | .delayResp m => Sys2Proof.Machine.execDelayResp m s
  | .announce m => Sys2Proof.Machine.execAnnounce m s
  | .auxPowerOn images helper => Sys2Proof.Machine.execAuxPowerOn images helper s
  | .startupStageComplete r => Sys2Proof.Machine.execStartupStageComplete r s
  | .moduleReset => Sys2Proof.Machine.execModuleReset s
  | .temperatureWarning die sensor reading => Sys2Proof.Machine.execTemperatureWarning die sensor reading s
  | .criticalTemperature die sensor => Sys2Proof.Machine.execCriticalTemperature die sensor s
  | .railRemoval => Sys2Proof.Machine.execRailRemoval s
  | .getVersion req => Sys2Proof.Machine.execGetVersion req s
  | .getCapabilities req => Sys2Proof.Machine.execGetCapabilities req s
  | .negotiateAlgorithms req => Sys2Proof.Machine.execNegotiateAlgorithms req s
  | .getDigests req => Sys2Proof.Machine.execGetDigests req s
  | .getCertificate req => Sys2Proof.Machine.execGetCertificate req s
  | .challenge req => Sys2Proof.Machine.execChallenge req s
  | .getMeasurements req => Sys2Proof.Machine.execGetMeasurements req s
  | .keyExchange req => Sys2Proof.Machine.execKeyExchange req s
  | .finish req => Sys2Proof.Machine.execFinish req s
  | .endSession req => Sys2Proof.Machine.execEndSession req s
  | .spdmUnsupportedRequest req => Sys2Proof.Machine.execSpdmUnsupportedRequest req s
  | .pldmGetSensor sensor => Sys2Proof.Machine.execPldmGetSensor sensor s
  | .debugWindowAccess a => Sys2Proof.Machine.execDebugWindowAccess a s
  | .debugWhistle job => Sys2Proof.Machine.execDebugWhistle job s
  | .debugRelease job t => Sys2Proof.Machine.execDebugRelease job t s
  | .debugStep kind a b => Sys2Proof.Machine.execDebugStep kind a b s
  | .debugHaltSteward k => Sys2Proof.Machine.execDebugHaltSteward k s
  | .debugRestartSteward k => Sys2Proof.Machine.execDebugRestartSteward k s
  | .debugReset => Sys2Proof.Machine.execDebugReset s
  | .barrierPlaneWrite agent j v => Sys2Proof.Machine.execBarrierPlaneWrite agent j v s
  | .rfqServed agent u c k => Sys2Proof.Machine.execRfqServed agent u c k s
  | .rfqDead agent u c k => Sys2Proof.Machine.execRfqDead agent u c k s
  | .streamRetry agent u c k => Sys2Proof.Machine.execStreamRetry agent u c k s
  | .stripStatusWrite agent u c e v => Sys2Proof.Machine.execStripStatusWrite agent u c e v s
  | .timelineWindowWrite agent u c k v => Sys2Proof.Machine.execTimelineWindowWrite agent u c k v s
  | .noticeLineSet agent die v => Sys2Proof.Machine.execNoticeLineSet agent die v s
  | .errorLogClear agent u a => Sys2Proof.Machine.execErrorLogClear agent u a s
  | .traceControlWrite agent u v => Sys2Proof.Machine.execTraceControlWrite agent u v s
  | .monitorConfigWrite agent die inst k v => Sys2Proof.Machine.execMonitorConfigWrite agent die inst k v s
  | .routeUnitJobWrite agent die v => Sys2Proof.Machine.execRouteUnitJobWrite agent die v s
  | .windowWrite agent a => Sys2Proof.Machine.execWindowWrite agent a s
  | .circuitDeparture u run => Sys2Proof.Machine.execCircuitDeparture u run s
  | .reservedTypePacket link p => Sys2Proof.Machine.execReservedTypePacket link p s
  | .healthMonitorSample die inst src sel value => Sys2Proof.Machine.execHealthMonitorSample die inst src sel value s

end Sys2Proof.Machine
end

