-- ==== Sys2Proof/Machine/Serve.lean ====
section
/-!
DEFINITION. A due event has the meaning of its row of the opcode table.
-/
namespace Sys2Proof.Machine

/-- The effect of a due event: that of `exec` on its instruction (Laws/Schedule.lean shows it). -/
def serve (e : Event) (s : State) : Host.Outcome State Fault Refusal :=
  match e with
  | .microStep u e => execMicroStep u e s
  | .pipelinedResultWrite u c r v fl sat => execPipelinedResultWrite u c r v fl sat s
  | .vectorResultLands u c r on v bad fl sat => execVectorResultLands u c r on v bad fl sat s
  | .accumulatorEntry u row v => execAccumulatorEntry u row v s
  | .wloadEntry u => execWloadEntry u s
  | .latchValid u w => execLatchValid u w s
  | .latchRestoreComplete u => execLatchRestoreComplete u s
  | .rowBufferDrain u bank => execRowBufferDrain u bank s
  | .eccWriteback pa => execEccWriteback pa s
  | .asyncTrapDelivery u c => execAsyncTrapDelivery u c s
  | .boundaryConditionsMet j => execBoundaryConditionsMet j s
  | .minimumPairExpiry j => execMinimumPairExpiry j s
  | .timedBoundaryTime j => execTimedBoundaryTime j s
  | .boundarySequence j => execBoundarySequence j s
  | .startPulseArrival j u => execStartPulseArrival j u s
  | .stragglerFault j => execStragglerFault j s
  | .deadlineFault u c => execDeadlineFault u c s
  | .hangFault u c e => execHangFault u c e s
  | .waveReachesTile j u => execWaveReachesTile j u s
  | .causeSettle j => execCauseSettle j s
  | .tileRelease j u => execTileRelease j u s
  | .stepRefreeze j u => execStepRefreeze j u s
  | .stepTimeout u e => execStepTimeout u e s
  | .write p => execWrite p s
  | .writem p => execWritem p s
  | .read p => execRead p s
  | .rreply p => execRreply p s
  | .cread p => execCread p s
  | .creply p => execCreply p s
  | .rcount p => execRcount p s
  | .rslot p => execRslot p s
  | .atom p => execAtom p s
  | .ares p => execAres p s
  | .red p => execRed p s
  | .reductionDelivery w => execReductionDelivery w s
  | .ack p => execAck p s
  | .nack p => execNack p s
  | .probe p => execProbe p s
  | .back p => execBack p s
  | .ready p => execReady p s
  | .fail p => execFail p s
  | .cmark p => execCmark p s
  | .creport p => execCreport p s
  | .fault p => execFault p s
  | .free p => execFree p s
  | .barrier p => execBarrier p s
  | .whistleFreeze p => execWhistleFreeze p s
  | .whistleResume p => execWhistleResume p s
  | .whistleJobStep p => execWhistleJobStep p s
  | .circuitBeat u cid n v bad late => execCircuitBeat u cid n v bad late s
  | .circuitTeardown u src cause => execCircuitTeardown u src cause s
  | .leaseExpiry u c h => execLeaseExpiry u c h s
  | .meterIdleExpiry u k => execMeterIdleExpiry u k s
  | .holdoffExpiry u k => execHoldoffExpiry u k s
  | .meterDecay u => execMeterDecay u s
  | .meterProbeTimeout u k => execMeterProbeTimeout u k s
  | .handleProbeTimeout u c h => execHandleProbeTimeout u c h s
  | .reservationTimeout entry => execReservationTimeout entry s
  | .retransmitTimeout u ddev dtile label => execRetransmitTimeout u ddev dtile label s
  | .ackTimer u sdev stile label => execAckTimer u sdev stile label s
  | .nackRetry u ddev dtile label seq => execNackRetry u ddev dtile label seq s
  | .hostAccessTimeout u c elem => execHostAccessTimeout u c elem s
  | .streamGranule u => execStreamGranule u s
  | .streamComplete u c k => execStreamComplete u c k s
  | .timelineIncrement u c k => execTimelineIncrement u c k s
  | .pageWalkComplete u c w => execPageWalkComplete u c w s
  | .tlbinvMarkersComplete shadow => execTlbinvMarkersComplete shadow s
  | .launchLoadComplete p => execLaunchLoadComplete p s
  | .ctxsaveComplete p => execCtxsaveComplete p s
  | .ctxloadComplete p => execCtxloadComplete p s
  | .monitorWake u => execMonitorWake u s
  | .mwaitTimeout u => execMwaitTimeout u s
  | .monitorLoss u => execMonitorLoss u s
  | .sweeperVisit line => execSweeperVisit line s
  | .hostApertureAccess a => execHostApertureAccess a s
  | .linkTrained link ldig rdig lat => execLinkTrained link ldig rdig lat s
  | .quarantineRetrain link => execQuarantineRetrain link s
  | .linkFailure link => execLinkFailure link s
  | .retrainWrite agent link => execRetrainWrite agent link s
  | .nutonRetrain width => execNutonRetrain width s
  | .syncInterval => execSyncInterval s
  | .sync m => execSync m s
  | .followUp m => execFollowUp m s
  | .delayReq m => execDelayReq m s
  | .delayResp m => execDelayResp m s
  | .announce m => execAnnounce m s
  | .auxPowerOn images helper => execAuxPowerOn images helper s
  | .startupStageComplete r => execStartupStageComplete r s
  | .moduleReset => execModuleReset s
  | .temperatureWarning die sensor reading => execTemperatureWarning die sensor reading s
  | .criticalTemperature die sensor => execCriticalTemperature die sensor s
  | .railRemoval => execRailRemoval s
  | .getVersion req => execGetVersion req s
  | .getCapabilities req => execGetCapabilities req s
  | .negotiateAlgorithms req => execNegotiateAlgorithms req s
  | .getDigests req => execGetDigests req s
  | .getCertificate req => execGetCertificate req s
  | .challenge req => execChallenge req s
  | .getMeasurements req => execGetMeasurements req s
  | .keyExchange req => execKeyExchange req s
  | .finish req => execFinish req s
  | .endSession req => execEndSession req s
  | .spdmUnsupportedRequest req => execSpdmUnsupportedRequest req s
  | .pldmGetSensor sensor => execPldmGetSensor sensor s
  | .debugWindowAccess a => execDebugWindowAccess a s
  | .debugWhistle job => execDebugWhistle job s
  | .debugRelease job t => execDebugRelease job t s
  | .debugStep kind a b => execDebugStep kind a b s
  | .debugHaltSteward k => execDebugHaltSteward k s
  | .debugRestartSteward k => execDebugRestartSteward k s
  | .debugReset => execDebugReset s
  | .barrierPlaneWrite agent j v => execBarrierPlaneWrite agent j v s
  | .rfqServed agent u c k => execRfqServed agent u c k s
  | .rfqDead agent u c k => execRfqDead agent u c k s
  | .streamRetry agent u c k => execStreamRetry agent u c k s
  | .stripStatusWrite agent u c e v => execStripStatusWrite agent u c e v s
  | .timelineWindowWrite agent u c k v => execTimelineWindowWrite agent u c k v s
  | .noticeLineSet agent die v => execNoticeLineSet agent die v s
  | .errorLogClear agent u a => execErrorLogClear agent u a s
  | .traceControlWrite agent u v => execTraceControlWrite agent u v s
  | .monitorConfigWrite agent die inst k v => execMonitorConfigWrite agent die inst k v s
  | .routeUnitJobWrite agent die v => execRouteUnitJobWrite agent die v s
  | .windowWrite agent a => execWindowWrite agent a s
  | .circuitDeparture u run => execCircuitDeparture u run s
  | .reservedTypePacket link p => execReservedTypePacket link p s
  | .healthMonitorSample die inst src sel value => execHealthMonitorSample die inst src sel value s
  | .outside o => execOutside o s

end Sys2Proof.Machine
end

