-- ==== Sys2Proof/Machine/Cycle.lean ====
section
/-!
DEFINITION. One cycle of the module: the turns of the engines, the slip of timed strips (01 R30), the end of the cycle with its
stream granules and drains, and what the next one's beginning makes due: timers, queued events. The order of the turns is that
of 07 R205 (log entry 1).
-/
namespace Sys2Proof.Machine

/-! ### The control core (02 R43 to R46; 04 R107; 14 R393) -/

/-- The control core of the acting unit issues from F0: an annulled entry passes, an entry that fails a check traps, any
other is executed. A multi-cycle instruction goes on from its micro-step, checked again after a reload of the queue (02 R71).
A placeholder that reaches F0 is the end of a chain, also where its annulled predecessor's line is absent; an instruction of one
cycle runs whatever micro-step a return names (log entry 52). -/
def coreTurn (s : State) : Host.Outcome State Fault Refusal :=
  let u := s.cur.unit
  match s.me.late with
  | some r => .next (s.finishLate r)
  | none =>
    let goesOn := s.me.ust != 0 && !s.me.unchecked
    let s := s.modMe fun x => { x with queue := s.refresh u s.bank x.queue, unchecked := false }
    let f0 := s.me.queue.f0
    if f0.annul then .next s.retire.offerTrap
    else match f0.pos with
      | none => .next (s.raise chainEnd none)
      | some p =>
        if goesOn && s.multiHere.isSome then exec (.microStep u 0) s
        else match s.issueChecks p f0.slot f0.link with
          | (s, .inl t) => .next (s.raise t none)
          | (s, .inr i) => exec i s

/-- The control core of a unit may act: a started steward that is not halted; the running context of a tile that is
neither frozen nor stopped nor past its TEND. A step lets it act though it is frozen (14 R406). -/
def Tile.coreActs (t : Tile) (u : Nat) : Bool :=
  let x := t.ctx t.run
  if isSteward u then t.started && !t.halted
  else
    let stepped := t.stepping.any fun st => st.eng == 0
    x.life == .running && !x.stopped && (!x.frozen || stepped) && (!x.tend || x.inHandler)

/-! ### Strips (02 R44, R45; 09 R260; 01 R30) -/

/-- The acting strip issues, or goes on with its instruction, which is checked again where its slot is not held any more
(02 R71). The position 0x7F_FFFF is the end of a chain, also where SGO has given it (log entry 52). -/
def stripTurn (s : State) : Host.Outcome State Fault Refusal :=
  let t := s.strip
  if t.pos = noPos then .next (s.trapStrip chainEnd)
  else
    let slot := s.fetch s.cur.unit s.bank t.pos
    if t.slot.isSome ∧ s.multiHere.isSome then exec (.microStep s.cur.unit s.cur.eng) s
    else match s.issueChecks t.pos slot (s.linkWord s.cur.unit (posLine t.pos)) with
      | (s, .inl t) => .next (s.trapStrip t)
      | (s, .inr i) => exec i s

/-- The strip of engine `e` may act in a cycle: it is RUNNING and its context is not frozen, or it is in a micro-step that
a freeze or SSTOP lets finish (14 R401, 09 R263). -/
def Tile.stripActs (t : Tile) (e now : Nat) : Bool :=
  let x := t.ctx t.run
  let p := x.strip e
  let stepped := t.stepping.any fun st => st.eng == e && st.cycles.isNone
  x.life == .running && decide (p.next ≤ now)
    && ((p.state == 2 && !x.frozen) || (p.spent != 0 && (x.frozen || p.state == 3)) || (x.frozen && stepped))

/-- The acting access strip stands at an instruction that reads through the cluster's multicast path (07 R213). -/
def State.usesCast (s : State) : Bool :=
  let shared := fun (k : BitVec 4) => descSpace (s.me.desc.look 0 k.toNat) == 1
  match s.stripFetched with
  | none => false
  | some (w, nxt) =>
    match decodeSlot false 1 w nxt with
    | .instr (.aldm _ _) => true
    | .instr (.srun _ o) => shared o.ds
    | .instr (.agath _ o) => shared o.ds || shared (o.imm.extractLsb' 0 4)
    | _ => false

/-- Every strip of the acting tile is held for one cycle (01 R30). -/
def State.holdStrips (s : State) (es : List Nat) : State :=
  es.foldl (fun s e => s.modStrip s.cur.unit s.bank e fun t => { t with next := max t.next s.cycle + 1 }) s

/-- One slip of the acting context (13 R383). -/
def State.countSlip (s : State) : State :=
  (s.modHere fun t => { t with slipped := true }).modMe fun x => { x with slipPending := cap32 (x.slipPending + 1) }

/-- The acting unit is at another of its engines. -/
def State.at_ (s : State) (e : Nat) : State := { s with cur := { unit := s.cur.unit, eng := e } }

/-- The wait that the turn of a strip ends in: its code and FIFO. -/
def State.turnWaits (s : State) : Option (Nat × Nat) :=
  match stripTurn s with
  | .next m => if m.strip.wait = 0 then none else some (m.strip.wait, m.strip.waitFifo)
  | _ => none

/-- The timed strips of the acting tile that cannot go on in this cycle: engine, wait code and FIFO. -/
def State.timedWaits (s : State) : List (Nat × Nat × Nat) :=
  [4, 1, 2, 3].filterMap fun e =>
    if s.here.stripActs e s.cycle && !(s.me.strip e).el then (s.at_ e).turnWaits.map fun w => (e, w) else none

/-- The pending flags as they stand before the engines of this cycle act, those that land in it among them (04 R125,
13 R384). -/
def State.seeFlags (s : State) : State :=
  s.modMe fun x =>
    let x := x.landFlags s.cycle
    { x with flagsSeen := x.fpend }

/-- The beginning of a tile's turn: where a timed strip cannot go on in a compute phase, all four strips are held for one
cycle and one slip is counted (01 R30); a WSCAT past its eighth cycle goes on, each such cycle being a slip (07 R227). -/
def slipTurn (s : State) : Host.Outcome State Fault Refusal :=
  let s := s.seeFlags
  let x := s.me
  if s.inExchange || x.frozen || x.life != .running then .next s
  else
    let ws := s.timedWaits
    let late := s.scatterOvertime s.cur.unit s.bank && s.here.stripActs 4 s.cycle && ws.all fun w => w.1 != 4
    if ws.isEmpty && !late then .next s
    else
      let s := if late then
          match stripTurn (s.at_ 4) with
          | .next m => m
          | _ => s
        else s
      let s := ws.foldl (fun s w => (s.at_ w.1).stripWaits w.2.1 w.2.2) s
      .next (s.countSlip.holdStrips (if late then [1, 2, 3] else [1, 2, 3, 4]))

/-- A turn of a strip; a timed one that loses a grant in a compute phase slips (07 R205). -/
def stripTurnSlips (s : State) : Host.Outcome State Fault Refusal :=
  match stripTurn s with
  | .next m =>
    if m.strip.wait != 0 && m.strip.state == 2 && !m.strip.el && !m.inExchange && !m.me.frozen && !m.here.slipped then
      .next (m.countSlip.holdStrips [1, 2, 3, 4])
    else .next m
  | r => r

/-! ### Steps of one engine (14 R406) -/

/-- What a step of the acting engine has to change before it is complete. -/
def State.progressMark (s : State) (st : Stepping) : Queue × Bool × Nat × Pos × Nat :=
  let x := s.me
  if st.eng = 0 then (x.queue, x.stopped, 0, 0, 0)
  else
    let t := x.strip st.eng
    (x.queue, false, t.state, t.pos, if st.whole then 0 else t.ust)

/-- The stepped engine has had its turn: once it has gone on, its step ends when its results have landed; it ends at once when it
has trapped, a strip's trap being taken by its disposition, and after 2^16 cycles (05 R170, 06 R202, 14 R406). -/
def afterStep (s : State) (st : Stepping) (r : Host.Outcome State Fault Refusal) : Host.Outcome State Fault Refusal :=
  match r with
  | .next m =>
    let u := s.cur.unit
    let landed := st.eng == 0 || decide ((m.me.strip st.eng).drained ≤ m.cycle)
    if let some n := st.cycles then .next (if landed then m.endStep u n else m)
    else if s.me.traps.length < m.me.traps.length then .next ((m.deliver u m.bank).endStep u (m.cycle + 1 - st.since))
    else if (s.at_ st.eng).progressMark st ≠ (m.at_ st.eng).progressMark st then
      let n := m.cycle + 1 - st.since
      .next (if landed then m.endStep u n
        else m.mod u fun t => { t with stepping := t.stepping.map fun st => { st with cycles := some n } })
    else if st.since + 65536 ≤ m.cycle then .next (m.due (.stepTimeout u st.eng))
    else .next m
  | r => r

/-! ### The turn of an engine -/

/-- Engine 5 stands for the beginning of a tile's turn, engine 7 for the bank access of its control core, engine 6 for an
access strip that reads through the multicast path, which comes after every tile's own accesses (07 R213). -/
def turn (a : Agent) (s : State) : Host.Outcome State Fault Refusal :=
  let e := if a.eng = 6 then 1 else a.eng
  let s := { s with cur := { unit := a.unit, eng := e } }
  let s := if e = 5 ∨ (e = 7 ∧ isSteward a.unit) then s.checkProtected a.unit else s
  let t := s.here
  let act :=
    if e = 5 then slipTurn s
    else if e = 7 then .next (s.serveAccess a.unit s.bank)
    else if e = 0 then (if s.here.coreActs a.unit then coreTurn s else .next s)
    else if !t.stripActs e s.cycle then .next s
    else if e = 1 ∧ s.usesCast ≠ (a.eng == 6) then .next s
    else stripTurnSlips s
  match t.stepping with
  | some st => if st.eng = e then afterStep s st act else act
  | none => act

/-! ### The end of a cycle -/

/-- A running tile at the end of a cycle: reads by siblings, flags, tokens, arrival (07 R205, 13 R384, 02 R54, 01 R23). -/
def State.closeTile (s : State) (u : Nat) : State :=
  let c := (s.tile u).run
  let s := (s.serveSibling u c).launchWaiting u
  let s := s.mod u fun t => t.landTokens s.cycle
  let s := s.mod u fun t => { t with
    ctxA := t.ctxA.settleFlags, ctxB := t.ctxB.settleFlags
    tokens := t.newTokens.foldl (fun ts e => ts.put e.1 (ts.look 0 e.1 + e.2)) t.tokens, newTokens := [] }
  s.checkArrival u

/-- Gangs whose members have all executed TEND are LEAVING (11 R335). -/
def State.noteLeaving (s : State) : State :=
  (s.placed.filter fun e => e.2.state == 4 && !e.2.saving && s.gangEnded e.2).foldl
    (fun s e => s.modPlacement e.1 fun p => { p with state := 6 }) s

/-- Every access strip of a job on this module has executed SEND in this phase; one that no SGO has started counts once its context has
ended its phase (08 R255). -/
def State.recordsSent (s : State) (id : BitVec 32) : Bool :=
  let us := s.units.filter fun e => !isSteward e.1 && (e.2.ctx e.2.run).life == .running && (e.2.ctx e.2.run).jobId == id
  !us.isEmpty && us.all fun e =>
    let x := e.2.ctx e.2.run
    !x.pulseDue && (x.access.state == 4 || ((x.phend || x.tend) && x.access.state == 0))

/-- The windows of jobs in an exchange phase that this module flushes now. -/
def State.flushWindows (s : State) : State :=
  (List.range 64).foldl (fun s w =>
    if s.windowValid w && !s.flushes.contains (w, s.device) then
      match s.jobSlot (s.windowJob w) with
      | some j => if (s.job j).phase % 2 = 1 && s.recordsSent (s.windowJob w) then s.flushWindow w s.device else s
      | none => s
    else s) s

/-- The meter entries: HOLDOFF and idle timers and unanswered probes count while their context is not frozen
(10 R315). -/
def Tile.tickMeters (t : Tile) : Tile :=
  { t with meters := t.meters.map fun e =>
    (e.1, if (t.ctx e.2.c).frozen then e.2
      else if e.2.state = 3 ∨ e.2.state = 4 then { e.2 with timer := e.2.timer - 1 }
      else if e.2.state = 2 then { e.2 with age := e.2.age + 1 } else e.2) }

/-- The events of meter entries whose time is up, and the decay (10 R314, R315). -/
def Tile.dueMeters (t : Tile) (u now : Nat) : List Event :=
  (t.meters.flatMap fun e =>
    if (t.ctx e.2.c).frozen then []
    else if e.2.state = 3 ∧ e.2.timer = 0 then [Event.holdoffExpiry u e.1]
    else if e.2.state = 4 ∧ e.2.timer = 0 then [.meterIdleExpiry u e.1]
    else if e.2.state = 2 ∧ e.2.age = 65536 then [.meterProbeTimeout u e.1] else [])
    ++ (if !t.meters.isEmpty && now % t.param 1 == 0 then [.meterDecay u] else [])

/-- What happens to flow meters in a cycle takes effect at its end, in the order of its happening: READY and FAIL, then timers and the
decay (10 R315). -/
def State.dueFlows (s : State) : State :=
  { s with atEnd := [], inbox := s.inbox ++ s.atEnd ++ s.units.flatMap fun e => e.2.dueMeters e.1 s.cycle }

/-- The last accesses of a cycle: a granule of each tile's streams; then row buffers drain in the banks that granted nothing,
and corrected words return to free banks (07 R205, R206, R219). -/
def State.dueDrains (s : State) : State :=
  let s := s.units.foldl (fun s e => if (s.tile e.1).streamsReady.isEmpty then s else s.due (.streamGranule e.1)) s
  let s := s.units.foldl (fun s e =>
    (e.2.rowBuf.filter fun b => b.2 != 0 && !(s.tile e.1).granted.contains b.1).foldl
      (fun s b => s.due (.rowBufferDrain e.1 b.1)) s) s
  let back := fun (e : Nat × Event) => match e.2 with
    | .eccWriteback _ => decide (e.1 ≤ s.cycle)
    | _ => false
  { s with inbox := s.inbox ++ (s.agenda.filter back).map (·.2), agenda := s.agenda.filter fun e => !back e }

/-- The work of the module at the end of a cycle. -/
def State.closeCycle (s : State) : State :=
  let tiles := (s.units.map (·.1)).filter fun u => !isSteward u
  let s := tiles.foldl State.closeTile s
  let s := (List.range 8).foldl State.boundaryUnit s.noteLeaving
  let s := (s.rejoin.updateReady.chooseReserving.flushWindows.drainPorts).tellSensors
  { s.moveProbes.dueFlows.dueDrains with ended := true }

/-! ### The beginning of a cycle -/

/-- What a strip of a frozen context still idles stands, unless it is in a micro-step or the one stepped (05 R170). -/
def Ctx.holdIdle (x : Ctx) (now : Nat) (stepped : Option Nat) : Ctx :=
  [1, 2, 3, 4].foldl (fun x e =>
    let t := x.strip e
    if t.next < now ∨ t.spent ≠ 0 ∨ stepped = some e then x else x.setStrip e { t with next := t.next + 1 }) x

/-- The counters of a running context that is not frozen: local cycle, deadline (13 R365, 01 R33). -/
def Ctx.tick (x : Ctx) (compute : Bool) (now : Nat) (stepped : Option Nat) : Ctx :=
  if x.frozen then x.holdIdle now stepped
  else if x.life != .running then x
  else { x with
    localCycle := x.localCycle + 1
    deadline := if compute && !x.arrived && !x.pulseDue then x.deadline + 1 else x.deadline }

/-- The handles of a context: leases and unanswered probes count while it is not frozen (10 R319, R320). -/
def Ctx.tickHandles (x : Ctx) : Ctx :=
  if x.frozen then x
  else { x with handles := x.handles.map fun e =>
    (e.1, if e.2.state = 0 then e.2
      else { e.2 with age := if e.2.state = 1 then e.2.age + 1 else e.2.age, lease := e.2.lease - 1 }) }

/-- The events of handles whose time is up. -/
def Ctx.dueHandles (x : Ctx) (u : Nat) (c : Bool) : List Event :=
  if x.frozen then []
  else x.handles.flatMap fun e =>
    (if e.2.state = 1 ∧ e.2.age = 65536 then [Event.handleProbeTimeout u c e.1] else [])
      ++ (if (e.2.state = 1 ∨ e.2.state = 2) ∧ e.2.lease = 0 then [.leaseExpiry u c e.1] else [])

/-- Retransmission and acknowledgement clocks; they pause while the context is frozen (10 R296). -/
def Tile.tickPackets (t : Tile) : Tile :=
  { t with
    kept := t.kept.map fun k => if (t.ctx k.c).frozen then k else { k with age := k.age + 1, retry := k.retry.map (· - 1) }
    rx := t.rx.map fun r => if r.unacked = 0 ∨ (t.ctx (labelContext r.label)).frozen then r else { r with timer := r.timer + 1 } }

/-- The streams whose packets are sent again, each once, and those acknowledged now. -/
def Tile.duePackets (t : Tile) (u : Nat) : List Event :=
  (((t.kept.filter fun k => decide (65536 ≤ k.age)).map fun k =>
      Event.retransmitTimeout u k.pkt.ddev.toNat k.pkt.dtile.toNat k.pkt.label.toNat).eraseDups)
    ++ ((t.kept.filter fun k => k.retry == some 0 && !(t.ctx k.c).frozen).map fun k =>
      .nackRetry u k.pkt.ddev.toNat k.pkt.dtile.toNat k.pkt.label.toNat k.pkt.seq.toNat)
    ++ (t.rx.filter fun r => r.unacked != 0 && decide (256 ≤ r.timer)).map fun r => .ackTimer u r.sdev r.stile r.label

/-- A tile begins a cycle: no bank has granted, timers count, new parameters take effect. -/
def Tile.tick (t : Tile) (now : Nat) (compute : Bool) : Tile :=
  let t := t.setCtx t.run ((t.ctx t.run).tick compute now (t.stepping.map (·.eng)))
  let t := { t with
    ctxA := t.ctxA.tickHandles, ctxB := t.ctxB.tickHandles
    granules := if t.granules.isEmpty then [] else t.granules.filter (now < ·)
    granted := [], cast := [], goneTokens := [], slipped := false }
  (t.tickMeters.tickPackets).takeParams now

/-- The deadline counter of a running context has passed its budget and the context has not arrived (01 R33): at a budget of 3,000 this
is in local cycle 3,001, before an arrival in that cycle. -/
def State.pastDeadline (s : State) (u : Nat) (t : Tile) : Bool :=
  let x := t.ctx t.run
  x.life == .running && !x.frozen && !x.stopped && !x.pulseDue && !x.arrived && !s.exchange u t.run
    && decide (x.budgetNow < x.deadline)

/-- What a tile has due at the beginning of a cycle. -/
def State.dueTile (s : State) (u : Nat) (t : Tile) : List Event :=
  (if s.pastDeadline u t then [.deadlineFault u t.run] else []) ++
  t.ctxA.dueHandles u false ++ t.ctxB.dueHandles u true ++ t.duePackets u
    ++ (if s.wloadReady u then [.wloadEntry u] else [])

/-- TENTATIVE reservations age while the job of their circuit is not frozen (12 R363). -/
def State.tickReservations (s : State) : State :=
  { s with resv := s.resv.map fun e => (e.1, if e.2.state = 1 && !s.circuitFrozen e.2.cid then { e.2 with age := e.2.age + 1 } else e.2) }

/-- What the module has due at the beginning of a cycle besides its tiles: reservations, shadows, the sweeper, the
monitors of the dies (12 R352, R363; 08 R240; 13 R385). -/
def State.dueModule (s : State) : List Event :=
  ((s.resv.filter fun e => e.2.state == 1 && e.2.age == 65536).map fun e => Event.reservationTimeout e.1)
    ++ ((s.shadows.filter fun e => decide (e.2.placedAt ≤ s.cycle) && !s.aheadOf e.1).map fun e => .tlbinvMarkersComplete e.1)
    ++ (if s.cycle % 2 ^ 29 = 0 then s.stamps.map fun e => .sweeperVisit e.1 else [])
    ++ (if s.cycle % 8192 = 0 then (List.range 32).map fun k => .healthMonitorSample true (k / 8) 10 (k % 8) (s.sensors.die.look 0 k)
        else [])
    ++ (if s.cycle % 1024 = 0 then (List.range 4).map fun d => .healthMonitorSample true d 11 0 (Config.freeNat (s.fresh + d)) else [])

/-- A unit whose engines get a turn. -/
def Tile.live (t : Tile) (u : Nat) : Bool :=
  if isSteward u then t.started
  else
    let x := t.ctx t.run
    x.life == .running || x.life == .waiting

/-- The turns of a cycle: of each tile its beginning, the writeback and access strips, the matrix and vector strips, the bank
access of the control core; then the access strips that use the multicast path; then the control cores, whose effect on a strip
comes with the next cycle (04 R105, 09 R264). -/
def State.turns (s : State) : List Agent :=
  let live := s.units.filter fun e => e.2.live e.1
  (live.flatMap fun e => (if isSteward e.1 then [7] else [5, 4, 1, 2, 3, 7]).map fun g => { unit := e.1, eng := g })
    ++ ((live.filter fun e => !isSteward e.1).map fun e => { unit := e.1, eng := 6 })
    ++ live.map fun e => { unit := e.1, eng := 0 }

/-- Every unit at the beginning of a cycle. -/
def State.tickUnits (s : State) (now : Nat) : Tab Tile := s.units.map fun e => (e.1, e.2.tick now (!s.exchange e.1 e.2.run))

/-- The next cycle begins. -/
def State.nextCycle (s : State) : State :=
  let s := s.units.foldl (fun s e => s.traceFlush e.1) s
  let now := s.cycle + 1
  let s := { s with
    cycle := now, time := s.time + s.timeStep, ended := false
    units := State.tickUnits s now }
  let s := s.units.foldl (fun s e => if e.2.rowsDue.isEmpty then s else s.landRows e.1) s.grantRoutes.tickReservations
  let back := fun (e : Nat × Event) => match e.2 with
    | .eccWriteback _ => false
    | _ => decide (e.1 ≤ now)
  -- results that land in the cycle of a boundary belong to the next superstep (03 R94)
  let lands := fun (e : Nat × Event) => match e.2 with
    | .pipelinedResultWrite .. => true
    | .vectorResultLands .. => true
    | _ => false
  let ours := s.agenda.filter back
  let inbox := ((ours.filter fun e => !lands e) ++ ours.filter lands).map (·.2) ++ (s.units.flatMap fun e => s.dueTile e.1 e.2) ++ s.dueModule
  let s := { s with inbox := s.inbox ++ inbox, agenda := s.agenda.filter fun e => !back e }
  { s with ready := s.turns, fresh := if now % 1024 = 0 then s.fresh + 4 else s.fresh }

/-! ### Placing one instruction -/

/-- The X-class transfers and the atomics, legal in exchange phases only (10 R293, 08 R248). -/
def exchangeOp (eng : Nat) (op : BitVec 8) : Bool := eng == 1 && decide (0x20 ≤ op.toNat) && decide (op.toNat ≤ 0x39)

/-- The job of a context stands in an exchange phase; without an open job, slot 0 is opened for it. -/
def State.toExchange (s : State) (u : Nat) (c : Bool) : State :=
  match s.slotOf u c with
  | some j => s.modJob j fun b => { b with phase := b.phase + (b.phase + 1) % 2 }
  | none => s.modJob 0 fun b => { b with opened := true, id := (s.ctx u c).jobId, phase := 1 }

/-- A line whose slot 0 is `w` and slot 1 `nxt`, of engine `e`, at the end of its chain (02 R41, R42). -/
def lineOf (e : Nat) (w nxt : Slot) : Nat := 1 * 2 ^ 5 + 0xFFFFF * 2 ^ 8 + e % 16 * 2 ^ 28 + w.toNat * 2 ^ 32 + nxt.toNat * 2 ^ 92

/-- The instruction of a table word stored at position 0 of a unit that is about to issue it. -/
def placeSlot (s : State) (v : Nat) : State :=
  let w := tableSlot v
  let e := tableEngine v
  let u := if privilegedOp e w.op then 768 else 0
  let c := (s.tile u).run
  let s := s.storePA (windowPA u (lineOffset 0)) 64 (lineOf e w (tableNext v))
  let s := s.mod u fun t => { t with tags := t.tags.put 0 (some (c, 0)), started := true, halted := false, stepping := none }
  let q := s.queueAt u c 0
  let s := s.modCtx u c fun x =>
    let x := { x with life := .running, frozen := false, stopped := false, tend := false }
    if e = 0 then { x.forgetResult with queue := q, ust := 0, unchecked := false, since := none, sources := none, spoiled := false }
    else x.setStrip e { (x.strip e).clean with state := 2, pos := 0, next := s.cycle }
  let s := if exchangeOp e w.op then s.toExchange u c else s
  let s := { s with power := true, inbox := [], cur := { unit := u, eng := e } }
  { s with ready := [{ unit := u, eng := if e = 1 ∧ s.usesCast then 6 else e }] }

end Sys2Proof.Machine
end

