-- ==== Sys2Proof/Machine/Step.lean ====
section
/-!
DEFINITION. One step of the module, and the placing of one instruction where the step fetches it.
-/
namespace Sys2Proof.Machine

/-- One step: the first due event, else the turn of the next engine, else the end of the cycle, else the next cycle. With
the main rails down and nothing due nothing happens: `poweredOff` (log entry 1). -/
def step (s : State) : Host.Outcome State Fault Refusal :=
  match s.inbox with
  | e :: rest => serve e { s with inbox := rest }
  | [] =>
    if !s.power then .fault .poweredOff
    else match s.ready with
      | a :: rest => turn a { s with ready := rest }
      | [] => .next (if s.ended then s.nextCycle else s.closeCycle)

/-- The state with the instruction of a table word (`tableSlot`) placed at the position that the next step fetches from:
line 0 of a unit whose engine is then the only one with a turn. A privileged instruction stands in steward st0, any other
in tile 0, in the phase that it is legal in (log entry 10). -/
def State.withFetchWord (s : State) (nbits w : Nat) : State :=
  placeSlot s (w % 2 ^ nbits)

end Sys2Proof.Machine
end

