-- ==== Sys2Proof/Safety.lean ====
section
/-!
DEFINITION. The terms in which statements about the module are made: when an instruction may issue, what its issue leaves,
and what counts as unchanged.
-/
namespace Sys2Proof.Machine

/-! ### What a statement about the control core forgets -/

/-- A context without its fetch queue and what belongs to the instruction at F0 alone: its micro-step, its waiting, the
sources of a multi-cycle instruction. -/
def Ctx.sansIssue (x : Ctx) : Ctx :=
  { x with
    queue := { f0 := { pos := none }, f1 := { pos := none }, f2 := { pos := none } }
    ust := 0, unchecked := false, hold := none, told := false, since := none, sources := none, spoiled := false, stall := 0, wait := 0 }

/-- The module without those parts of the acting context, and without what is due next (a pending trap is offered when an
instruction completes, 14 R393). -/
def State.sansIssue (s : State) : State := { s.modMe Ctx.sansIssue with inbox := [] }

/-- `i` completes at `s`, and but for the fetch queue and the issue bookkeeping of the acting context it leaves exactly `m`:
every register, flag, byte and every other unit is as in `m`. -/
def Issues (i : Instr) (s m : State) : Prop := ∃ t, exec i s = .next t ∧ t.sansIssue = m.sansIssue

/-! ### When a control-core instruction may issue -/

/-- A source register holds its value: no write of it is pending, it is not dead, and its stored word is without error
(04 R99, R100, R127). -/
def State.sourceReady (s : State) (r : Nat × Bool) : Bool :=
  let w := scalarPA s.cur.unit s.bank r.1
  !s.me.pendingWrite (.sreg r.1) && (r.1 == 0 || !s.me.dead.getLsbD r.1) && (s.flips.find w).isNone
    && (s.poison.find w).isNone

/-- The stored word of the predicates is without error (04 R127). -/
def State.predicatesReady (s : State) : Bool :=
  (s.flips.find (predicatePA s.cur.unit s.bank)).isNone && (s.poison.find (predicatePA s.cur.unit s.bank)).isNone

/-- An instruction that reads and writes as `p` says may issue at `s` with a true guard: its privilege and phase are met, its
guard, sources and destinations have no pending write, its sources hold their values, the predicates too where it reads some,
and the core waits for no result into s2 (02 R52, R61, R64; 04 R99, R100, R102). -/
def coreReady (o : CoreForm) (p : CoreSpec) (s : State) : Bool :=
  (!p.privileged || isSteward s.cur.unit) && (!p.compute || !s.inExchange)
    && (!o.g || !s.me.pendingWrite (.preg o.p.toNat)) && s.me.guardTrue o
    && p.reads.all s.sourceReady && p.preds.all (fun n => !s.me.pendingWrite (.preg n))
    && p.writes.all (fun r => !s.me.pendingWrite r)
    && (!(o.g || !p.preds.isEmpty) || s.predicatesReady)
    && s.me.late.isNone

/-- No stored word that [pa, pa + n) touches is poisoned or has inverted bits (07 R219, R220). -/
def State.sound (s : State) (pa n : Nat) : Prop := ∀ w ∈ wordsTouching pa n, s.flips.find w = none ∧ s.poison.find w = none

/-- The state with the last-use bits of the sources taken (04 R99). -/
def State.marked (s : State) (rs : List (Nat × Bool)) : State := s.modMe fun x => x.markAll rs

/-- The value `v` does not go below ctl.slim in s2 (04 R115). -/
def State.aboveLimit (s : State) (d : Nat) (v : Word) : Prop := d = 2 → s.me.slim ≠ 0 → s.me.slim.toNat ≤ v.toNat

/-- `i` completes at `s` and its one effect is the value `v` in s`d`, with the last-use bits of its sources: every other
scalar register, every predicate and flag, every byte of memory and every other unit keeps its value. -/
structure WritesRegister (i : Instr) (s : State) (rs : List (Nat × Bool)) (d : Nat) (v : Word) : Prop where
  whole : Issues i s ((s.marked rs).wroteS d v)
  value : ∀ t, exec i s = .next t → t.me.readS d = if d = 0 then 0 else v
  others : ∀ t, exec i s = .next t → ∀ n, n ≠ d → t.me.readS n = s.me.readS n
  flags : ∀ t, exec i s = .next t → t.me.p = s.me.p ∧ t.me.fflags = s.me.fflags ∧ t.me.fpend = s.me.fpend
  bytes : ∀ t, exec i s = .next t → ∀ a, readByte t.mem a = readByte s.mem a

/-- `i` completes at `s` and its one effect is the value `v` in predicate `n`, with the last-use bits of its sources. -/
structure WritesPredicate (i : Instr) (s : State) (rs : List (Nat × Bool)) (n : Nat) (v : Bool) : Prop where
  whole : Issues i s ((s.marked rs).modMe fun x => x.writeP n v)
  value : ∀ t, exec i s = .next t → t.me.readP n = v
  others : ∀ t, exec i s = .next t → ∀ k, k < 16 → k ≠ n → t.me.readP k = s.me.readP k
  registers : ∀ t, exec i s = .next t → ∀ k, t.me.readS k = s.me.readS k
  bytes : ∀ t, exec i s = .next t → ∀ a, readByte t.mem a = readByte s.mem a

/-- A pipelined result on its way (04 R100): it lands `lat` cycles from now in the register or predicate `r` of the acting
context, with its flags and clamped elements; until then the register has a pending write, unless it is s0. -/
def State.sent (s : State) (lat : Nat) (r : CoreDest) (v : Word) (fl : BitVec 7) (sat : Nat) : State :=
  (s.modMe fun x => { x with busy := if r = .sreg 0 then x.busy else r :: x.busy }).schedule (s.cycle + lat)
    (.pipelinedResultWrite s.cur.unit s.bank r v fl sat)

/-- What a pipelined result leaves of an instruction whose other work leads from `s` to `m`: into s2 the core waits for it
(04 R102); into any other register it is sent. -/
def State.results (s m : State) (lat d : Nat) (v : Word) (fl : BitVec 7) (sat : Nat) : State :=
  if d = 2 then s.holdsResult m { at_ := some (s.cycle + lat - 1), v := v, fl := fl, sat := sat }
  else m.sent lat (.sreg d) v fl sat

/-! ### Traps of the control core -/

/-- `i` traps at `s` and has no effect of its own: with disposition HANDLE the core stands at its handler with the trap's
cause, otherwise the trap is taken by freezing (04 R109, 14 R390). -/
def Traps (i : Instr) (s : State) (t : Trap) : Prop :=
  exec i s = .next (s.takePrecise s.cur.unit s.bank { t with pos := s.me.pc })

end Sys2Proof.Machine
end

