-- ==== Sys2Proof/WellFormed.lean ====
section
/-!
DEFINITION. Well-formed instructions: those whose fields hold no reserved bit and no reserved operand (02 R51, R63) and
whose minor code is that of their constructor. Events are inputs of the machine, not encodings, and are all well formed.
-/
namespace Sys2Proof

/-- No fate of 02 R63 stands in the instruction's own fields. -/
def wellFormed (i : Instr) : Bool := (fate i).isNone && minorOk i

/-- `wellFormed` as a proposition. -/
abbrev WellFormed (i : Instr) : Prop := wellFormed i = true

end Sys2Proof
end

