-- ==== Sys2Proof/Certificates/Slice0/Obligations.lean ====
section
/-!
DEFINITION. The statements about the model. Each `Obligations.<Name>` says in its name what it states; its docstring names the
rules of spec/ it comes from. The functions of namespace `Sys2Proof.Claims` are the spec's own tables, written as the
spec words them.
-/
open Sys2Proof Sys2Proof.Machine

namespace Sys2Proof.Claims

/-! ### The control core: integer instructions (04 R116 to R119) -/

/-- The operation of a register-register instruction of latency 1 (04 R116), two's complement and natural as the table
writes it. -/
def integerOperation : Instr → Option (CoreForm × (Word → Word → Word))
  | .add o => some (o, fun a b => BitVec.ofNat 64 (a.toNat + b.toNat))
  | .sub o => some (o, fun a b => BitVec.ofInt 64 ((a.toNat : Int) - b.toNat))
  | .and o => some (o, fun a b => a &&& b)
  | .or o => some (o, fun a b => a ||| b)
  | .xor o => some (o, fun a b => a ^^^ b)
  | .andn o => some (o, fun a b => a &&& ~~~b)
  | .shl o => some (o, fun a b => BitVec.ofNat 64 (a.toNat * 2 ^ (b.toNat % 64)))
  | .shr o => some (o, fun a b => BitVec.ofNat 64 (a.toNat / 2 ^ (b.toNat % 64)))
  | .sra o => some (o, fun a b => BitVec.ofInt 64 (a.toInt / 2 ^ (b.toNat % 64)))
  | .rot o => some (o, fun a b => BitVec.ofNat 64 (a.toNat * 2 ^ (b.toNat % 64) + a.toNat / 2 ^ (64 - b.toNat % 64)))
  | .min o => some (o, fun a b => if a.toInt ≤ b.toInt then a else b)
  | .max o => some (o, fun a b => if a.toInt ≤ b.toInt then b else a)
  | .minn o => some (o, fun a b => if a.toNat ≤ b.toNat then a else b)
  | .maxn o => some (o, fun a b => if a.toNat ≤ b.toNat then b else a)
  | _ => none

/-- The operation of an instruction with one register source, or none, of latency 1 (04 R118, R119); `CLZ` and `POPC` have a
statement of their own. -/
def immediateOperation : Instr → Option (CoreForm × (Word → Word))
  | .addi o => some (o, fun a => BitVec.ofInt 64 (a.toNat + o.imm.toInt))
  | .andi o => some (o, fun a => a &&& o.imm.signExtend 64)
  | .ori o => some (o, fun a => a ||| o.imm.zeroExtend 64)
  | .xori o => some (o, fun a => a ^^^ o.imm.zeroExtend 64)
  | .shli o => some (o, fun a => BitVec.ofNat 64 (a.toNat * 2 ^ (o.imm.toNat % 64)))
  | .shri o => some (o, fun a => BitVec.ofNat 64 (a.toNat / 2 ^ (o.imm.toNat % 64)))
  | .srai o => some (o, fun a => BitVec.ofInt 64 (a.toInt / 2 ^ (o.imm.toNat % 64)))
  | _ => none

/-- The value of a constant load (04 R118 LUI, R119). -/
def constantOf : Instr → Option (CoreForm × Word)
  | .lui o => some (o, BitVec.ofInt 64 (o.imm.toInt * 2 ^ 24))
  | .li o ext => some (o, BitVec.ofNat 64 (ext.toNat * 2 ^ 24 + o.imm.toNat))
  | _ => none

/-- The product that the multiply group writes (04 R116). -/
def productOf : Instr → Option (CoreForm × (Word → Word → Word))
  | .mul o => some (o, fun a b => BitVec.ofNat 64 (a.toNat * b.toNat))
  | .mulh o => some (o, fun a b => BitVec.ofInt 64 ((a.toInt * b.toInt) / 2 ^ 64))
  | .mulhn o => some (o, fun a b => BitVec.ofNat 64 (a.toNat * b.toNat / 2 ^ 64))
  | _ => none

/-- The result of the divide group for a divisor other than 0 (04 R116). -/
def divisionOf : Instr → Option (CoreForm × (Word → Word → Word))
  | .div o => some (o, fun a b => BitVec.ofInt 64 (a.toInt.tdiv b.toInt))
  | .divn o => some (o, fun a b => BitVec.ofNat 64 (a.toNat / b.toNat))
  | .rem o => some (o, fun a b => BitVec.ofInt 64 (a.toInt - a.toInt.tdiv b.toInt * b.toInt))
  | .remn o => some (o, fun a b => BitVec.ofNat 64 (a.toNat - a.toNat / b.toNat * b.toNat))
  | _ => none

/-- The partial state of an integer divide after `k` micro-steps as ctl.ustate0 and ctl.ustate1 show it (04 R111, R112): N and V
are the magnitudes of the operands, `q` and `r` the signed quotient and remainder. -/
def developed (n v : Nat) (q r : Word) (k : Nat) : Word × Word :=
  if k ≤ 1 then (0, 0)
  else
    let t := n / 2 ^ (64 - 8 * (min k 9 - 1))
    (if 11 ≤ k then r else BitVec.ofNat 64 (t - t / v * v), if 10 ≤ k then q else BitVec.ofNat 64 (t / v))

/-- The magnitudes, quotient and remainder of a divide-group instruction (04 R111, R116). -/
def divisionParts : Instr → Word → Word → Nat × Nat × Word × Word
  | .divn _, a, b => (a.toNat, b.toNat, BitVec.ofNat 64 (a.toNat / b.toNat), BitVec.ofNat 64 (a.toNat % b.toNat))
  | .remn _, a, b => (a.toNat, b.toNat, BitVec.ofNat 64 (a.toNat / b.toNat), BitVec.ofNat 64 (a.toNat % b.toNat))
  | _, a, b =>
    (a.toInt.natAbs, b.toInt.natAbs, BitVec.ofInt 64 (a.toInt.tdiv b.toInt),
      BitVec.ofInt 64 (a.toInt - a.toInt.tdiv b.toInt * b.toInt))

/-- A multi-cycle divide has come to micro-step `k` with its partial state as 04 R112 has it and no source changed. -/
def dividing (i : Instr) (a b : Word) (k : Nat) (x : Ctx) : Prop :=
  x.ust = k ∧ (0 < k →
    let (n, v, q, r) := divisionParts i a b
    (x.partial0, x.partial1) = developed n v q r k ∧ x.spoiled = false ∧ x.sources = some (a, b))

/-! ### Conditions, predicates, selects (04 R120, R121) -/

/-- The conditions of 04 R120. -/
def comparison (x : Nat) (a b : Word) : Option Bool :=
  match x with
  | 0 => some (decide (a = b))
  | 1 => some (decide (a ≠ b))
  | 2 => some (decide (a.toInt < b.toInt))
  | 3 => some (decide (a.toInt ≤ b.toInt))
  | 4 => some (decide (a.toInt > b.toInt))
  | 5 => some (decide (a.toInt ≥ b.toInt))
  | 6 => some (decide (a.toNat < b.toNat))
  | 7 => some (decide (a.toNat ≤ b.toNat))
  | 8 => some (decide (a.toNat > b.toNat))
  | 9 => some (decide (a.toNat ≥ b.toNat))
  | 10 => some (decide (a &&& b ≠ 0))
  | 11 => some (decide (a &&& b = 0))
  | _ => none

/-- The operation of PAND, POR and PXOR. -/
def predicateOperation : Instr → Option (CoreForm × (Bool → Bool → Bool))
  | .pand o => some (o, and)
  | .por o => some (o, or)
  | .pxor o => some (o, xor)
  | _ => none

/-! ### Branches (04 R124) -/

/-- What a branch with a true guard does: its sources, whether it writes the link, its target if it is taken, and whether it
annuls its delay slots (04 R124). -/
def branchOf : Instr → State → Option (CoreForm × List (Nat × Bool) × Bool × Option Pos × Bool)
  | .b o, _ => some (o, [], false, some (o.imm.setWidth 23), false)
  | .bna o, _ => some (o, [], false, some (o.imm.setWidth 23), false)
  | .bta o, _ => some (o, [], false, some (o.imm.setWidth 23), true)
  | .bcmp o, s =>
    (comparison o.x.toNat (s.me.readS o.a.toNat) (s.me.readS o.b.toNat)).map fun taken =>
      (o, [(o.a.toNat, o.la), (o.b.toNat, o.lb)], false, if taken then some (o.imm.setWidth 23) else none, false)
  | .bcmpna o, s =>
    (comparison o.x.toNat (s.me.readS o.a.toNat) (s.me.readS o.b.toNat)).map fun taken =>
      (o, [(o.a.toNat, o.la), (o.b.toNat, o.lb)], false, if taken then some (o.imm.setWidth 23) else none, !taken)
  | .call o, _ => some (o, [], true, some (o.imm.setWidth 23), false)
  | .callr o, s => some (o, [(o.a.toNat, o.la)], true, some ((s.me.readS o.a.toNat).setWidth 23), false)
  | .jr o, s => some (o, [(o.a.toNat, o.la)], false, some ((s.me.readS o.a.toNat).setWidth 23), false)
  | _, _ => none

/-- The fetch queue when the entry at F0 has issued (04 R107): F1 and F2 move up, annulled if the branch annuls its delay slots;
behind them comes the target of a taken branch, otherwise the successor of F2. -/
def queueAfter (s : State) (target : Option Pos) (annul : Bool) : Queue :=
  let q := s.refresh s.cur.unit s.bank s.me.queue
  { f0 := { q.f1 with annul := q.f1.annul || annul }
    f1 := { q.f2 with annul := q.f2.annul || annul }
    f2 := match target with
      | some t => s.entryAt s.cur.unit s.bank t
      | none => s.entryAfter s.cur.unit s.bank q.f2 }

/-- The instructions of the control core that issue under 02 R52 and 04 R108 alone: every one but BNA and BCMPNA, whose false
guard annuls. -/
def guarded (i : Instr) : Option CoreForm :=
  match i with
  | .add o | .sub o | .mul o | .mulh o | .mulhn o | .div o | .divn o | .rem o | .remn o | .and o | .or o | .xor o | .andn o
  | .shl o | .shr o | .sra o | .rot o | .min o | .max o | .minn o | .maxn o | .clz o | .popc o | .addi o | .andi o | .ori o
  | .xori o | .shli o | .shri o | .srai o | .lui o | .li o _ | .cmp o | .cmpi o | .fcmp o | .pand o | .por o | .pxor o
  | .pset o | .ppack o | .punpk o | .sel o | .fadd o | .fsub o | .fmul o | .fdiv o | .fsqrt o | .fma o | .fms o | .fmin o
  | .fmax o | .fsgn o | .fcvt o | .fclass o | .b o | .bta o | .bcmp o | .call o | .callr o | .jr o | .ld o | .st o | .ldp o
  | .stp o | .ldx o | .sgo o | .sstart o | .sstop o | .gset o | .phend o | .phbud o | .tlsig o | .tlwait o | .waitt o
  | .trap o | .brk o | .mfc o | .mtc o | .fenceLocal o | .fenceStrips o | .traceCfg o | .traceMark o | .traceTrig o | .tend o
  | .tspawn o | .eret o | .launchOpen o | .launchGo o | .launchReplay o | .launchSel o | .place o | .ctxsave o | .ctxload o
  | .ctxsw o | .tlbinv o | .monitor o | .mwait o | .whistle o | .resume o | .stepJob o | .stepTile o | .stepInsn o | .bench o
  | .errinj o | .copen o | .chold o | .cclose o | .cstat o | .rcsnap o | .rcread o | .fmset o | .fmread o | .rdcyc o
  | .rdtime o | .rdphase o | .histcfg o | .histrd o => some o
  | _ => none

/-- The privileged instructions of the control core (02 R61). -/
def privileged (i : Instr) : Option CoreForm :=
  match i with
  | .launchOpen o | .launchGo o | .launchReplay o | .launchSel o | .place o | .ctxsave o | .ctxload o | .ctxsw o | .tlbinv o
  | .monitor o | .mwait o | .whistle o | .resume o | .stepJob o | .stepTile o | .stepInsn o | .bench o | .errinj o
  | .fmset o => some o
  | _ => none

/-! ### Strips (09 R260 to R264) -/

/-- A strip as SGO leaves it (09 R261): ARMED at the target in the selected mode, nothing held, no micro-step done; its guards
and mailbox stay. -/
def armed (t : Strip) (target : Pos) (elastic : Bool) : Strip := { t.clean with state := 1, pos := target, el := elastic }

/-- A strip as SSTART of cycle `now` leaves it (09 R262): RUNNING, its first issue at `now` + 2; one that runs is unaffected. -/
def started (t : Strip) (now : Nat) : Strip :=
  if t.state = 2 then t
  else { t with state := 2, next := if t.state = 1 ∨ t.state = 4 then now + 2 else max t.next (now + 2) }

/-- A strip as SSTOP leaves it (09 R263). -/
def halted (t : Strip) : Strip := if t.state = 2 then { t with state := 3 } else t

/-- A context with each strip that the bits of X name changed: bit 0 access, 1 matrix, 2 vector, 3 writeback. -/
def eachNamed (x : BitVec 5) (f : Strip → Strip) (c : Ctx) : Ctx :=
  { c with
    access := if x.getLsbD 0 then f c.access else c.access
    matrix := if x.getLsbD 1 then f c.matrix else c.matrix
    vector := if x.getLsbD 2 then f c.vector else c.vector
    writeback := if x.getLsbD 3 then f c.writeback else c.writeback }

/-- Guard bit `i` of a strip set to `v`. -/
def setGuard (t : Strip) (i : Nat) (v : Bool) : Strip :=
  { t with guards := BitVec.ofNat 8 (maskOf (fun k => if k = i then v else t.guards.getLsbD k) 8) }

end Sys2Proof.Claims

open Sys2Proof.Claims

/-- 04 R116: ADD to MAXN of latency 1 write D with the table's operation of the two sources and change nothing else but the
last-use marks; a value that may not stand in s2 has its own statement (`SourceAndLimitTraps`). -/
def Obligations.IntegerResults : Prop :=
  ∀ i o f, integerOperation i = some (o, f) → ∀ s : State,
    coreReady o { reads := [(o.a.toNat, o.la), (o.b.toNat, o.lb)], writes := [.sreg o.d.toNat] } s = true →
    s.aboveLimit o.d.toNat (f (s.me.readS o.a.toNat) (s.me.readS o.b.toNat)) →
    WritesRegister i s [(o.a.toNat, o.la), (o.b.toNat, o.lb)] o.d.toNat
      (f (s.me.readS o.a.toNat) (s.me.readS o.b.toNat))

/-- 04 R118, R119: the immediate instructions, LUI and LI write D with the value of their table and change nothing else.

04 R116: what CLZ and POPC write is the number of leading zero bits, and of one bits, of A. -/
def Obligations.ImmediateAndBitResults : Prop :=
  (
  (∀ i o f, immediateOperation i = some (o, f) → ∀ s : State,
    coreReady o { reads := [(o.a.toNat, o.la)], writes := [.sreg o.d.toNat] } s = true →
    s.aboveLimit o.d.toNat (f (s.me.readS o.a.toNat)) →
    WritesRegister i s [(o.a.toNat, o.la)] o.d.toNat (f (s.me.readS o.a.toNat)))
  ∧ ∀ i o v, constantOf i = some (o, v) → ∀ s : State,
    coreReady o { writes := [.sreg o.d.toNat] } s = true → s.aboveLimit o.d.toNat v →
    WritesRegister i s [] o.d.toNat v
  ) ∧ (
  ∀ (o : CoreForm) (s : State),
    coreReady o { reads := [(o.a.toNat, o.la)], writes := [.sreg o.d.toNat] } s = true → o.d ≠ 2 →
    (∃ n, WritesRegister (.clz o) s [(o.a.toNat, o.la)] o.d.toNat (BitVec.ofNat 64 n) ∧ n ≤ 64
      ∧ (∀ k, 64 - n ≤ k → k < 64 → (s.me.readS o.a.toNat).getLsbD k = false)
      ∧ (n < 64 → (s.me.readS o.a.toNat).getLsbD (63 - n) = true))
    ∧ WritesRegister (.popc o) s [(o.a.toNat, o.la)] o.d.toNat
      (BitVec.ofNat 64 ((List.range 64).countP fun k => (s.me.readS o.a.toNat).getLsbD k))
  )

/-- 04 R100, R102, R116: the multiply group takes 3 cycles: its product is on its way when it issues; into s2 it is written as
the instruction issues, which waits for it.

04 R101, R111, R112, R116: a divide-group instruction with a divisor other than 0 passes eleven micro-steps, each of which
changes nothing but the micro-step number and the partial state, which is as R112 has it; its twelfth writes D. -/
def Obligations.MultiplyAndDivideResults : Prop :=
  (
  ∀ i o f, productOf i = some (o, f) → ∀ s : State,
    coreReady o { reads := [(o.a.toNat, o.la), (o.b.toNat, o.lb)], writes := [.sreg o.d.toNat], lat := 3 } s = true →
    s.aboveLimit o.d.toNat (f (s.me.readS o.a.toNat) (s.me.readS o.b.toNat)) →
    Issues i s (s.results (s.marked [(o.a.toNat, o.la), (o.b.toNat, o.lb)]) 3 o.d.toNat
      (f (s.me.readS o.a.toNat) (s.me.readS o.b.toNat)) 0 0)
  ) ∧ (
  ∀ i o f, divisionOf i = some (o, f) → ∀ (s : State) (a b : Word) (k : Nat),
    coreReady o { reads := [(o.a.toNat, o.la), (o.b.toNat, o.lb)], writes := [.sreg o.d.toNat] } s = true →
    s.me.readS o.a.toNat = a → s.me.readS o.b.toNat = b → b ≠ 0 → dividing i a b k s.me →
    (k < 11 → ∃ t, exec i s = .next t ∧ dividing i a b (k + 1) t.me
      ∧ (t.modMe fun x => { x with partial0 := s.me.partial0, partial1 := s.me.partial1 }).sansIssue = s.sansIssue)
    ∧ (k = 11 → s.aboveLimit o.d.toNat (f a b) →
        WritesRegister i s [(o.a.toNat, o.la), (o.b.toNat, o.lb)] o.d.toNat (f a b))
  )

/-- 04 R117: a divide-group instruction with divisor 0 traps in micro-step 1 with cause 0x0B and A in ctl.info0; under REPORT
it goes on, and its twelfth micro-step writes all ones for DIV and DIVN, A for REM and REMN. -/
def Obligations.ZeroDivisorTraps : Prop :=
  ∀ i o f, divisionOf i = some (o, f) → ∀ s : State,
    coreReady o { reads := [(o.a.toNat, o.la), (o.b.toNat, o.lb)], writes := [.sreg o.d.toNat] } s = true →
    s.me.readS o.b.toNat = 0 →
    (s.me.ust = 0 → s.me.disposition 0x0B ≠ .report → Traps i s { cause := 0x0B, i0 := s.me.readS o.a.toNat })
    ∧ (s.me.ust = 0 → s.me.disposition 0x0B = .report → ∃ t, exec i s = .next t ∧ t.me.ust = 1
        ∧ t.me.report.look 0 2 = s.me.readS o.a.toNat ∧ (∀ n, t.me.readS n = s.me.readS n)
        ∧ ∀ a, readByte t.mem a = readByte s.mem a)
    ∧ (dividing i (s.me.readS o.a.toNat) 0 11 s.me →
        let v := if i = .div o ∨ i = .divn o then 0xFFFFFFFFFFFFFFFF else s.me.readS o.a.toNat
        s.aboveLimit o.d.toNat v → WritesRegister i s [(o.a.toNat, o.la), (o.b.toNat, o.lb)] o.d.toNat v)

/-- 04 R120, R121: the compares, the predicate operations and PSET write predicate D; PUNPK writes the eight predicates of a
half from the low byte of A.

04 R103, R121, R125, 13 R372: PPACK, SEL, MFC, RDCYC and RDPHASE write D with what they read. -/
def Obligations.PredicateAndReadResults : Prop :=
  (
  (∀ (o : CoreForm) (s : State) (v : Bool), o.d.toNat < 16 →
    coreReady o { reads := [(o.a.toNat, o.la), (o.b.toNat, o.lb)], writes := [.preg o.d.toNat] } s = true →
    comparison o.x.toNat (s.me.readS o.a.toNat) (s.me.readS o.b.toNat) = some v →
    WritesPredicate (.cmp o) s [(o.a.toNat, o.la), (o.b.toNat, o.lb)] o.d.toNat v)
  ∧ (∀ (o : CoreForm) (s : State) (v : Bool), o.d.toNat < 16 →
    coreReady o { reads := [(o.a.toNat, o.la)], writes := [.preg o.d.toNat] } s = true →
    comparison o.x.toNat (s.me.readS o.a.toNat) (o.imm.signExtend 64) = some v →
    WritesPredicate (.cmpi o) s [(o.a.toNat, o.la)] o.d.toNat v)
  ∧ (∀ i o f, predicateOperation i = some (o, f) → ∀ s : State, o.d.toNat < 16 → o.a.toNat < 16 → o.b.toNat < 16 →
    coreReady o { preds := [o.a.toNat, o.b.toNat], writes := [.preg o.d.toNat] } s = true →
    WritesPredicate i s [] o.d.toNat (xor (f (xor (s.me.readP o.a.toNat) (o.x.getLsbD 0))
      (xor (s.me.readP o.b.toNat) (o.x.getLsbD 1))) (o.x.getLsbD 2)))
  ∧ (∀ (o : CoreForm) (s : State), o.d.toNat < 16 → coreReady o { writes := [.preg o.d.toNat] } s = true →
    WritesPredicate (.pset o) s [] o.d.toNat (o.imm.getLsbD 0))
  ∧ ∀ (o : CoreForm) (s : State),
    coreReady o { reads := [(o.a.toNat, o.la)]
                  writes := (List.range 8).map fun i => .preg ((if o.x.getLsbD 0 then 8 else 0) + i) } s = true →
    ∃ t, exec (.punpk o) s = .next t
      ∧ (∀ i, i < 8 → t.me.readP ((if o.x.getLsbD 0 then 8 else 0) + i) = (s.me.readS o.a.toNat).getLsbD i)
      ∧ (∀ i, i < 8 → t.me.readP ((if o.x.getLsbD 0 then 0 else 8) + i) = s.me.readP ((if o.x.getLsbD 0 then 0 else 8) + i))
      ∧ (t.modMe fun x => { x with p := s.me.p }).sansIssue = (s.marked [(o.a.toNat, o.la)]).sansIssue
  ) ∧ (
  (∀ (o : CoreForm) (s : State),
    coreReady o { preds := (List.range 8).map fun i => (if o.x.getLsbD 0 then 8 else 0) + i, writes := [.sreg o.d.toNat] } s
      = true →
    ∃ v : Word, (s.aboveLimit o.d.toNat v → WritesRegister (.ppack o) s [] o.d.toNat v) ∧ v.toNat < 256
      ∧ ∀ i, i < 8 → v.getLsbD i = s.me.readP ((if o.x.getLsbD 0 then 8 else 0) + i))
  ∧ (∀ (o : CoreForm) (s : State) (v : Word), o.x.toNat < 16 →
    coreReady o { reads := [(o.a.toNat, o.la), (o.b.toNat, o.lb)], writes := [.sreg o.d.toNat], preds := [o.x.toNat] } s
      = true →
    v = (if s.me.readP o.x.toNat then s.me.readS o.a.toNat else s.me.readS o.b.toNat) → s.aboveLimit o.d.toNat v →
    WritesRegister (.sel o) s [(o.a.toNat, o.la), (o.b.toNat, o.lb)] o.d.toNat v)
  ∧ (∀ (o : CoreForm) (s : State) (v : Word), coreReady o { writes := [.sreg o.d.toNat] } s = true →
    v = (if o.imm.toNat % 4096 = 0x25 ∧ isSteward s.cur.unit = false then s.me.flagsSeen.setWidth 64
      else s.ctlRead s.cur.unit s.bank (o.imm.toNat % 4096)) → s.aboveLimit o.d.toNat v → WritesRegister (.mfc o) s [] o.d.toNat v)
  ∧ (∀ (o : CoreForm) (s : State) (v : Word), coreReady o { writes := [.sreg o.d.toNat] } s = true →
    v = BitVec.ofNat 64 s.cycle → s.aboveLimit o.d.toNat v → WritesRegister (.rdcyc o) s [] o.d.toNat v)
  ∧ ∀ (o : CoreForm) (s : State) (v : Word), coreReady o { writes := [.sreg o.d.toNat] } s = true → o.x.toNat < 3 →
    v = (if o.x = 0 then BitVec.ofNat 64 (s.phaseOf s.cur.unit s.bank)
      else if isSteward s.cur.unit then 0
      else if o.x = 1 then BitVec.ofNat 64 s.me.localCycle
      else if s.inExchange then 0 else BitVec.ofNat 64 s.me.deadline) →
    s.aboveLimit o.d.toNat v → WritesRegister (.rdphase o) s [] o.d.toNat v
  )

/-- 04 R107, R124: a branch with a true guard moves the fetch queue as R107 has it, with its target behind its two delay slots if
it is taken, and annuls them where the table says; CALL and CALLR write s1 with the position that follows the second delay
slot; nothing else changes but the last-use marks and the branch's trace entry. -/
def Obligations.BranchResults : Prop :=
  ∀ i (s : State) o rs link target annul, branchOf i s = some (o, rs, link, target, annul) →
    coreReady o { reads := rs, writes := if link then [.sreg 1] else [] } s = true →
    ∃ t, exec i s = .next t ∧ t.me.queue = queueAfter s target annul
      ∧ t.me.readS 1 = (if link then (queueAfter s none false).f2.word else s.me.readS 1)
      ∧ (∀ n, n ≠ 1 → t.me.readS n = s.me.readS n) ∧ t.me.p = s.me.p ∧ (∀ a, readByte t.mem a = readByte s.mem a)
      ∧ (t.modHere fun h => { h with trace := s.here.trace }).sansIssue
          = (if link then (s.marked rs).wroteS 1 (queueAfter s none false).f2.word else s.marked rs).sansIssue

/-- 02 R52, 04 R124: BNA and BCMPNA under a false guard annul their delay slots; every other instruction of the control core
under a false guard, in the phase and privilege it needs, only lets the queue move on. -/
def Obligations.FalseGuardResults : Prop :=
  (∀ i o, guarded i = some o → ∀ s : State, s.inExchange = false → (privileged i = none ∨ isSteward s.cur.unit = true) →
    o.g = true → s.me.pendingWrite (.preg o.p.toNat) = false → s.predicatesReady = true → s.me.late = none →
    s.me.guardTrue o = false → ∃ t, exec i s = .next t ∧ t.me.queue = queueAfter s none false ∧ t.sansIssue = s.sansIssue)
  ∧ ∀ i o, (i = .bna o ∨ i = .bcmpna o) → ∀ s : State, o.g = true → s.me.pendingWrite (.preg o.p.toNat) = false →
    s.predicatesReady = true → s.me.late = none → s.me.guardTrue o = false →
    ∃ t, exec i s = .next t ∧ t.me.queue = queueAfter s none true ∧ t.sansIssue = s.sansIssue

/-- 02 R61, R63, R64: a privileged instruction in a tile raises the privileged trap 0x03 with the slot in ctl.info1, before its
guard is looked at, and has no effect. -/
def Obligations.PrivilegedTraps : Prop :=
  ∀ i o, privileged i = some o → ∀ s : State, isSteward s.cur.unit = false → Traps i s { cause := 0x03, i1 := s.me.slotWord }

/-- 04 R115: a result of latency 1 for s2 below a nonzero ctl.slim raises the stack-limit trap 0x06 with the refused value and
ctl.slim; under REPORT the instruction completes with s2 unchanged and its sources marked.

04 R99: with ctl.mode.CHK set, an instruction that reads a dead register, all else being ready, raises trap 0x09 with the
number of the first dead source in ctl.info0. -/
def Obligations.SourceAndLimitTraps : Prop :=
  (
  ∀ i o f, integerOperation i = some (o, f) → o.d = 2 → ∀ (s : State) (v : Word),
    coreReady o { reads := [(o.a.toNat, o.la), (o.b.toNat, o.lb)], writes := [.sreg 2] } s = true →
    v = f (s.me.readS o.a.toNat) (s.me.readS o.b.toNat) → s.me.slim ≠ 0 → v.toNat < s.me.slim.toNat →
    (s.me.disposition 0x06 ≠ .report → Traps i s { cause := 0x06, i0 := v, i1 := s.me.slim })
    ∧ (s.me.disposition 0x06 = .report → ∃ t, exec i s = .next t ∧ (∀ n, t.me.readS n = s.me.readS n)
        ∧ t.me.report.look 0 2 = v ∧ t.me.report.look 0 3 = s.me.slim ∧ t.me.dead = (s.marked
            [(o.a.toNat, o.la), (o.b.toNat, o.lb)]).me.dead
        ∧ ∀ a, readByte t.mem a = readByte s.mem a)
  ) ∧ (
  ∀ i o f, integerOperation i = some (o, f) → ∀ (s : State) (n : Nat),
    coreReady o { reads := [(o.a.toNat, o.la), (o.b.toNat, o.lb)], writes := [.sreg o.d.toNat] }
      (s.modMe fun x => { x with dead := 0 }) = true →
    s.me.mode.getLsbD 0 = true → s.me.disposition 0x09 ≠ .report →
    n = (if o.a ≠ 0 ∧ s.me.dead.getLsbD o.a.toNat then o.a.toNat else o.b.toNat) → n ≠ 0 → s.me.dead.getLsbD n = true →
    Traps i s { cause := 0x09, i0 := BitVec.ofNat 64 n }
  )

/-- 04 R109: a trap with disposition HANDLE outside a handler saves the positions of the queue and its annul bits, sets INH and a
micro-step of 0, writes cause and info registers, and refills the queue from ctl.tvec, none of it annulled. No scalar register,
predicate or byte of memory changes.

04 R109, 14 R396: ERET in a handler reloads the queue and its annul bits from the saved registers, clears INH and resumes at
micro-step UST; outside a handler it is a reserved operand with ctl.info0 = 17. -/
def Obligations.TrapEntryAndReturn : Prop :=
  (
  ∀ (s : State) (u : Nat) (c : Bool) (t : Trap), (s.ctx u c).disposition t.cause = .handle → (s.ctx u c).inHandler = false →
    let x := s.ctx u c
    let y := (s.takePrecise u c t).ctx u c
    y.epc = x.queue.f0.word ∧ y.enpc = x.queue.f1.word ∧ y.ennpc = x.queue.f2.word
    ∧ y.ebits.getLsbD 0 = x.queue.f0.annul ∧ y.ebits.getLsbD 1 = x.queue.f1.annul ∧ y.ebits.getLsbD 2 = x.queue.f2.annul
    ∧ y.inHandler = true ∧ y.ebits.extractLsb' 8 8 = 0
    ∧ (t.cause < 256 → t.eng < 8 → y.cause.toNat = t.cause + 256 * t.eng)
    ∧ y.info0 = t.i0 ∧ y.info1 = t.i1 ∧ y.info2 = t.i2 ∧ y.info3 = t.i3
    ∧ y.queue.f0.pos = some (x.tvec.setWidth 23) ∧ y.queue.f0.annul = false ∧ y.queue.f1.annul = false
    ∧ y.queue.f2.annul = false ∧ (∀ n, y.readS n = x.readS n) ∧ y.p = x.p ∧ y.fpend = x.fpend
    ∧ (∀ a, readByte (s.takePrecise u c t).mem a = readByte s.mem a)
    ∧ ∀ v d, (v, d) ≠ (u, c) → (s.takePrecise u c t).ctx v d = s.ctx v d
  ) ∧ (
  ∀ (o : CoreForm) (s : State), coreReady o {} s = true →
    (s.me.inHandler = true → ∃ t, exec (.eret o) s = .next t ∧ t.me.inHandler = false
      ∧ t.me.ust = (s.me.ebits.extractLsb' 8 8).toNat
      ∧ t.me.queue = s.reloadQueue s.cur.unit s.bank s.me.epc s.me.enpc s.me.ennpc s.me.ebits
      ∧ (s.me.epc.extractLsb' 0 23 ≠ noPos → t.me.queue.f0.pos = some (s.me.epc.extractLsb' 0 23)
          ∧ t.me.queue.f0.annul = s.me.ebits.getLsbD 0)
      ∧ (∀ n, t.me.readS n = s.me.readS n) ∧ t.me.p = s.me.p ∧ ∀ a, readByte t.mem a = readByte s.mem a)
    ∧ (s.me.inHandler = false → Traps (.eret o) s { cause := 0x02, i0 := 17 })
  )

/-- 14 R395: TRAP and BRK complete and then raise cause 0x20 or 0x21 with IMM24 in ctl.info0 and their position in ctl.info1, so
that with disposition HANDLE the saved positions are those of the entries behind them. -/
def Obligations.SoftwareTraps : Prop :=
  ∀ (o : CoreForm) (s : State) (i : Instr) (k : Nat), (i = .trap o ∧ k = 0x20) ∨ (i = .brk o ∧ k = 0x21) →
    coreReady o {} s = true → s.me.disposition k = .handle → s.me.inHandler = false →
    ∃ t, exec i s = .next t ∧ t.me.epc = (queueAfter s none false).f0.word ∧ t.me.enpc = (queueAfter s none false).f1.word
      ∧ t.me.ennpc = (queueAfter s none false).f2.word ∧ t.me.cause = BitVec.ofNat 64 k ∧ t.me.info0 = o.imm.setWidth 64
      ∧ t.me.info1 = s.me.pc.setWidth 64 ∧ t.me.inHandler = true
      ∧ t.me.queue.f0.pos = some (s.me.tvec.extractLsb' 0 23) ∧ (∀ n, t.me.readS n = s.me.readS n)
      ∧ ∀ a, readByte t.mem a = readByte s.mem a

/-- 04 R103 to R105, R125: MTC of a legal value writes the named register's writable bits, and an MFC of the state that results
reads them back; MTC of a read-only register, or of a nonzero reserved bit, traps with cause 0x03 and writes nothing. -/
def Obligations.ControlRegisterWrites : Prop :=
  ∀ (o : CoreForm) (s : State) (v : Word) (k : Nat), coreReady o { reads := [(o.b.toNat, o.lb)] } s = true →
    v = s.me.readS o.b.toNat → k = o.imm.toNat % 4096 →
    (ctlMask k ≠ 0 → v &&& ~~~ctlMask k = 0 → (k = 0x30 ∨ k = 0x31 → dispLegal v = true) →
      Issues (.mtc o) s ((s.marked [(o.b.toNat, o.lb)]).modMe fun x => x.ctlWrite k v)
      ∧ (k ≠ 0x30 → k ≠ 0x31 → (k = 0x24 → s.me.flagsCommit = 0) → ∀ t, exec (.mtc o) s = .next t →
          t.ctlRead s.cur.unit s.bank k &&& ctlMask k = v))
    ∧ (ctlMask k = 0 ∨ v &&& ~~~ctlMask k ≠ 0 → Traps (.mtc o) s { cause := 0x03, i1 := s.me.slotWord })
    ∧ ((k = 0x30 ∨ k = 0x31) → dispLegal v = false → Traps (.mtc o) s { cause := 0x02, i0 := 7, i1 := s.me.slotWord })

/-- 09 R261 to R264: in a tile SGO arms the named strip, which is not RUNNING; SSTART starts the named strips, none of them IDLE;
SSTOP stops those that run; GSET writes one guard. In a steward the four trap. -/
def Obligations.StripControlResults : Prop :=
  (∀ (o : CoreForm) (s : State) (e : Nat) (target : Pos), isSteward s.cur.unit = false → e = o.x.toNat % 8 → 2 ≤ e → e ≤ 4 →
    coreReady o { compute := true, reads := if o.x.getLsbD 4 then [(o.a.toNat, o.la)] else [] } s = true →
    (s.me.strip e).state ≠ 2 →
    target = (if o.x.getLsbD 4 then (s.me.readS o.a.toNat).setWidth 23 else o.imm.setWidth 23) →
    Issues (.sgo o) s (((s.marked (if o.x.getLsbD 4 then [(o.a.toNat, o.la)] else [])).modMe fun x =>
      x.setStrip e (armed (x.strip e) target (o.x.getLsbD 3))).modHere fun h => if e = 2 then { h with scan := none } else h))
  ∧ (∀ (o : CoreForm) (s : State) (target : Pos), isSteward s.cur.unit = false → o.x.toNat % 8 = 1 →
    coreReady o { reads := if o.x.getLsbD 4 then [(o.a.toNat, o.la)] else [] } s = true → s.me.access.state ≠ 2 →
    s.me.access.op = none →
    target = (if o.x.getLsbD 4 then (s.me.readS o.a.toNat).setWidth 23 else o.imm.setWidth 23) →
    Issues (.sgo o) s ((s.marked (if o.x.getLsbD 4 then [(o.a.toNat, o.la)] else [])).modMe fun x =>
      { x with access := armed x.access target (o.x.getLsbD 3) }))
  ∧ (∀ (o : CoreForm) (s : State), isSteward s.cur.unit = false →
    coreReady o { compute := o.x.getLsbD 1 || o.x.getLsbD 2 || o.x.getLsbD 3 } s = true →
    o.x.getLsbD 4 = false → (∀ k, k < 4 → o.x.getLsbD k = true → (s.me.strip (k + 1)).state ≠ 0) →
    Issues (.sstart o) s (s.modMe (eachNamed o.x fun t => started t s.cycle)))
  ∧ (∀ (o : CoreForm) (s : State), isSteward s.cur.unit = false → coreReady o {} s = true →
    Issues (.sstop o) s (s.modMe (eachNamed o.x halted)))
  ∧ (∀ (o : CoreForm) (s : State) (e : Nat) (v : Bool), isSteward s.cur.unit = false → e = o.x.toNat % 8 → 1 ≤ e → e ≤ 4 →
    (o.x.getLsbD 4 = false → o.a.toNat < 16) →
    coreReady o { preds := if o.x.getLsbD 4 then [] else [o.a.toNat] } s = true →
    v = xor (if o.x.getLsbD 4 then o.imm.getLsbD 0 else s.me.readP o.a.toNat) (o.x.getLsbD 3) →
    Issues (.gset o) s (s.modMe fun x => x.setStrip e (setGuard (x.strip e) (o.d.toNat % 8) v)))
  ∧ ∀ (o : CoreForm) (s : State) (i : Instr), isSteward s.cur.unit = true →
    ((i = .sgo o ∧ coreReady o { reads := if o.x.getLsbD 4 then [(o.a.toNat, o.la)] else [] } s = true)
      ∨ ((i = .sstart o ∨ i = .sstop o) ∧ coreReady o {} s = true)
      ∨ (i = .gset o ∧ coreReady o { preds := if o.x.getLsbD 4 then [] else [o.a.toNat % 16] } s = true)) →
    Traps i s { cause := 0x02, i0 := 7, i1 := s.me.slotWord }

/-- 13 R366, R367: PHBUD sets the budget of the next compute phase; PHEND records the context's arrival and holds issue until the
start pulse has released it, then completes.

13 R371, R375, R376, 04 R126: WAITT, TLWAIT and the two FENCEs complete when what they wait for has come, and until then hold
issue and change nothing; TLSIG adds one to its counter when no earlier work is left before it.

14 R410: TRACE.cfg writes trace control word 0x00, TRACE.mark records a mark entry with its source if marks are recorded,
TRACE.trig acts as a trigger match. -/
def Obligations.PhaseAndWaitResults : Prop :=
  (
  (
  (∀ (o : CoreForm) (s : State) (v : BitVec 32),
    coreReady o { reads := if o.x.getLsbD 0 then [(o.a.toNat, o.la)] else [] } s = true →
    v = (if o.x.getLsbD 0 then (s.me.readS o.a.toNat).setWidth 32 else o.imm.setWidth 32) → v ≠ 0 →
    Issues (.phbud o) s ((s.marked (if o.x.getLsbD 0 then [(o.a.toNat, o.la)] else [])).modMe fun x => { x with budget := v }))
  ∧ (∀ (o : CoreForm) (s : State), isSteward s.cur.unit = false → coreReady o {} s = true →
    (s.me.released = true → Issues (.phend o) s (s.modMe fun x => { x with released := false }))
    ∧ (s.me.released = false → s.me.atPhend = false → s.me.pulseDue = false →
        ∃ t, exec (.phend o) s = .next t ∧ t.me.queue = s.me.queue ∧ t.me.phend = true ∧ t.me.arrived = false
          ∧ (t.modMe fun x => { x with phend := s.me.phend, atPhend := false, arrived := s.me.arrived, checked := s.me.checked }
              ).sansIssue = s.sansIssue))
  ∧ ∀ (o : CoreForm) (s : State), isSteward s.cur.unit = true → coreReady o {} s = true →
    Traps (.phend o) s { cause := 0x02, i0 := 7, i1 := s.me.slotWord }
  ) ∧ (
  (∀ (o : CoreForm) (s : State), coreReady o { reads := [(o.a.toNat, o.la)] } s = true →
    ((s.me.readS o.a.toNat).toNat * timePerNs ≤ s.time + s.timeStep → Issues (.waitt o) s (s.marked [(o.a.toNat, o.la)]))
    ∧ (s.time + s.timeStep < (s.me.readS o.a.toNat).toNat * timePerNs →
        ∃ t, exec (.waitt o) s = .next t ∧ t.me.queue = s.me.queue ∧ t.me.wait = 8 ∧ t.sansIssue = s.sansIssue))
  ∧ (∀ (o : CoreForm) (s : State) (n : Nat), coreReady o { reads := [(o.a.toNat, o.la), (o.b.toNat, o.lb)] } s = true →
    (s.me.readS o.a.toNat).toNat < 4096 → s.timelineView (s.me.readS o.a.toNat).toNat (o.x.toNat % 16) = .inl n →
    ((s.me.readS o.b.toNat).toNat ≤ n → Issues (.tlwait o) s (s.marked [(o.a.toNat, o.la), (o.b.toNat, o.lb)]))
    ∧ (n < (s.me.readS o.b.toNat).toNat →
        ∃ t, exec (.tlwait o) s = .next t ∧ t.me.queue = s.me.queue ∧ t.me.wait = 8 ∧ t.sansIssue = s.sansIssue))
  ∧ (∀ (o : CoreForm) (s : State), coreReady o {} s = true →
    (s.me.accesses = [] → Issues (.fenceLocal o) s s)
    ∧ (s.me.accesses = [] → (∀ e, 1 ≤ e → e ≤ 4 → (s.me.strip e).state = 0 ∨ (s.me.strip e).state = 1 ∨ (s.me.strip e).state = 4) →
        Issues (.fenceStrips o) s s)
    ∧ (s.me.accesses ≠ [] → ∀ i, i = .fenceLocal o ∨ i = .fenceStrips o →
        ∃ t, exec i s = .next t ∧ t.me.queue = s.me.queue ∧ t.me.wait = 8 ∧ t.sansIssue = s.sansIssue))
  ∧ ∀ (o : CoreForm) (s : State), coreReady o {} s = true → (isSteward s.cur.unit = true ∨ o.x.toNat % 16 < 4) →
    s.me.ops = [] → (o.x.getLsbD 4 = true → s.me.storesOut = 0) → (∀ e ∈ s.me.streams, e.2.state ≠ 2) →
    ∃ t, exec (.tlsig o) s = .next t ∧ Event.timelineIncrement s.cur.unit s.bank (o.x.toNat % 16) ∈ t.inbox
      ∧ (t.modHere fun h => { h with nextOp := s.here.nextOp }).sansIssue = s.sansIssue
  )
  ) ∧ (
  (∀ (o : CoreForm) (s : State) (v : Word), coreReady o { reads := [(o.a.toNat, o.la)] } s = true →
    v = s.me.readS o.a.toNat → v &&& 0x0000F8FF00000001 = 0 →
    Issues (.traceCfg o) s ((s.marked [(o.a.toNat, o.la)]).modHere fun h => { h with trace := h.trace.control v }))
  ∧ (∀ (o : CoreForm) (s : State), coreReady o { reads := [(o.a.toNat, o.la)] } s = true →
    ∃ t, exec (.traceMark o) s = .next t
      ∧ t.here.trace.pend = (if s.here.trace.ctl.getLsbD 4
          then s.here.trace.pend ++ [(0, BitVec.ofNat 64 (4 * 2 ^ 60 + s.bank.toNat * 2 ^ 56 + s.cycle % 2 ^ 48), s.me.readS o.a.toNat)]
          else s.here.trace.pend)
      ∧ (t.modHere fun h => { h with trace := s.here.trace }).sansIssue = (s.marked [(o.a.toNat, o.la)]).sansIssue)
  ∧ ∀ (o : CoreForm) (s : State), coreReady o {} s = true →
    ∃ t, exec (.traceTrig o) s = .next t ∧ t.here.trace.tidx = s.here.trace.head ∧ t.here.trace.ctl.getLsbD 63 = false
      ∧ t.here.trace.post = (if s.here.trace.ctl.extractLsb' 48 13 = 0 then none else some (s.here.trace.ctl.extractLsb' 48 13).toNat)
      ∧ (s.here.trace.ctl.extractLsb' 48 13 = 0 → t.here.trace.ctl.getLsbD 62 = true)
      ∧ (t.modHere fun h => { h with trace := s.here.trace }).sansIssue = s.sansIssue
  )

namespace Sys2Proof.Claims

/-! ### Scalar floating point (04 R121 to R123) -/

/-- The exact value of a register as an operand of an instruction's format. -/
def operandOf (o : CoreForm) (s : State) (n : BitVec 5) : Val := (fmtOf o).value ((s.me.readS n.toNat).toNat % 2 ^ (fmtOf o).width)

/-- The sources of an instruction that rounds once in 4 cycles, and the exact value that it rounds (04 R122). -/
def roundedOperation : Instr → State → Option (CoreForm × List (Nat × Bool) × Val)
  | .fadd o, s => some (o, [(o.a.toNat, o.la), (o.b.toNat, o.lb)], (operandOf o s o.a).add (operandOf o s o.b))
  | .fsub o, s => some (o, [(o.a.toNat, o.la), (o.b.toNat, o.lb)], (operandOf o s o.a).add (operandOf o s o.b).neg)
  | .fmul o, s => some (o, [(o.a.toNat, o.la), (o.b.toNat, o.lb)], (operandOf o s o.a).mul (operandOf o s o.b))
  | .fma o, s => some (o, [(o.a.toNat, o.la), (o.b.toNat, o.lb), (o.x.toNat, o.imm.getLsbD 5)],
      ((operandOf o s o.a).mul (operandOf o s o.b)).add (operandOf o s o.x))
  | .fms o, s => some (o, [(o.a.toNat, o.la), (o.b.toNat, o.lb), (o.x.toNat, o.imm.getLsbD 5)],
      ((operandOf o s o.a).mul (operandOf o s o.b)).add (operandOf o s o.x).neg)
  | _, _ => none

/-- The bits of a floating-point encoding: sign, magnitude. -/
def signAndMagnitude (o : CoreForm) (v : Word) : Bool × Nat :=
  let w := if o.imm.getLsbD 0 then 63 else 31
  (v.getLsbD w, v.toNat % 2 ^ w)

/-- The encoding of a sign and a magnitude. -/
def encodingOf (o : CoreForm) (neg : Bool) (mag : Nat) : Word :=
  BitVec.ofNat 64 ((if neg then (if o.imm.getLsbD 0 then 2 ^ 63 else 2 ^ 31) else 0) + mag)

/-- The order of 03 R80 on the encodings of an instruction's format that are no NaN: -0 below +0. -/
def precedes (o : CoreForm) (a b : Word) : Bool :=
  match signAndMagnitude o a, signAndMagnitude o b with
  | (true, m), (true, n) => decide (n < m)
  | (true, _), (false, _) => true
  | (false, _), (true, _) => false
  | (false, m), (false, n) => decide (m < n)

/-- A NaN of an instruction's format (03 R75). -/
def unordered (o : CoreForm) (v : Word) : Bool :=
  decide ((if o.imm.getLsbD 0 then 0x7FF0000000000000 else 0x7F800000) < (signAndMagnitude o v).2)

/-- The canonical NaN of an instruction's format (03 R78). -/
def canonicalNan (o : CoreForm) : Word := if o.imm.getLsbD 0 then 0x7FF8000000000000 else 0x7FC00000

/-- The class of an encoding (04 R122 FCLASS): its bit. -/
def classOf (o : CoreForm) (v : Word) : Nat :=
  let (neg, m) := signAndMagnitude o v
  let inf := if o.imm.getLsbD 0 then 0x7FF0000000000000 else 0x7F800000
  let least := if o.imm.getLsbD 0 then 2 ^ 52 else 2 ^ 23
  if inf < m then 8
  else if m = inf then (if neg then 0 else 7)
  else if m = 0 then (if neg then 3 else 4)
  else if m < least then (if neg then 2 else 5)
  else if neg then 1 else 6

/-- An instruction of 2 cycles that neither rounds nor sets a flag: its sources and its result (04 R122). -/
def movedOperation : Instr → State → Option (CoreForm × List (Nat × Bool) × Word)
  | .fmin o, s =>
    let a := s.me.readS o.a.toNat
    let b := s.me.readS o.b.toNat
    some (o, [(o.a.toNat, o.la), (o.b.toNat, o.lb)],
      if unordered o a || unordered o b then canonicalNan o
      else let v := if precedes o b a then b else a
        encodingOf o (signAndMagnitude o v).1 (signAndMagnitude o v).2)
  | .fmax o, s =>
    let a := s.me.readS o.a.toNat
    let b := s.me.readS o.b.toNat
    some (o, [(o.a.toNat, o.la), (o.b.toNat, o.lb)],
      if unordered o a || unordered o b then canonicalNan o
      else let v := if precedes o a b then b else a
        encodingOf o (signAndMagnitude o v).1 (signAndMagnitude o v).2)
  | .fsgn o, s =>
    let a := signAndMagnitude o (s.me.readS o.a.toNat)
    let b := signAndMagnitude o (s.me.readS o.b.toNat)
    some (o, [(o.a.toNat, o.la), (o.b.toNat, o.lb)],
      encodingOf o (match o.x.toNat with
        | 0 => b.1
        | 1 => !b.1
        | _ => xor a.1 b.1) a.2)
  | .fclass o, s => some (o, [(o.a.toNat, o.la)], BitVec.ofNat 64 (2 ^ classOf o (s.me.readS o.a.toNat)))
  | _, _ => none

/-- The conditions of FCMP (04 R121). -/
def floatComparison (o : CoreForm) (a b : Word) : Option Bool :=
  let un := unordered o a || unordered o b
  let less := precedes o a b
  let more := precedes o b a
  match o.x.toNat with
  | 0 => some (!un && !less && !more)
  | 1 => some (un || less || more)
  | 2 => some (!un && less)
  | 3 => some (!un && !more)
  | 4 => some (!un && more)
  | 5 => some (!un && !less)
  | 6 => some un
  | 7 => some (!un)
  | _ => none

/-- A multi-cycle floating-point instruction: its sources, the exact value it rounds and whether it divides by zero, its
micro-steps, and the partial state of a number of them (04 R111, R112, R122). -/
def slowOperation : Instr → State → Option (CoreForm × List (Nat × Bool) × Val × Bool × Nat × (Nat → Word × Word))
  | .fdiv o, s =>
    let q := (operandOf o s o.a).div (operandOf o s o.b)
    some (o, [(o.a.toNat, o.la), (o.b.toNat, o.lb)], q.1, q.2, if o.imm.getLsbD 0 then 20 else 10,
      fdivPartial (fmtOf o) ((fmtOf o).operand (s.me.readS o.a.toNat)) ((fmtOf o).operand (s.me.readS o.b.toNat)))
  | .fsqrt o, s => some (o, [(o.a.toNat, o.la)], (operandOf o s o.a).sqrt, false, if o.imm.getLsbD 0 then 24 else 12,
      fsqrtPartial (fmtOf o) ((fmtOf o).operand (s.me.readS o.a.toNat)))
  | _, _ => none

/-- The sources of a multi-cycle floating-point instruction are those of its first micro-step, where it has kept them. -/
def unchangedSources (i : Instr) (o : CoreForm) (s : State) : Prop :=
  s.me.sources = none ∨ s.me.sources = some (s.me.readS o.a.toNat, if i = .fsqrt o then 0 else s.me.readS o.b.toNat)

/-! ### Loads and stores (07 R213, R224) -/

/-- The bytes of a size code. -/
def sizeOfCode (x : BitVec 5) : Nat :=
  match x.toNat with
  | 0 => 8
  | 1 => 4
  | 2 => 2
  | 3 => 1
  | 4 => 4
  | 5 => 2
  | _ => 1

/-- The effective address of a load or store: A plus the sign-extended offset. -/
def addressOf (o : CoreForm) (s : State) : Nat := (s.me.readS o.a.toNat + o.imm.signExtend 64).toNat

/-- A load: the unit it reads, its size, whether it sign-extends, whether it is a pair (07 R224). -/
def loadOf : Instr → State → Option (CoreForm × Nat × Nat × Bool × Bool)
  | .ld o, s => some (o, s.cur.unit, sizeOfCode o.x, decide (4 ≤ o.x.toNat), false)
  | .ldp o, s => some (o, s.cur.unit, 16, false, true)
  | .ldx o, s => some (o, s.cur.unit / 16 * 16 + o.b.toNat % 16, sizeOfCode o.x, decide (4 ≤ o.x.toNat), false)
  | _, _ => none

/-- The bytes of a load may be read: by LDX in a SHARED bank whose owner is of the same job, otherwise in a bank or register
that the reader reaches; no word of theirs is in error (07 R204, R207, R213, R220). -/
def mayRead (i : Instr) (s : State) (u a n : Nat) : Prop :=
  match i with
  | .ldx _ => s.siblingFault u a n = false ∧ s.sound (windowPA u a) n
  | _ => s.localFault u s.bank a n = none ∧ (isBank u a || isMailbox u a → s.sound (windowPA u a) n)

/-- A store: its sources, size and bytes (07 R224). -/
def storeOf : Instr → State → Option (CoreForm × List (Nat × Bool) × Nat × BitVec 128)
  | .st o, s => some (o, [(o.a.toNat, o.la), (o.b.toNat, o.lb)], sizeOfCode o.x, (s.me.readS o.b.toNat).setWidth 128)
  | .stp o, s => some (o, [(o.a.toNat, o.la), (o.b.toNat, o.lb), (o.b.toNat + 1, o.lb)], 16,
      s.me.readS (o.b.toNat + 1) ++ s.me.readS o.b.toNat)
  | _, _ => none

/-- What a load of `n` bytes leaves in its register. -/
def extended (signed : Bool) (n v : Nat) : Word :=
  BitVec.ofInt 64 (if signed && v.testBit (8 * n - 1) then (v : Int) - 2 ^ (8 * n) else v)

end Sys2Proof.Claims

/-- 04 R100, R102, R122; 03 R79, R81, R95: FADD, FSUB, FMUL, FMA and FMS send the exact result, rounded once in the mode of RM
or ctl.frm, 4 cycles ahead with its flags, step the core's generator under SR, and change nothing else; a produced NaN traps
with ctl.mode.NANT, and a mode of 5 to 7 is a reserved operand. -/
def Obligations.RoundedFloatResults : Prop :=
  ∀ (i : Instr) (s : State) (o : CoreForm) rs v, roundedOperation i s = some (o, rs, v) →
    coreReady o { reads := rs, writes := [.sreg o.d.toNat], lat := 4 } s = true →
    (∀ mode r, s.me.roundMode o = some mode → r = (fmtOf o).round mode (stepGen mode s.me.gen) v →
      ((r.made = true → s.me.mode.getLsbD 2 = false) → s.aboveLimit o.d.toNat (BitVec.ofNat 64 r.bits) →
        Issues i s (s.results ((s.marked rs).modMe fun x => { x with gen := stepGen mode x.gen }) 4 o.d.toNat
          (BitVec.ofNat 64 r.bits) r.flags r.sat))
      ∧ (r.made = true → s.me.mode.getLsbD 2 = true → s.me.disposition 0x0A ≠ .report →
        Traps i s { cause := 0x0A, i1 := gridWord s.cur.unit }))
    ∧ (s.me.roundMode o = none → Traps i s { cause := 0x02, i0 := 7, i1 := s.me.slotWord })

/-- 04 R123, 03 R84, R85: FCVT sends the conversion of code X 2 cycles ahead; an i32 result is sign-extended.

04 R121, R122, 13 R372: FMIN, FMAX, FSGN, FCLASS and RDTIME send their result 2 cycles ahead without a flag, FCMP its
condition to a predicate. -/
def Obligations.ConversionResults : Prop :=
  (
  ∀ (o : CoreForm) (s : State) (mode : Nat) (r : Res) (v : Word),
    coreReady o { reads := [(o.a.toNat, o.la)], writes := [.sreg o.d.toNat], lat := 2 } s = true →
    s.me.roundMode o = some mode →
    r = fcvt o.x.toNat (s.me.readS o.a.toNat) mode (stepGen mode s.me.gen) (s.me.mode.getLsbD 1) →
    v = (if o.x = 10 then (BitVec.ofNat 32 r.bits).signExtend 64 else BitVec.ofNat 64 r.bits) →
    (r.strict = false → (r.made = true → s.me.mode.getLsbD 2 = false) → s.aboveLimit o.d.toNat v →
      Issues (.fcvt o) s (s.results ((s.marked [(o.a.toNat, o.la)]).modMe fun x => { x with gen := stepGen mode x.gen }) 2
        o.d.toNat v r.flags r.sat))
    ∧ (r.strict = true → s.me.disposition 0x0A ≠ .report →
      Traps (.fcvt o) s { cause := 0x0A, i1 := gridWord s.cur.unit })
  ) ∧ (
  (∀ (i : Instr) (s : State) (o : CoreForm) rs v, movedOperation i s = some (o, rs, v) →
    coreReady o { reads := rs, writes := [.sreg o.d.toNat], lat := 2 } s = true → s.aboveLimit o.d.toNat v →
    Issues i s (s.results (s.marked rs) 2 o.d.toNat v 0 0))
  ∧ (∀ (o : CoreForm) (s : State) (v : Bool), o.d.toNat < 16 →
    coreReady o { reads := [(o.a.toNat, o.la), (o.b.toNat, o.lb)], writes := [.preg o.d.toNat] } s = true →
    floatComparison o (s.me.readS o.a.toNat) (s.me.readS o.b.toNat) = some v →
    Issues (.fcmp o) s ((s.marked [(o.a.toNat, o.la), (o.b.toNat, o.lb)]).sent 2 (.preg o.d.toNat) (if v then 1 else 0) 0 0))
  ∧ ∀ (o : CoreForm) (s : State) (v : Word), coreReady o { writes := [.sreg o.d.toNat], lat := 2 } s = true →
    (o.x = 0 → v = BitVec.ofNat 64 (s.time / 1114112))
    → (o.x = 1 → v = BitVec.ofNat 64 (s.time / 1114112 % 2 ^ 48 * 2 ^ 16 + s.time / 17 % 2 ^ 16))
    → (o.x = 2 → v = s.servo.status) → o.x.toNat ≤ 2 → s.aboveLimit o.d.toNat v →
    Issues (.rdtime o) s (s.results s 2 o.d.toNat v 0 0)
  )

/-- 04 R101, R111, R112, R122: FDIV and FSQRT pass all their micro-steps but the last with nothing changed but the micro-step
number and the partial state; the last writes the exact result rounded once, with its flags. -/
def Obligations.SlowFloatResults : Prop :=
  ∀ (i : Instr) (s : State) (o : CoreForm) rs v dz n part mode r, slowOperation i s = some (o, rs, v, dz, n, part) →
    coreReady o { reads := rs, writes := [.sreg o.d.toNat] } s = true → s.me.roundMode o = some mode →
    r = (fmtOf o).round mode (stepGen mode s.me.gen) v → (r.made = true → s.me.mode.getLsbD 2 = false) →
    (s.me.ust = 0 → ∃ t, exec i s = .next t ∧ t.me.ust = 1 ∧ (t.me.partial0, t.me.partial1) = part 1 ∧ t.me.spoiled = false
      ∧ (t.modMe fun x => { x with partial0 := s.me.partial0, partial1 := s.me.partial1 }).sansIssue = s.sansIssue)
    ∧ (0 < s.me.ust → s.me.ust < n - 1 → ∃ t, exec i s = .next t ∧ t.me.ust = s.me.ust + 1
      ∧ (s.me.spoiled = false → unchangedSources i o s → (s.me.partial0, s.me.partial1) = part s.me.ust →
          t.me.spoiled = false ∧ (t.me.partial0, t.me.partial1) = part (s.me.ust + 1))
      ∧ (t.modMe fun x => { x with partial0 := s.me.partial0, partial1 := s.me.partial1 }).sansIssue = s.sansIssue)
    ∧ (s.me.ust = n - 1 → s.me.spoiled = false → unchangedSources i o s → (s.me.partial0, s.me.partial1) = part (n - 1) →
      s.aboveLimit o.d.toNat (BitVec.ofNat 64 r.bits) →
      Issues i s (((s.marked rs).modMe fun x =>
        { (x.raise (r.flags ||| if dz then 8 else 0)).saturated r.sat with gen := stepGen mode x.gen }).wroteS o.d.toNat
          (BitVec.ofNat 64 r.bits)))

/-- 03 R75, R81: rounding an exact value that the format has returns its encoding without a flag, in every mode. -/
def Obligations.RoundingKeepsFormatValues : Prop :=
  ∀ f ∈ [fp64, fp32, bf16, fp16, e4m3, e5m2, e3m2, e2m3, e2m1], ∀ (b mode : Nat) (g : BitVec 32) (strict : Bool),
    b < 2 ^ f.width → f.isNan b = false → f.round mode g (f.value b) strict = { bits := b }

/-- 07 R213, R224: LD, LDP and LDX of an aligned address that may be read issue their access, whose bank grant takes the value
later; the registers they load have a pending write. A load into s2 holds the core until its value has come (04 R102). Nothing is
written to memory.

07 R208, R224: ST and STP to an aligned address that may be reached issue their access; the bytes are stored at its grant
(`AccessesMoveTheirBytes`). A bank register takes 8 bytes of legal fields, not while PHEND waits. Nothing else changes. -/
def Obligations.LoadAndStoreResults : Prop :=
  (
  ∀ (i : Instr) (s : State) (o : CoreForm) (u n : Nat) (signed pair : Bool) (m : State), loadOf i s = some (o, u, n, signed, pair) →
    coreReady o { compute := decide (i = .ldx o), reads := [(o.a.toNat, o.la)]
                  writes := .sreg o.d.toNat :: (if pair then [.sreg (o.d.toNat + 1)] else []), lat := 3 } s = true →
    addressOf o s % n = 0 → mayRead i s u (addressOf o s) n →
    m = (s.marked [(o.a.toNat, o.la)]).traceAccess 0 (addressOf o s) →
    (o.d ≠ 2 → Issues i s (m.modMe fun x => { x with
      busy := ((if pair then [o.d.toNat, o.d.toNat + 1] else [o.d.toNat]).filter (· ≠ 0)).map CoreDest.sreg ++ x.busy
      accesses := x.accesses ++ [.load u (addressOf o s) n signed pair o.d.toNat s.cycle] }))
    ∧ (o.d = 2 → Issues i s (s.holdsResult (m.modMe fun x => { x with
        accesses := x.accesses ++ [.load u (addressOf o s) n signed pair o.d.toNat s.cycle] }) { at_ := none }))
  ) ∧ (
  ∀ (i : Instr) (s : State) (o : CoreForm) rs (n : Nat) (v : BitVec 128), storeOf i s = some (o, rs, n, v) →
    coreReady o { reads := rs } s = true → addressOf o s % n = 0 →
    s.localFault s.cur.unit s.bank (addressOf o s) n = none →
    (isBank s.cur.unit (addressOf o s) || isMailbox s.cur.unit (addressOf o s) → n < 8 →
      s.sound (windowPA s.cur.unit (addressOf o s)) n) →
    (0x2D0000 ≤ addressOf o s → bankStoreLegal (isSteward s.cur.unit) n (v.setWidth 64) = true ∧ s.me.phend = false) →
    Issues i s (((s.marked rs).traceAccess 1 (addressOf o s)).modMe fun x =>
      { x with accesses := x.accesses ++ [.store (addressOf o s) n v s.cycle] })
  )

/-- 07 R204, R207, R224: a load or store of a misaligned address traps with cause 0x07, one of an address that the unit or the
role of the bank refuses with cause 0x08, each with the address in ctl.info0 and nothing loaded or stored. -/
def Obligations.AddressTraps : Prop :=
  ∀ (i : Instr) (s : State) (o : CoreForm) (rs : List (Nat × Bool)) (n : Nat),
    ((∃ signed pair, (i = .ld o ∨ i = .ldp o) ∧ loadOf i s = some (o, s.cur.unit, n, signed, pair)
        ∧ coreReady o { reads := rs, writes := .sreg o.d.toNat :: (if pair then [.sreg (o.d.toNat + 1)] else []), lat := 3 } s = true
        ∧ rs = [(o.a.toNat, o.la)])
      ∨ ∃ v, storeOf i s = some (o, rs, n, v) ∧ coreReady o { reads := rs } s = true) →
    s.flips = [] →
    (addressOf o s % n ≠ 0 → Traps i s { cause := 0x07, i0 := BitVec.ofNat 64 (addressOf o s) })
    ∧ (addressOf o s % n = 0 → s.localFault s.cur.unit s.bank (addressOf o s) n = some 0x08 →
        Traps i s { cause := 0x08, i0 := BitVec.ofNat 64 (addressOf o s) })

/-- 07 R205, R224, R230: a store whose bank is free in a cycle after its issue stores its bytes, little-endian, at its address, and
no other byte of memory changes; the access is done and the bank taken. A steward's store that takes in its MWAIT status word leaves
the reserved bits of that word 0 (08 R258), and is not in this statement.

07 R205, R224: a load whose bank is free in a cycle after its issue takes the little-endian value of its bytes, sign- or
zero-extended, which lands two cycles later, into s2 a cycle earlier; a busy bank keeps it waiting. No byte of memory changes. -/
def Obligations.AccessesMoveTheirBytes : Prop :=
  (
  ∀ (s : State) (u : Nat) (c : Bool) (a n at_ : Nat) (v : BitVec 128) (rest : List CoreAccess),
    (s.ctx u c).accesses = .store a n v at_ :: rest → at_ < s.cycle → isBank u a = true →
    u < 768 ∨ a + n ≤ 0x7FFB8 ∨ 0x7FFC0 ≤ a →
    (s.tile u).granted.contains (bankOf a) = false →
    let t := s.serveAccess u c
    (t.ctx u c).accesses = rest ∧ (t.tile u).granted = bankOf a :: (s.tile u).granted
    ∧ (Memory.wf s.mem = true → ∀ k, k < n → readByte t.mem (windowPA u a + k) = v.extractLsb' (8 * k) 8)
    ∧ (∀ x, x < windowPA u a ∨ windowPA u a + n ≤ x → readByte t.mem x = readByte s.mem x)
    ∧ (∀ k, (t.ctx u c).readS k = (s.ctx u c).readS k) ∧ (t.ctx u c).p = (s.ctx u c).p ∧ t.agenda = s.agenda
  ) ∧ (
  ∀ (s : State) (u : Nat) (c : Bool) (a n d at_ : Nat) (signed pair : Bool) (rest : List CoreAccess),
    (s.ctx u c).accesses = .load u a n signed pair d at_ :: rest → at_ < s.cycle → a + n ≤ scratchSize u → 0 < n →
    (pair = true → n = 16 ∧ signed = false) →
    let t := s.serveAccess u c
    ((s.tile u).granted.contains (bankOf a) = true → t = s)
    ∧ ((s.tile u).granted.contains (bankOf a) = false →
      (t.ctx u c).accesses = rest ∧ t.mem = s.mem ∧ (∀ k, (t.ctx u c).readS k = (s.ctx u c).readS k)
      ∧ (d = 2 → t.agenda = s.agenda ∧ (t.ctx u c).late = (s.ctx u c).late.map fun l => { l with
          at_ := some (s.cycle + 1)
          v := if pair then BitVec.ofNat 64 (readBytes s.mem (windowPA u a) 8) else extended signed n (readBytes s.mem (windowPA u a) n)
          second := if pair then some (BitVec.ofNat 64 (readBytes s.mem (windowPA u a + 8) 8)) else none })
      ∧ (d ≠ 2 → pair = false → t.agenda = s.agenda ++ [(s.cycle + 2, .pipelinedResultWrite u c (.sreg d)
          (extended signed n (readBytes s.mem (windowPA u a) n)) 0 0)])
      ∧ (d ≠ 2 → pair = true → t.agenda = s.agenda ++ [
          (s.cycle + 2, .pipelinedResultWrite u c (.sreg d) (extended false 8 (readBytes s.mem (windowPA u a) 8)) 0 0),
          (s.cycle + 2, .pipelinedResultWrite u c (.sreg (d + 1)) (extended false 8 (readBytes s.mem (windowPA u a + 8) 8)) 0 0)]))
  )

/-- 04 R97, R99, R100, R125: PIPELINED_RESULT_WRITE puts its value into the register, predicate or mailbox word it is for, ends the
register's interlock and adds its flags to the pending ones; no other register, byte or context changes. One for s2 makes ready the
result that the core waits for (R102). -/
def Obligations.PipelinedResultsLand : Prop :=
  (∀ (s : State) (u n : Nat) (c : Bool) (v : Word) (fl : BitVec 7) (sat : Nat), n ≠ 2 →
    ∃ t, exec (.pipelinedResultWrite u c (.sreg n) v fl sat) s = .next t
      ∧ (t.ctx u c).readS n = (if n = 0 then 0 else v) ∧ (∀ k, k ≠ n → (t.ctx u c).readS k = (s.ctx u c).readS k)
      ∧ (t.ctx u c).busy = (s.ctx u c).busy.erase (.sreg n) ∧ (t.ctx u c).fpend = (s.ctx u c).fpend ||| fl
      ∧ (n ≠ 0 → (t.ctx u c).dead = (s.ctx u c).dead &&& ~~~BitVec.twoPow 32 n)
      ∧ (t.ctx u c).p = (s.ctx u c).p ∧ t.mem = s.mem ∧ ∀ w d, (w, d) ≠ (u, c) → t.ctx w d = s.ctx w d)
  ∧ (∀ (s : State) (u n : Nat) (c : Bool) (v : Word) (fl : BitVec 7) (sat : Nat),
    n < 16 → ∃ t, exec (.pipelinedResultWrite u c (.preg n) v fl sat) s = .next t
      ∧ (t.ctx u c).readP n = v.getLsbD 0 ∧ (∀ k, k < 16 → k ≠ n → (t.ctx u c).readP k = (s.ctx u c).readP k)
      ∧ (t.ctx u c).busy = (s.ctx u c).busy.erase (.preg n) ∧ (∀ k, (t.ctx u c).readS k = (s.ctx u c).readS k)
      ∧ t.mem = s.mem ∧ ∀ w d, (w, d) ≠ (u, c) → t.ctx w d = s.ctx w d)
  ∧ (∀ (s : State) (u : Nat) (c : Bool) (v : Word) (fl : BitVec 7) (sat : Nat) (l : Late), (s.ctx u c).late = some l →
    exec (.pipelinedResultWrite u c (.sreg 2) v fl sat) s = .next (s.modCtx u c fun x => { x with
      late := some (if l.at_ = none then { l with at_ := some s.cycle, v := v } else l) }))
  ∧ ∀ (s : State) (u e k : Nat) (c : Bool) (v : Word) (fl : BitVec 7) (sat : Nat), 1 ≤ e → e ≤ 4 →
    ∃ t, exec (.pipelinedResultWrite u c (.mailbox e k) v fl sat) s = .next t
      ∧ ((t.ctx u c).strip e).mailbox.look 0 k = v
      ∧ (∀ j, j ≠ k → ((t.ctx u c).strip e).mailbox.look 0 j = ((s.ctx u c).strip e).mailbox.look 0 j)
      ∧ (t.modStrip u c e fun x => { x with mailbox := ((s.ctx u c).strip e).mailbox })
          = (s.clearPoison (mailboxPA u c e k)).modStrip u c e fun x => x

namespace Sys2Proof.Claims

/-! ### Instructions that answer in D, and requests in local memory (11 R333) -/

/-- `i` completes at `s`, leaving `m` with `v` on its way to D, `lat` cycles ahead; a value that s2 may not take is the stack
limit's (04 R115). -/
def answers (i : Instr) (o : CoreForm) (s m : State) (lat : Nat) (v : Word) : Prop :=
  m.aboveLimit o.d.toNat v → Issues i s (s.results m lat o.d.toNat v 0 0)

/-- A refusal's status word (11 R333). -/
def refusal (code : Nat) : Word := BitVec.ofNat 64 (2 ^ 63 + code)

/-- The issue of a privileged instruction of a latency. -/
def stewardReady (o : CoreForm) (lat : Nat) (rs : List (Nat × Bool)) (s : State) : Prop :=
  coreReady o { privileged := true, reads := rs, writes := [.sreg o.d.toNat], lat := lat } s = true

/-- The `n` bytes of a request at local address `a` may be read in this cycle: aligned, reachable, without error, their bank
is free, and no older access of the context waits. -/
def requestReady (s : State) (a n align : Nat) : Prop :=
  s.requestAccess a n align = (s, none) ∧ s.me.accesses = []
  ∧ (isBank s.cur.unit a || isMailbox s.cur.unit a → s.sound (windowPA s.cur.unit a) n)
  ∧ (isBank s.cur.unit a = true → s.here.granted.contains (bankOf a) = false)

/-- The state in which a request has been read: its bank has granted. -/
def afterRequest (s : State) (a : Nat) : State :=
  if isBank s.cur.unit a then s.modHere fun t => { t with granted := bankOf a :: t.granted } else s

/-- The ready tasks of open jobs in the order of selection. -/
def selectable (s : State) : List (Nat × Nat × Nat × BitVec 1024) :=
  s.readyTasks.filter fun e => (s.jobSlot (s.queue e.1).job).isSome

/-- The first region, row-major, that a task may take. -/
def regionFor (s : State) (e : Nat × Nat × Nat × BitVec 1024) : Option (Nat × Nat) :=
  if 1 < taskModules e.2.2.2 then none else s.firstRegion e.2.2.2 (s.reserving == some (e.1, e.2.1))

/-- Every engine of a job on the module that takes part is frozen, and every gang of the job has REPL (11 R341). -/
def replayable (s : State) (j : Nat) : Prop :=
  (s.job j).valid = true ∧ (s.job j).runState = 1 ∧ (∀ u ∈ s.members j, (s.ctx u (s.tile u).run).frozen = true)
  ∧ ∀ e ∈ s.placed, e.2.job = (s.job j).id → e.2.state ≠ 0 → e.2.task.getLsbD 165 = true

end Sys2Proof.Claims

/-- 11 R333, R336, R337: PLACE, LAUNCH.go and LAUNCH.sel answer 16 cycles after issue: a placement number when the task
takes its region or its lines begin to load, else the status code of the first reason against it, with nothing placed.

11 R328, R331, R336, R337: a task that takes a region holds entry `p` as PLACED and every context of its region; its
record is HELD, and no other context and no byte of memory changes. A launch makes the entry LOADING with a legal
header, and its contexts.

Status codes that the rules leave open are the model's (log entry 36). -/
def Obligations.PlacementResults : Prop :=
  (
  (∀ (o : CoreForm) (s m : State) (a b q : Nat), stewardReady o 16 [(o.a.toNat, o.la), (o.b.toNat, o.lb)] s →
    m = s.marked [(o.a.toNat, o.la), (o.b.toNat, o.lb)] → a = (s.me.readS o.a.toNat).toNat → b = (s.me.readS o.b.toNat).toNat →
    a < 2 ^ 20 → b < 2 ^ 17 → bits b 5 3 = 0 → bits b 13 3 = 0 → q = a / 65536 →
    ((∀ e ∈ s.readyRecords, ¬ (e.1 = q ∧ e.2.1 % 65536 = a % 65536)) → answers (.place o) o s m 16 (refusal 1))
    ∧ ∀ n w t, s.readyRecords.find? (fun e => e.1 == q && e.2.1 % 65536 == a % 65536) = some (q, n, w) →
      s.recordOf (s.queue q) n = .task t →
      (s.jobSlot (s.queue q).job = none → answers (.place o) o s m 16 (refusal 8))
      ∧ (∀ j code, s.jobSlot (s.queue q).job = some j →
        s.regionStatus t (s.reserving == some (q, n)) (bits b 0 5) (bits b 8 5) (b.testBit 16) = some code →
        answers (.place o) o s m 16 (refusal code))
      ∧ ∀ j, s.jobSlot (s.queue q).job = some j →
        s.regionStatus t (s.reserving == some (q, n)) (bits b 0 5) (bits b 8 5) (b.testBit 16) = none →
        (s.freePlacement = none → answers (.place o) o s m 16 (refusal 6))
        ∧ ∀ p, s.freePlacement = some p →
          answers (.place o) o s (m.place p q n t (bits b 0 5) (bits b 8 5) (b.testBit 16)) 16 (BitVec.ofNat 64 p))
  ∧ (∀ (o : CoreForm) (s m : State) (p : Nat), stewardReady o 16 [(o.a.toNat, o.la)] s → m = s.marked [(o.a.toNat, o.la)] →
    p = (s.me.readS o.a.toNat).toNat → p < 64 →
    ((s.placement p).state ≠ 1 → answers (.launchGo o) o s m 16 (refusal 1))
    ∧ ((s.placement p).state = 1 → ∀ t, (m.launch p s.me.slotWord = (t, none) → answers (.launchGo o) o s t 16 (BitVec.ofNat 64 p))
      ∧ ∀ f, m.launch p s.me.slotWord = (t, some f) → Traps (.launchGo o) s f))
  ∧ ∀ (o : CoreForm) (s m : State), stewardReady o 16 [] s → s.poisonedRecord = none → m = s.marked [] →
    (selectable s = [] → answers (.launchSel o) o s m 16 (refusal 1))
    ∧ (∀ q n w t rest, selectable s = (q, n, w, t) :: rest → 1 < taskModules t →
      answers (.launchSel o) o s m 16 (refusal (7 + (q * 65536 + n % 65536) * 256)))
    ∧ (∀ e rest, selectable s = e :: rest → taskModules e.2.2.2 ≤ 1 → (∀ f ∈ selectable s, regionFor s f = none) →
      answers (.launchSel o) o s m 16 (refusal (if s.onlyBenched (selectable s) then 4 else 3)))
    ∧ ∀ e rest before q n w t after row col, selectable s = e :: rest → taskModules e.2.2.2 ≤ 1 →
      selectable s = before ++ (q, n, w, t) :: after → (∀ f ∈ before, regionFor s f = none) →
      regionFor s (q, n, w, t) = some (row, col) →
      (s.freePlacement = none → answers (.launchSel o) o s m 16 (refusal 6))
      ∧ ∀ p k, s.freePlacement = some p → (m.place p q n t row col (taskMode t == 2)).launch p s.me.slotWord = (k, none) →
        answers (.launchSel o) o s k 16 (BitVec.ofNat 64 p)
  ) ∧ (
  (∀ (s : State) (p q n row col : Nat) (t : BitVec 1024) (c : Bool) (k : State), taskLegal t = true → row < 24 → col < 32 →
    k = s.place p q n t row col c →
    (k.placement p).state = 1 ∧ (k.placement p).queue = q ∧ (k.placement p).record = n % 65536
    ∧ (k.placement p).job = (s.queue q).job ∧ (k.placement p).task = t ∧ (k.placement p).bank = c
    ∧ (k.placement p).tiles = regionTiles row col (taskRows t) (taskCols t)
    ∧ (∀ u ∈ regionTiles row col (taskRows t) (taskCols t), (k.ctx u c).life = .placed ∧ (k.ctx u c).place = p)
    ∧ (∀ r ∈ (k.queue q).recs, r.1 % 65536 = n % 65536 → r.2.1 = .held)
    ∧ (∀ i, i ≠ p → k.placement i = s.placement i)
    ∧ (∀ u d, d ≠ c ∨ u ∉ regionTiles row col (taskRows t) (taskCols t) → k.ctx u d = s.ctx u d)
    ∧ k.mem = s.mem ∧ k.jobs = s.jobs)
  ∧ ∀ (s k : State) (p : Nat) (slot : Word), s.flips = [] → s.launch p slot = (k, none) →
    (k.placement p).state = 2 ∧ headerLegal (k.placement p).header (s.placement p).task = true
    ∧ (∀ u ∈ (s.placement p).tiles, (k.ctx u (s.placement p).bank).life = .loading) ∧ k.mem = s.mem
    ∧ ∀ i, i ≠ p → k.placement i = s.placement i
  )

/-- 11 R326, R337, R338, R341: LAUNCH.open of a legal entry opens its job in a free slot at phase 0, with its kickoff task
appended first if it names one; LAUNCH.replay abandons the superstep of a frozen job; CTXSW arms its request.

Where the rules leave a point open, the model's choices are those of log entry 36. -/
def Obligations.JobInstructionResults : Prop :=
  (∀ (o : CoreForm) (s m : State) (a v : Nat), stewardReady o 16 [(o.a.toNat, o.la)] s → a = (s.me.readS o.a.toNat).toNat →
    requestReady s a 64 16 → m = afterRequest (s.marked [(o.a.toNat, o.la)]) a → v = m.windowRead s.cur.unit a 64 →
    (entryLegal v = false ∨ (s.jobSlot (BitVec.ofNat 32 (entryField v 0 4))).isSome = true →
      Traps (.launchOpen o) s { cause := 0x02, i0 := 7, i1 := s.me.slotWord })
    ∧ (entryLegal v = true → s.jobSlot (BitVec.ofNat 32 (entryField v 0 4)) = none →
      (entryField v 6 1 = 1 → s.servo.lock = false →
        Traps (.launchOpen o) s { cause := 0x02, i0 := 16, i1 := s.me.slotWord })
      ∧ (entryField v 6 1 = 0 ∨ s.servo.lock = true →
        (s.slotFor (BitVec.ofNat 32 (entryField v 0 4)) = none → answers (.launchOpen o) o s m 16 (refusal 6))
        ∧ ∀ j, s.slotFor (BitVec.ofNat 32 (entryField v 0 4)) = some j →
          (entryField v 32 8 = 0 → answers (.launchOpen o) o s (m.openJob j v) 16 0)
          ∧ ∀ k t, entryField v 32 8 ≠ 0 →
            m.readJob s.cur.unit (BitVec.ofNat 32 (entryField v 0 4)) { agent := agentOf s.cur.unit false, phase := 0 } [] .read 2
              (entryField v 32 8) 128 = (k, .inr (t, 0)) →
            (k.append (k.actor s.cur.unit false) (BitVec.ofNat 1024 t) (BitVec.ofNat 32 (entryField v 0 4)) false s.me.slotWord = .full →
              answers (.launchOpen o) o s k 16 (refusal 10))
            ∧ ∀ l n, k.append (k.actor s.cur.unit false) (BitVec.ofNat 1024 t) (BitVec.ofNat 32 (entryField v 0 4)) false
                s.me.slotWord = .done l n →
              answers (.launchOpen o) o s (l.openJob j v) 16 (BitVec.ofNat 64 n))))
  ∧ (∀ (s : State) (j v : Nat), let b := (s.openJob j v).job j
    b.opened = true ∧ b.id.toNat = entryField v 0 4 ∧ b.phase = 0 ∧ b.bplane = entryField v 7 1
    ∧ b.straggle = (if entryField v 24 4 = 0 then 65536 else entryField v 24 4)
    ∧ b.stallto = (if entryField v 28 4 = 0 then 1048576 else entryField v 28 4)
    ∧ (∀ i, i ≠ j → (s.openJob j v).job i = s.job i) ∧ (s.openJob j v).mem = s.mem)
  ∧ (∀ (o : CoreForm) (s : State) (j : Nat), stewardReady o 16 [(o.a.toNat, o.la)] s → (s.me.readS o.a.toNat).toNat < 2 ^ 32 →
    s.jobSlot ((s.me.readS o.a.toNat).setWidth 32) = some j →
    (replayable s j → answers (.launchReplay o) o s ((s.marked [(o.a.toNat, o.la)]).replay j) 16 0)
    ∧ (¬ replayable s j → Traps (.launchReplay o) s { cause := 0x02, i0 := 15, i1 := s.me.slotWord }))
  ∧ (∀ (s : State) (j : Nat), ((s.replay j).job j).phase = (s.job j).phase / 2 * 2 + 2 ∧ (s.replay j).mem = s.mem
    ∧ ∀ i, i ≠ j → (s.replay j).job i = s.job i)
  ∧ ∀ (o : CoreForm) (s m : State) (a v j : Nat), coreReady o { privileged := true, reads := [(o.a.toNat, o.la)] } s = true →
    a = (s.me.readS o.a.toNat).toNat → requestReady s a 32 16 → m = afterRequest (s.marked [(o.a.toNat, o.la)]) a →
    v = m.windowRead s.cur.unit a 32 → s.jobSlot (BitVec.ofNat 32 (entryField v 0 4)) = some j →
    entryField v 4 4 = 0 → entryField v 24 8 = 0 → entryField v 16 8 ≠ 0 → entryField v 16 8 < 2 ^ 51 → (s.job j).armed = none →
    Issues (.ctxsw o) s (if s.streamsOnly j (entryField v 8 8) then m.switchJob j (entryField v 16 8)
      else m.modJob j fun b => { b with armed := some (entryField v 8 8, entryField v 16 8) })

/-- 11 R332, R339, R340: CTXSAVE of a gang whose contexts are quiet starts its save, CTXLOAD of a save area whose
signature fits a placeable region makes an entry that is LOADING; each answers its placement number, else a status
code or the mismatch trap.

Where the rules leave a status or the save's form open, the model's choices are those of log entries 36 and 37. -/
def Obligations.ContextMoveResults : Prop :=
  (∀ (o : CoreForm) (s m : State) (a v p at_ : Nat), stewardReady o 16 [(o.a.toNat, o.la)] s →
    a = (s.me.readS o.a.toNat).toNat → requestReady s a 16 16 → m = afterRequest (s.marked [(o.a.toNat, o.la)]) a →
    v = m.windowRead s.cur.unit a 16 → p = entryField v 0 1 → at_ = entryField v 8 8 → p < 64 → bits v 12 3 = 0 →
    entryField v 2 6 = 0 → at_ % 4096 = 0 → at_ < 2 ^ 51 →
    ((s.placement p).state = 0 → answers (.ctxsave o) o s m 16 (refusal 1))
    ∧ (0 < (s.placement p).state → (s.placement p).state < 3 → answers (.ctxsave o) o s m 16 (refusal 9))
    ∧ (3 ≤ (s.placement p).state → s.maySave (s.placement p) = false ∨ (s.placement p).saving = true →
      answers (.ctxsave o) o s m 16 (refusal 9))
    ∧ (3 ≤ (s.placement p).state → s.maySave (s.placement p) = true → (s.placement p).saving = false →
      answers (.ctxsave o) o s
        ((m.modPlacement p fun e => { e with
            saveAs := some at_, saving := true, frees := o.x.getLsbD 0
            sig_ := if v.testBit 15 then some (s.cur.unit * 16 + bits v 8 4) else none }).schedule
          (s.cycle + 1 + Config.loadLatency s.fresh) (.ctxsaveComplete p)).used 16 (BitVec.ofNat 64 p)))
  ∧ ∀ (o : CoreForm) (s m : State) (a v at_ b : Nat), stewardReady o 16 [(o.a.toNat, o.la)] s →
    a = (s.me.readS o.a.toNat).toNat → requestReady s a 16 16 → m = afterRequest (s.marked [(o.a.toNat, o.la)]) a →
    v = m.windowRead s.cur.unit a 16 → at_ = entryField v 0 8 → b = entryField v 8 4 → b < 2 ^ 17 → bits b 5 3 = 0 →
    bits b 13 3 = 0 → bits v 100 3 = 0 → entryField v 13 3 = 0 → at_ % 4096 = 0 → at_ < 2 ^ 51 →
    (s.savedAt s.cur.unit at_ = none → answers (.ctxload o) o s m 16 (refusal 8))
    ∧ ∀ id t sig, s.savedAt s.cur.unit at_ = some (id, t, sig) →
      (signature t (bits b 0 5) (bits b 8 5) ≠ sig →
        Traps (.ctxload o) s { cause := 0x30, i0 := sig, i1 := signature t (bits b 0 5) (bits b 8 5) })
      ∧ (signature t (bits b 0 5) (bits b 8 5) = sig → ∀ code,
        s.regionStatus t false (bits b 0 5) (bits b 8 5) (b.testBit 16) = some code → answers (.ctxload o) o s m 16 (refusal code))
      ∧ (signature t (bits b 0 5) (bits b 8 5) = sig → s.regionStatus t false (bits b 0 5) (bits b 8 5) (b.testBit 16) = none →
        ∀ p, s.freePlacement = some p → ∃ k, answers (.ctxload o) o s k 16 (BitVec.ofNat 64 p)
          ∧ (k.placement p).state = 2 ∧ (k.placement p).task = t ∧ (k.placement p).sig = sig ∧ (k.placement p).origin = b
          ∧ (∀ u ∈ (k.placement p).tiles, (k.ctx u (b.testBit 16)).life = .loading)
          ∧ (∀ i, i ≠ p → k.placement i = s.placement i) ∧ k.mem = s.mem)

/-- 11 R334, R335: TEND, with no strip running and no stream left, marks its context ended and abandons its armed strips;
it waits while there are any, and traps on a strip that is STOPPED or TRAPPED. TSPAWN appends its record and answers
its number 8 cycles later, or all ones if the queue is full.

Where the rules leave the order of checks open, the model's choices are those of log entries 34 and 35. -/
def Obligations.TaskInstructionResults : Prop :=
  (∀ (o : CoreForm) (s : State), isSteward s.cur.unit = false → coreReady o {} s = true →
    ((∃ e, 1 ≤ e ∧ e ≤ 4 ∧ (s.me.strip e).state = 2) ∨ (∃ e ∈ s.me.streams, e.1 < 16) →
      ∃ t, exec (.tend o) s = .next t ∧ t.me.queue = s.me.queue ∧ t.me.wait = 8 ∧ t.sansIssue = s.sansIssue)
    ∧ ((∀ e, 1 ≤ e → e ≤ 4 → (s.me.strip e).state ≠ 2) → (∀ e ∈ s.me.streams, 16 ≤ e.1) →
      ((∃ e, 1 ≤ e ∧ e ≤ 4 ∧ ((s.me.strip e).state = 3 ∨ (s.me.strip e).state = 5)) →
        Traps (.tend o) s { cause := 0x02, i0 := 14, i1 := s.me.slotWord })
      ∧ ((∀ e, 1 ≤ e → e ≤ 4 → (s.me.strip e).state ≠ 3 ∧ (s.me.strip e).state ≠ 5) →
        Issues (.tend o) s ((s.modMe fun x => { x with tend := true, arrived := false, checked := false }).modMe
          (eachNamed 15 fun t => if t.state = 1 then { t with state := 0 } else t)))))
  ∧ (∀ (o : CoreForm) (s m : State) (a : Nat) (t : BitVec 1024),
    coreReady o { reads := [(o.a.toNat, o.la)], writes := [.sreg o.d.toNat], lat := 8 } s = true →
    a = (s.me.readS o.a.toNat).toNat → requestReady s a 128 64 → m = afterRequest (s.marked [(o.a.toNat, o.la)]) a →
    t = BitVec.ofNat 1024 (m.windowRead s.cur.unit a 128) →
    (taskLegal t = false → Traps (.tspawn o) s { cause := 0x02, i0 := 7, i1 := s.me.slotWord })
    ∧ (taskLegal t = true → (s.queue (taskQueue t)).size = 0 → Traps (.tspawn o) s { cause := 0x02, i0 := 18, i1 := s.me.slotWord })
    ∧ (taskLegal t = true → (s.queue (taskQueue t)).size ≠ 0 → isSteward s.cur.unit = false →
      (s.queue (taskQueue t)).job ≠ s.me.jobId → Traps (.tspawn o) s { cause := 0x11, i0 := BitVec.ofNat 64 (taskQueue t) })
    ∧ (taskLegal t = true → (s.queue (taskQueue t)).size ≠ 0 → isSteward s.cur.unit = true ∨ (s.queue (taskQueue t)).job = s.me.jobId →
      (s.queue (taskQueue t)).size ≤ (s.queue (taskQueue t)).recs.length →
      answers (.tspawn o) o s m 8 0xFFFFFFFFFFFFFFFF)
    ∧ ∀ k n, m.append (m.actor s.cur.unit s.bank) t s.me.jobId (isSteward s.cur.unit) s.me.slotWord = .done k n →
      answers (.tspawn o) o s k 8 (BitVec.ofNat 64 n))
  ∧ ∀ (s k : State) (x : Actor) (t : BitVec 1024) (id : BitVec 32) (any : Bool) (slot : Word) (n : Nat) (p : Place),
    s.append x t id any slot = .done k n → s.flips = [] → s.ringPlace (s.queue (taskQueue t)) (s.queue (taskQueue t)).tail .write = .inr p →
    p.tracked = false → p.pa < 2 ^ 40 →
    n = (s.queue (taskQueue t)).tail ∧ (k.queue (taskQueue t)).tail = (n + 1) % 2 ^ 32
    ∧ (k.queue (taskQueue t)).recs = (s.queue (taskQueue t)).recs ++ [(n, .waiting, none)]
    ∧ (Memory.wf s.mem = true → ∀ i, i < 128 → readByte k.mem (p.pa + i) = t.extractLsb' (8 * i) 8)
    ∧ (∀ a, a < p.pa ∨ p.pa + 128 ≤ a → readByte k.mem a = readByte s.mem a) ∧ k.units = s.units

namespace Sys2Proof.Claims

/-- A steward at work has issued for one of its cycles more: it stands, its queue as it was, and leaves `m`. -/
def stands (i : Instr) (s m : State) : Prop := ∃ t, exec i s = .next t ∧ t.me.queue = s.me.queue ∧ t.sansIssue = m.sansIssue

end Sys2Proof.Claims

/-- 08 R257, R258: MONITOR copies its line into the mirror of the data memory, writes status 0 and arms; MWAIT writes
reason 2 with nothing armed, sleeps while nothing has come, and ends with the reason that came.

07 R222, 12 R351, R352, R358, R359: TLBINV rewrites its entry, purges what is cached of its range and waits for its
markers; BENCH sets a tile's bench bit; ERRINJ arms an injection or inverts stored bits.

Where the rules leave a point open, the model's choices are those of log entries 23 and 39. -/
def Obligations.StewardResults : Prop :=
  (
  (∀ (o : CoreForm) (s : State) (a : Nat), coreReady o { privileged := true, reads := [(o.a.toNat, o.la)] } s = true →
    a = (s.me.readS o.a.toNat).toNat →
    (a % 64 ≠ 0 → Traps (.monitor o) s { cause := 0x07, i0 := BitVec.ofNat 64 a })
    ∧ (a % 64 = 0 → ∀ k, s.monitorFault a = some k →
      Traps (.monitor o) s { cause := 0x11, i0 := BitVec.ofNat 64 a, i1 := BitVec.ofNat 64 k })
    ∧ (a % 64 = 0 → s.monitorFault a = none →
      (s.me.hold = none → stands (.monitor o) s s.used
        ∧ ∀ t, exec (.monitor o) s = .next t → t.me.hold = some (s.cycle + Config.memoryLatency s.fresh))
      ∧ ∀ h, s.me.hold = some h → h ≤ s.cycle → s.flips = [] →
        ∃ t, exec (.monitor o) s = .next t ∧ t.here.lmon = { line := some (s.ownPA a) }
          ∧ (Memory.wf s.mem = true → ∀ i, i < 64 → readByte t.mem (windowPA s.cur.unit 0x7FFC0 + i) = readByte s.mem (s.ownPA a + i))
          ∧ (Memory.wf s.mem = true → ∀ i, i < 8 → readByte t.mem (windowPA s.cur.unit 0x7FFB8 + i) = 0)
          ∧ (∀ x, x < windowPA s.cur.unit 0x7FFB8 ∨ windowPA s.cur.unit 0x80000 ≤ x → readByte t.mem x = readByte s.mem x)
          ∧ (∀ n, t.me.readS n = s.me.readS n) ∧ t.me.p = s.me.p ∧ t.jobs = s.jobs ∧ t.placed = s.placed))
  ∧ ∀ (o : CoreForm) (s : State), coreReady o { privileged := true, reads := [(o.a.toNat, o.la)] } s = true →
    (s.here.lmon.line = none → Issues (.mwait o) s ((s.marked [(o.a.toNat, o.la)]).monitorStatus s.cur.unit 2)
      ∧ ∀ t, exec (.mwait o) s = .next t → (Memory.wf s.mem = true → readBytes t.mem (windowPA s.cur.unit 0x7FFB8) 8 = 2)
        ∧ ∀ x, x < windowPA s.cur.unit 0x7FFB8 ∨ windowPA s.cur.unit 0x7FFC0 ≤ x → readByte t.mem x = readByte s.mem x)
    ∧ ∀ line, s.here.lmon.line = some line →
      (∀ r, s.here.lmon.wake = some r → Issues (.mwait o) s ((s.marked [(o.a.toNat, o.la)]).monitorEnds s.cur.unit line r)
        ∧ ∀ t, exec (.mwait o) s = .next t → t.here.lmon = {} ∧ (r < 4 → Memory.wf s.mem = true →
          readBytes t.mem (windowPA s.cur.unit 0x7FFB8) 8 = r))
      ∧ (s.here.lmon.wake = none → s.here.lmon.asleep = true → stands (.mwait o) s s)
      ∧ (s.here.lmon.wake = none → s.here.lmon.asleep = false → s.me.readS o.a.toNat = 0 →
        stands (.mwait o) s (s.modHere fun h => { h with lmon := { h.lmon with asleep := true, sleepFrom := s.cycle } }))
      ∧ (s.here.lmon.wake = none → s.here.lmon.asleep = false → s.me.readS o.a.toNat ≠ 0 →
        stands (.mwait o) s ((s.modHere fun h => { h with lmon := { h.lmon with asleep := true, sleepFrom := s.cycle } }).schedule
          (s.cycle + (s.me.readS o.a.toNat).toNat) (.mwaitTimeout s.cur.unit)))
  ) ∧ (
  (∀ (o : CoreForm) (s : State) (a v k : Nat) (id : BitVec 32),
    coreReady o { privileged := true, reads := [(o.a.toNat, o.la), (o.b.toNat, o.lb)] } s = true →
    a = (s.me.readS o.a.toNat).toNat → id = (s.me.readS o.b.toNat).setWidth 32 →
    (∀ t, s.me.hold = some t → t ≤ s.cycle → Issues (.tlbinv o) s (s.marked [(o.a.toNat, o.la), (o.b.toNat, o.lb)]))
    ∧ (s.me.hold = none → a + 32 ≤ 0x80000 → requestReady s a 32 32 → v = readBytes s.mem (windowPA s.cur.unit a) 32 →
      (s.me.readS o.b.toNat).toNat < 2 ^ 32 → (s.jobSlot id).isSome = true → s.invalidationLegal (o.x.toNat % 4) v = true →
      k < 16 → s.shadows.find k = none → (∀ i, i < k → s.shadows.find i ≠ none) →
      stands (.tlbinv o) s (((afterRequest (s.marked [(o.a.toNat, o.la), (o.b.toNat, o.lb)]) a).invalidate s.cur.unit
        (o.x.toNat % 4) k id v).modMe fun x => { x with dead := s.me.dead })
      ∧ ∀ t, exec (.tlbinv o) s = .next t → t.me.hold = some (s.cycle + 63)))
  ∧ (∀ (s t : State) (u scope k v slot root lo hi e : Nat) (id : BitVec 32), t = s.invalidate u scope k id v →
    s.rootOf id = some (slot, root) → (lo, hi) = s.invalidRange scope root (bits v 0 51) → e = s.ownPA (bits v 64 64) → e < 2 ^ 40 →
    (∀ w x, x ∈ (t.tile w).tlb → ¬ (x.slot = slot ∧ lo ≤ x.va ∧ x.va + x.size ≤ hi))
    ∧ (t.shadows.find k).map (fun h => (h.slot, h.lo, h.hi)) = some (slot, lo, hi)
    ∧ (bits v 64 64 ≠ 0 → (Memory.wf s.mem = true → readBytes t.mem e 8 = bits v 128 64) ∧ ∀ x, x < e ∨ e + 8 ≤ x → readByte t.mem x = readByte s.mem x)
    ∧ (bits v 64 64 = 0 → t.mem = s.mem) ∧ ∀ w c n, (t.ctx w c).readS n = (s.ctx w c).readS n)
  ∧ (∀ (o : CoreForm) (s : State), coreReady o { privileged := true, reads := [(o.a.toNat, o.la)] } s = true →
    ((s.me.readS o.a.toNat).toNat < 768 →
      Issues (.bench o) s ((s.marked [(o.a.toNat, o.la)]).benchTile (s.me.readS o.a.toNat).toNat)
      ∧ ∀ t, exec (.bench o) s = .next t → t.bench = s.bench ||| BitVec.twoPow 768 (s.me.readS o.a.toNat).toNat)
    ∧ (768 ≤ (s.me.readS o.a.toNat).toNat → Traps (.bench o) s { cause := 0x02, i0 := 7, i1 := s.me.slotWord }))
  ∧ ∀ (o : CoreForm) (s m : State) (a : Nat) (mask : Word),
    coreReady o { privileged := true, reads := [(o.a.toNat, o.la), (o.b.toNat, o.lb)] } s = true →
    m = s.marked [(o.a.toNat, o.la), (o.b.toNat, o.lb)] → a = (s.me.readS o.a.toNat).toNat → mask = s.me.readS o.b.toNat →
    (a % 8 ≠ 0 → Traps (.errinj o) s { cause := 0x07, i0 := BitVec.ofNat 64 a })
    ∧ (a % 8 = 0 → namesArrayWord a = false → Traps (.errinj o) s { cause := 0x08, i0 := BitVec.ofNat 64 a })
    ∧ (a % 8 = 0 → namesArrayWord a = true →
      (s.me.hold = none → stands (.errinj o) s s ∧ ∀ t, exec (.errinj o) s = .next t → t.me.hold = some (s.cycle + 3))
      ∧ ∀ h, s.me.hold = some h → h ≤ s.cycle →
        (o.x.getLsbD 0 = true → Issues (.errinj o) s
          (m.mod (bits a 22 10) fun t => { t with inject := some (a, mask, o.x.setWidth 2) }))
        ∧ (o.x.getLsbD 0 = false → isEntryView a = true →
          Issues (.errinj o) s (m.invertEntry (bits a 22 10) a mask (o.x.getLsbD 1) true))
        ∧ (o.x.getLsbD 0 = false → isEntryView a = false → s.flips.find a = none → mask ≠ 0 ∨ o.x.getLsbD 1 = true →
          Issues (.errinj o) s { m with flips := m.flips.put a { mask := mask, check := o.x.getLsbD 1, injected := true } }))
  )

/-- 14 R404 to R407: WHISTLE freezes its job with cause 0x22; RESUME and STEP.job fix the release of a job whose cause is
settled and move its schedule; STEP.tile and STEP.insn let one engine of a frozen tile run.

Where the rules leave a point open, the model's choices are those of log entries 33 and 48. -/
def Obligations.WhistleInstructionResults : Prop :=
  (∀ (o : CoreForm) (s : State) (j : Nat), coreReady o { privileged := true, reads := [(o.a.toNat, o.la)] } s = true →
    (s.me.readS o.a.toNat).toNat < 2 ^ 32 → s.jobSlot ((s.me.readS o.a.toNat).setWidth 32) = some j →
    Issues (.whistle o) s ((s.marked [(o.a.toNat, o.la)]).originate j s.cur.unit 0 0x22 0 (dieOf s.cur.unit / 2 * 12)
      (dieOf s.cur.unit % 2 * 16))
    ∧ ((s.job j).valid = false → ∀ t, exec (.whistle o) s = .next t → (t.job j).valid = true ∧ (t.job j).settled = false
      ∧ (t.job j).winner = some { time := s.ns, frac := s.frac, dev := s.device, tile := s.cur.unit, eng := 0, cause := 0x22, info0 := 0 }
      ∧ t.mem = s.mem))
  ∧ (∀ (o : CoreForm) (s m : State) (j t : Nat),
    coreReady o { privileged := true, reads := [(o.a.toNat, o.la), (o.b.toNat, o.lb)] } s = true →
    m = s.marked [(o.a.toNat, o.la), (o.b.toNat, o.lb)] → t = (s.me.readS o.b.toNat).toNat → (s.me.readS o.a.toNat).toNat < 2 ^ 32 →
    s.jobSlot ((s.me.readS o.a.toNat).setWidth 32) = some j →
    ((s.job j).valid = true → (s.job j).settled = true → (s.job j).runState = 1 → s.ns + 4000 ≤ t → t ≤ s.ns + 2 ^ 32 →
      Issues (.resume o) s ((m.sendWhistle 0 (m.releasePacket j s.cur.unit 1 0 t)).releaseAt j t none))
    ∧ ((s.job j).valid = false ∨ (s.job j).settled = false ∨ (s.job j).runState ≠ 1 ∨ t < s.ns + 4000 →
      Traps (.resume o) s { cause := 0x02, i0 := 7, i1 := s.me.slotWord })
    ∧ ((s.job j).valid = true → (s.job j).settled = true → (s.job j).runState = 1 → t ≠ 0 → t < 2 ^ 32 →
      Issues (.stepJob o) s ((m.sendWhistle 0 (m.releasePacket j s.cur.unit 2 t (s.ns + 4096))).releaseAt j (s.ns + 4096) (some t))))
  ∧ (∀ (s : State) (j t : Nat), let b := (s.releaseAt j t none).job j
    b.valid = false ∧ b.runState = 0 ∧ b.release = some (s.cycleAt t) ∧ b.shift = (s.job j).shift + (t - (s.job j).since)
    ∧ (∀ u ∈ s.frozenTiles j, (s.cycleAt t + s.offsetOf j u, Event.tileRelease j u) ∈ (s.releaseAt j t none).agenda)
    ∧ (s.releaseAt j t none).mem = s.mem)
  ∧ ∀ (o : CoreForm) (s : State) (v : Nat), coreReady o { privileged := true, reads := [(o.a.toNat, o.la)] } s = true →
    v = (s.me.readS o.a.toNat).toNat →
    (s.mayStep v = true →
      Issues (.stepTile o) s ((s.marked [(o.a.toNat, o.la)]).beginStep v false)
      ∧ Issues (.stepInsn o) s ((s.marked [(o.a.toNat, o.la)]).beginStep v true)
      ∧ ∀ t, exec (.stepTile o) s = .next t → (t.tile (v % 1024)).stepping =
        some { eng := bits v 12 3, whole := decide (bits v 12 3 = 0), since := s.cycle })
    ∧ (s.mayStep v = false → ∀ i, i = .stepTile o ∨ i = .stepInsn o →
      Traps i s { cause := 0x02, i0 := 7, i1 := s.me.slotWord })

/-- 10 R318 to R320: COPEN takes the lowest free handle, answers its number at once and launches its probe; CHOLD
lengthens a lease, CCLOSE closes, CSTAT reads the four words of a handle.

13 R378 to R382, R386, R387: RCSNAP and RCREAD ask a route unit, whose value lands later; FMSET changes a parameter 64
cycles ahead, FMREAD reads a meter entry or a parameter; HISTCFG restarts a monitor under a configuration, HISTRD
reads one of its words.

The sampling of counts and monitors is read as log entries 29 and 30 say. -/
def Obligations.CircuitAndCounterResults : Prop :=
  (
  (∀ (o : CoreForm) (s m : State) (a v : Nat),
    coreReady o { reads := [(o.a.toNat, o.la)], writes := [.sreg o.d.toNat] } s = true → a = (s.me.readS o.a.toNat).toNat →
    requestReady s a 16 16 →
    m = afterRequest (s.marked [(o.a.toNat, o.la)]) a → v = m.windowRead s.cur.unit a 16 →
    ((∀ h, h < 16 → (s.me.handles.look {} h).state ≠ 0) → s.aboveLimit o.d.toNat 0xFFFFFFFFFFFFFFFF →
      Issues (.copen o) s (m.wroteS o.d.toNat 0xFFFFFFFFFFFFFFFF))
    ∧ ∀ h k, h < 16 → (s.me.handles.look {} h).state = 0 → (∀ i, i < h → (s.me.handles.look {} i).state ≠ 0) →
      k = (m.modHandle s.cur.unit s.bank h fun _ => openedHandle v (s.here.param 2)) → s.aboveLimit o.d.toNat (BitVec.ofNat 64 h) →
      Issues (.copen o) s ((if requestLegal v then k.launchProbe s.cur.unit (k.probeOf s.cur.unit (.handle s.bank h))
        else k.failProbe (k.probeOf s.cur.unit (.handle s.bank h)) 8).wroteS o.d.toNat (BitVec.ofNat 64 h)))
  ∧ (∀ (o : CoreForm) (s : State) (h : Nat), coreReady o { reads := [(o.a.toNat, o.la), (o.b.toNat, o.lb)] } s = true →
    h = (s.me.readS o.a.toNat).toNat → h < 16 →
    ((s.me.handles.look {} h).state ≠ 0 → Issues (.chold o) s ((s.marked [(o.a.toNat, o.la), (o.b.toNat, o.lb)]).modHandle s.cur.unit
      s.bank h fun e => { e with lease := max e.lease (min (s.me.readS o.b.toNat).toNat (2 ^ 32 - 1)) }))
    ∧ ((s.me.handles.look {} h).state = 0 → Traps (.chold o) s { cause := 0x02, i0 := 13, i1 := s.me.slotWord }))
  ∧ (∀ (o : CoreForm) (s m : State) (h : Nat), coreReady o { reads := [(o.a.toNat, o.la)] } s = true →
    m = s.marked [(o.a.toNat, o.la)] → h = (s.me.readS o.a.toNat).toNat → h < 16 →
    ((s.me.handles.look {} h).state = 0 → Traps (.cclose o) s { cause := 0x02, i0 := 13, i1 := s.me.slotWord })
    ∧ ((s.me.handles.look {} h).state = 1 → Issues (.cclose o) s
      ((m.releaseCircuit (circuitId s.device s.cur.unit (.handle s.bank h))).modHandle s.cur.unit s.bank h fun _ => {}))
    ∧ ((s.me.handles.look {} h).state = 2 → Issues (.cclose o) s (m.tearCircuit s.cur.unit (.handle s.bank h) 2))
    ∧ ((s.me.handles.look {} h).state = 3 → Issues (.cclose o) s m)
    ∧ (4 ≤ (s.me.handles.look {} h).state → (s.me.handles.look {} h).tearing = false →
      Issues (.cclose o) s (m.modHandle s.cur.unit s.bank h fun _ => {}))
    ∧ (4 ≤ (s.me.handles.look {} h).state → (s.me.handles.look {} h).tearing = true →
      Issues (.cclose o) s (m.modHandle s.cur.unit s.bank h fun e => { e with state := 3 })))
  ∧ ∀ (o : CoreForm) (s : State) (h : Nat) (v : Word), coreReady o { reads := [(o.a.toNat, o.la)], writes := [.sreg o.d.toNat] } s = true →
    h = (s.me.readS o.a.toNat).toNat → h < 16 → o.x.toNat < 4 →
    (o.x = 0 → v = (s.me.handles.look {} h).status) → (o.x = 1 → v = BitVec.ofNat 64 (s.me.handles.look {} h).lease) →
    (o.x = 2 → v = BitVec.ofNat 64 (s.me.handles.look {} h).beats) →
    (o.x = 3 → v = BitVec.ofNat 64 (s.me.handles.look {} h).latency) →
    s.aboveLimit o.d.toNat v → WritesRegister (.cstat o) s [(o.a.toNat, o.la)] o.d.toNat v
  ) ∧ (
  (∀ (o : CoreForm) (s m : State) (a : Nat) (dest : CoreDest) (i : Instr),
    coreReady o { reads := [(o.a.toNat, o.la)], writes := [.sreg o.d.toNat], lat := s.routeDelay } s = true →
    m = s.marked [(o.a.toNat, o.la)] → a = (s.me.readS o.a.toNat).toNat → o.d ≠ 2 →
    ((i = .rcsnap o ∧ a < 4 ∧ s.routeDenied a = false ∧ dest = .snapshot o.d.toNat a)
      ∨ (i = .rcread o ∧ a < 1024 ∧ s.routeDenied (a / 256) = false ∧ dest = .counter o.d.toNat (a / 256) o.x.toNat (a % 256))) →
    Issues i s (((m.modMe fun x => { x with busy := if o.d = 0 then x.busy else .sreg o.d.toNat :: x.busy }).used).schedule
      (s.cycle + s.routeDelay) (.pipelinedResultWrite s.cur.unit s.bank dest 0 0 0)))
  ∧ (∀ (o : CoreForm) (s m : State) (a : Nat),
    coreReady o { reads := [(o.a.toNat, o.la)], writes := [.sreg o.d.toNat], lat := s.routeDelay } s = true →
    m = s.marked [(o.a.toNat, o.la)] → a = (s.me.readS o.a.toNat).toNat →
    (a < 4 → s.routeDenied a = true → Traps (.rcsnap o) s { cause := 0x11, i0 := BitVec.ofNat 64 a })
    ∧ (a < 1024 → s.routeDenied (a / 256) = true → Traps (.rcread o) s { cause := 0x11, i0 := BitVec.ofNat 64 (a / 256) })
    ∧ (o.d = 2 → a < 4 → s.routeDenied a = false →
      Issues (.rcsnap o) s (s.holdsResult (m.used.schedule (s.cycle + s.routeDelay - 1)
        (.pipelinedResultWrite s.cur.unit s.bank (.snapshot 2 a) 0 0 0)) { at_ := none }))
    ∧ (o.d = 2 → a < 1024 → s.routeDenied (a / 256) = false →
      Issues (.rcread o) s (s.holdsResult (m.used.schedule (s.cycle + s.routeDelay - 1)
        (.pipelinedResultWrite s.cur.unit s.bank (.counter 2 (a / 256) o.x.toNat (a % 256)) 0 0 0)) { at_ := none })))
  ∧ (∀ (s : State) (u n die sel e : Nat) (c : Bool) (v : Word) (fl : BitVec 7) (sat : Nat), n ≠ 0 → n ≠ 2 →
    (∃ t, exec (.pipelinedResultWrite u c (.snapshot n die) v fl sat) s = .next t
      ∧ (t.routeUnit.look {} die).snap = (s.routeUnit.look {} die).live ∧ (t.routeUnit.look {} die).live = []
      ∧ (t.routeUnit.look {} die).seq = min ((s.routeUnit.look {} die).seq + 1) 4294967295
      ∧ (t.ctx u c).readS n = BitVec.ofNat 64 (t.routeUnit.look {} die).seq ∧ t.mem = s.mem)
    ∧ ∃ t, exec (.pipelinedResultWrite u c (.counter n die sel e) v fl sat) s = .next t ∧ t.routeUnit = s.routeUnit
      ∧ (t.ctx u c).readS n = BitVec.ofNat 64 (match sel with
        | 0 => (s.routeUnit.look {} die).snap.look 0 e
        | 1 => (s.routeUnit.look {} die).live.look 0 e
        | _ => (s.routeUnit.look {} die).seq) ∧ t.mem = s.mem)
  ∧ (∀ (o : CoreForm) (s m : State) (a v : Nat),
    coreReady o { privileged := true, reads := [(o.a.toNat, o.la), (o.b.toNat, o.lb)] } s = true →
    m = s.marked [(o.a.toNat, o.la), (o.b.toNat, o.lb)] → a = (s.me.readS o.a.toNat).toNat → v = (s.me.readS o.b.toNat).toNat →
    paramLegal o.x.toNat v = true →
    (a < 768 → Issues (.fmset o) s (m.mod a fun t => { t with fmNext := t.fmNext ++ [(s.cycle + 64, o.x.toNat, v)] }))
    ∧ (a = 1024 → ∃ t, exec (.fmset o) s = .next t ∧ t.mem = s.mem ∧ (∀ n, t.me.readS n = s.me.readS n)
      ∧ ∀ u, (t.tile u).fmNext = (s.tile u).fmNext ++ (if u < 768 then [(s.cycle + 64, o.x.toNat, v)] else [])))
  ∧ (∀ (o : CoreForm) (s : State) (a u : Nat), coreReady o { reads := [(o.a.toNat, o.la)], writes := [.sreg o.d.toNat], lat := 2 } s = true →
    a = (s.me.readS o.a.toNat).toNat → a < 2 ^ 14 →
    ((isSteward s.cur.unit = false ∧ a < 16 ∧ u = s.cur.unit) ∨ (isSteward s.cur.unit = true ∧ a / 16 < 768 ∧ u = a / 16)) →
    (o.x.toNat < 8 → answers (.fmread o) o s (s.marked [(o.a.toNat, o.la)]) 2 ((s.meter u (a % 16)).word o.x.toNat))
    ∧ (8 ≤ o.x.toNat → answers (.fmread o) o s (s.marked [(o.a.toNat, o.la)]) 2 (BitVec.ofNat 64 ((s.tile u).param (o.x.toNat - 8)))))
  ∧ (∀ (o : CoreForm) (s m : State) (a : Nat) (v : Word),
    coreReady o { reads := [(o.a.toNat, o.la), (o.b.toNat, o.lb)] } s = true → m = s.marked [(o.a.toNat, o.la), (o.b.toNat, o.lb)] →
    a = (s.me.readS o.a.toNat).toNat → v = s.me.readS o.b.toNat →
    (a < 2 → isSteward s.cur.unit = false → monitorLegal false v = true →
      Issues (.histcfg o) s (m.modHere fun t => { t with mon := t.mon.put a (Monitor.configure v) }))
    ∧ (8 ≤ a → a < 16 → isSteward s.cur.unit = true → monitorLegal true v = true →
      Issues (.histcfg o) s { m with dieMon := m.dieMon.put (8 * dieOf s.cur.unit + a % 8) (Monitor.configure v) })
    ∧ (8 ≤ a → a < 16 → isSteward s.cur.unit = false → Traps (.histcfg o) s { cause := 0x11, i0 := BitVec.ofNat 64 a }))
  ∧ ∀ (o : CoreForm) (s m : State) (a : Nat),
    coreReady o { reads := [(o.a.toNat, o.la)], writes := [.sreg o.d.toNat], lat := 2 } s = true → m = s.marked [(o.a.toNat, o.la)] →
    a = (s.me.readS o.a.toNat).toNat → a / 16 < 36 →
    (a % 16 < 2 ∧ isSteward s.cur.unit = false) ∨ (8 ≤ a % 16 ∧ isSteward s.cur.unit = true) →
    answers (.histrd o) o s (if o.x.getLsbD 0 then m.setMonitor (a % 16) (Monitor.configure (s.namedMonitor (a % 16)).config) else m) 2
      ((s.namedMonitor (a % 16)).word (a / 16))
  )

namespace Sys2Proof.Claims

/-! ### Strip instructions (02 R53 to R57) -/

/-- The guard of a strip instruction is true, its tokens are present, those that it pushes have room, and no debugger has made the
strip go on elsewhere (02 R53, R54; 09 R265). -/
def stripReady (h : StripHead) (s : State) : Prop :=
  s.strip.loose = false ∧ s.guardTrue h = true ∧ s.lacksToken h = none ∧ s.lacksRoom h = none

/-- What a single-cycle strip instruction leaves beside its effect `m`: its tokens moved, the strip's position behind it, and its
next issue 1 + IDLE cycles ahead (02 R45, R54, R55). -/
def stripIssued (h : StripHead) (m : State) : State := ((m.takeTokens h).giveTokens h).stripEnds h 0

/-- The operand rows of a vector instruction, in order. -/
def operandRows (p : VectorSpec) (s : State) : List Row := (s.readVectors p.sources).2.map (·.1)

/-- A vector instruction with operands `p` may issue at `s` in rounding mode `mode` with active lanes `on`: a compute phase, ports
bound, entries and room present, earlier results landed, no dead register read in checked mode, no data error (05 R132 to R138). -/
structure VectorReady (h : StripHead) (p : VectorSpec) (mode : Nat) (on : LaneMask) (s : State) : Prop where
  phase : s.inExchange = false
  strip : stripReady h s
  bound : s.me.unbound p = none
  rounds : mode = if p.round = 5 then (s.me.frm.extractLsb' 0 3).toNat else p.round
  legal : mode < 5
  inputs : s.emptyInput p = none
  output : s.fullOutput p = none
  landed : s.me.vectorBusy p = false
  live : s.me.mode.getLsbD 0 = true → ∀ n ∈ p.readRegs, s.me.vdead.getLsbD n = false
  target : ∀ n, p.target = .reg n → p.m ≠ 0 → s.me.vdead.getLsbD n = false
  correct : s.scrubVector p = s
  sound : s.vectorError p on (s.readVectors p.sources).2 = none

/-- What a vector instruction leaves as it issues: its entries popped, its last-use bits taken, its generators stepped, and its
result on its way (05 R134, R136, R137). -/
def vectorIssued (h : StripHead) (p : VectorSpec) (on : LaneMask) (c : Calc) (s : State) : State :=
  stripIssued h (((s.readVectors p.sources).1.modMe fun x => { x.markVectors p.sources with vgen := c.gens }).issueVector p on
    (BitVec.ofNat 6144 c.row) c)

/-- Generator `l` of the acting context (03 R83). -/
def generator (s : State) (l : Nat) : BitVec 32 := s.me.vgen.look (seedOf s.me.seed l) l

/-- Sum over the lanes of `on` and the elements below `n`. -/
def sumOver (on : LaneMask) (n : Nat) (f : Nat → Nat → Nat) : Nat :=
  ((List.range lanes).map fun l => if on.getLsbD l then ((List.range n).map (f l)).sum else 0).sum

/-- A vector instruction that computes element by element: its header, its operands, the width of its elements, the mode in which
an element rounds, and the value of element `e` of lane `l` from the operand rows and the generator after its step. -/
structure ElementOp where
  head : StripHead
  spec : VectorSpec
  width : Nat
  modeOf : Nat → Nat → Nat := fun _ _ => 0
  value : Ctx → Nat → List Row → BitVec 32 → Nat → Nat → Res

/-- The exact value of a floating-point element of an operand. -/
def fv (t : BitVec 4) (vs : List Row) (i l e : Nat) : Val := (elemFmt t).value (el t vs i l e)

/-- The integer of an element of an operand. -/
def iv (t : BitVec 4) (vs : List Row) (i l e : Nat) : Int := intOf t (el t vs i l e)

/-- A rounding operation on two operands that divides exactly or wraps as its type says (05 R143). -/
def arithOp (h : StripHead) (o : VRForm) (f : Val → Val → Val) (k : Int → Int → Int) : ElementOp where
  head := h
  spec := vrAB o 4 (roundOf o)
  width := widthOf o.t
  modeOf := fun mode _ => if floats o.t then mode else 0
  value := fun _ mode vs g l e =>
    if floats o.t then (elemFmt o.t).round mode g (f (fv o.t vs 0 l e) (fv o.t vs 1 l e))
    else if o.f.getLsbD 0 then saturate (isSigned o.t) (widthOf o.t) (k (iv o.t vs 0 l e) (iv o.t vs 1 l e))
    else { bits := wrap (widthOf o.t) (k (iv o.t vs 0 l e) (iv o.t vs 1 l e)) }

/-- A fused multiply-add: `p` of the product and `c` of the addend, one rounding; an invalid product is a produced NaN (05 R143,
R144). -/
def fusedOp (h : StripHead) (o : VRForm) (p c : Val → Val) : ElementOp where
  head := h
  spec := vrABC o 4 (roundOf o)
  width := widthOf o.t
  modeOf := fun mode _ => mode
  value := fun _ mode vs g l e =>
    let ab := p ((fv o.t vs 0 l e).mul (fv o.t vs 1 l e))
    (elemFmt o.t).round mode g (if ab = .made then .made else ab.add (c (fv o.t vs 2 l e)))

/-- A function of latency 12 that rounds once, and may divide by zero (05 R143, R144). -/
def slowOp (h : StripHead) (o : VRForm) (spec : VectorSpec) (f : List Row → Nat → Nat → Val × Bool) : ElementOp where
  head := h
  spec := spec
  width := widthOf o.t
  modeOf := fun mode _ => mode
  value := fun _ mode vs g l e =>
    let r := (elemFmt o.t).round mode g (f vs l e).1
    { r with flags := if (f vs l e).2 then r.flags ||| fDivZero else r.flags }

/-- An operation on the bits of each element, without a flag. -/
def bitsOp (h : StripHead) (o : VRForm) (spec : VectorSpec) (f : List Row → Nat → Nat → Nat) : ElementOp where
  head := h
  spec := spec
  width := widthOf o.t
  value := fun _ _ vs _ l e => { bits := f vs l e }

/-- A transcendental function: rounded to FP32; a packed element is taken to FP32 and rounded once more (05 R146, 03 R87). -/
def funcOp (h : StripHead) (o : VRForm) (f : Func) : ElementOp where
  head := h
  spec := vrA o 12
  width := widthOf o.t
  value := fun _ _ vs _ l e => f.applyIn o.t (el o.t vs 0 l e)

/-- The instructions that compute element by element, with their value as 05 R143 to R146 and R154 to R158 give it. -/
def elementOp : Instr → Option ElementOp
  | .vadd h o => some (arithOp h o Val.add (· + ·))
  | .vsub h o => some (arithOp h o Val.sub (· - ·))
  | .vmul h o => some (arithOp h o Val.mul (· * ·))
  | .vfma h o => some (fusedOp h o id id)
  | .vfms h o => some (fusedOp h o id Val.neg)
  | .vfnma h o => some (fusedOp h o Val.neg id)
  | .vdiv h o => some (slowOp h o (vrAB o 12 (roundOf o)) fun vs l e => (fv o.t vs 0 l e).div (fv o.t vs 1 l e))
  | .vsqrt h o => some (slowOp h o (vrA o 12 (roundOf o)) fun vs l e => ((fv o.t vs 0 l e).sqrt, false))
  | .vrsq h o => some (slowOp h o (vrA o 12 (roundOf o)) fun vs l e => (fv o.t vs 0 l e).rsqrt)
  | .vrcp h o => some (slowOp h o (vrA o 12 (roundOf o)) fun vs l e => (Val.num false 1 0 false).div (fv o.t vs 0 l e))
  | .vmin h o => some (bitsOp h o (vrAB o) fun vs l e =>
      if floats o.t then (elemFmt o.t).pick false (el o.t vs 0 l e) (el o.t vs 1 l e)
      else if iv o.t vs 0 l e < iv o.t vs 1 l e then el o.t vs 0 l e else el o.t vs 1 l e)
  | .vmax h o => some (bitsOp h o (vrAB o) fun vs l e =>
      if floats o.t then (elemFmt o.t).pick true (el o.t vs 0 l e) (el o.t vs 1 l e)
      else if iv o.t vs 0 l e < iv o.t vs 1 l e then el o.t vs 1 l e else el o.t vs 0 l e)
  | .vabs h o => some { bitsOp h o (vrA o) (fun _ _ _ => 0) with
      value := fun _ _ vs _ l e =>
        if floats o.t then { bits := (elemFmt o.t).mag (el o.t vs 0 l e) }
        else if o.f.getLsbD 0 then saturate (isSigned o.t) (widthOf o.t) (iv o.t vs 0 l e).natAbs
        else { bits := wrap (widthOf o.t) (iv o.t vs 0 l e).natAbs } }
  | .vneg h o => some { bitsOp h o (vrA o) (fun _ _ _ => 0) with
      value := fun _ _ vs _ l e =>
        if floats o.t then
          { bits := (elemFmt o.t).pack (!(elemFmt o.t).sign (el o.t vs 0 l e)) ((elemFmt o.t).mag (el o.t vs 0 l e)) }
        else if o.f.getLsbD 0 then saturate (isSigned o.t) (widthOf o.t) (-iv o.t vs 0 l e)
        else { bits := wrap (widthOf o.t) (-iv o.t vs 0 l e) } }
  | .vshl h o => some (bitsOp h o (vrAB o) fun vs l e =>
      el o.t vs 0 l e * 2 ^ (el o.t vs 1 l e % widthOf o.t) % 2 ^ widthOf o.t)
  | .vshr h o => some (bitsOp h o (vrAB o) fun vs l e => el o.t vs 0 l e / 2 ^ (el o.t vs 1 l e % widthOf o.t))
  | .vsra h o => some (bitsOp h o (vrAB o) fun vs l e =>
      wrap (widthOf o.t) (signedOf (el o.t vs 0 l e) (widthOf o.t) / (2 ^ (el o.t vs 1 l e % widthOf o.t) : Nat)))
  | .vpopc h o => some (bitsOp h o (vrA o) fun vs l e => ((List.range (widthOf o.t)).filter (el o.t vs 0 l e).testBit).length)
  | .vclz h o => some (bitsOp h o (vrA o) fun vs l e => widthOf o.t - bitLength (el o.t vs 0 l e))
  | .vmulh h o => some (bitsOp h o (vrAB o) fun vs l e =>
      wrap (widthOf o.t) (iv o.t vs 0 l e * iv o.t vs 1 l e / (2 ^ widthOf o.t : Nat)))
  | .vexp h o => some (funcOp h o .exp)
  | .vexp2 h o => some (funcOp h o .exp2)
  | .vlog h o => some (funcOp h o .log)
  | .vlog2 h o => some (funcOp h o .log2)
  | .vtanh h o => some (funcOp h o .tanh)
  | .vsigm h o => some (funcOp h o .sigm)
  | .vsilu h o => some (funcOp h o .silu)
  | .vgelu h o => some (funcOp h o .gelu)
  | .vcvt h o => some {
      head := h, spec := vrA o 4 (highRound o), width := widthOf o.t
      modeOf := fun mode _ => if floats (o.b.extractLsb' 0 4) || floats o.t then mode else 0
      value := fun x mode vs g l e =>
        let src := o.b.extractLsb' 0 4
        let a := el o.t vs 0 l e
        if floats src && floats o.t then convert (elemFmt src) (elemFmt o.t) mode g x.strict a
        else if floats src then toInteger (isSigned o.t) (widthOf o.t) mode g ((elemFmt src).value a)
        else if floats o.t then (elemFmt o.t).round mode g (Val.ofInt (intOf src a))
        else saturate (isSigned o.t) (widthOf o.t) (intOf src a) }
  | .vpack h o => some {
      head := h, width := widthOf o.t
      spec := if elements o.t = 4 then vrABC o 4 (highRound o) else vrAB o 4 (highRound o)
      modeOf := fun mode e => if e / 2 = packedHalf o && floats o.t then mode else 0
      value := fun x mode vs g l e =>
        if e / 2 = packedHalf o then
          let a := (lane (nthRow vs (e % 2)) l).toNat
          if floats o.t then convert fp32 (elemFmt o.t) mode g x.strict a
          else saturate (isSigned o.t) (widthOf o.t) (if isSigned o.t then signedOf a 32 else a)
        else { bits := el o.t vs 2 l e } }
  | .vunpk h o => some (bitsOp h o (vrA o) fun vs l e =>
      let src := o.b.extractLsb' 0 4
      let a := el src vs 0 l (o.f.toNat * elements o.t + e)
      if floats src then (convert (elemFmt src) (elemFmt o.t) 0 0 false a).bits else wrap (widthOf o.t) (intOf src a))
  | .vqnt h o => some {
      head := h, spec := vrABC o, width := widthOf o.t
      modeOf := fun _ e => if e = (o.f.extractLsb' 0 2).toNat && o.f.getLsbD 2 then 4 else 0
      value := fun x _ vs g l e =>
        let m := if o.f.getLsbD 2 then 4 else 0
        let q := (fp32.value (lane (nthRow vs 0) l).toNat).mul (fp32.value (lane (nthRow vs 1) l).toNat)
        if e = (o.f.extractLsb' 0 2).toNat then
          if floats o.t then
            -- a NaN operand keeps its sign (03 R84)
            match [nthRow vs 0, nthRow vs 1].find? fun v => fp32.isNan (lane v l).toNat with
            | some v => convert fp32 (elemFmt o.t) m g x.strict (lane v l).toNat
            | none => (elemFmt o.t).round m g q x.strict
          else toInteger (isSigned o.t) (widthOf o.t) m g q
        else { bits := el o.t vs 2 l e } }
  | .vscl h o => some {
      head := h, spec := vrAB o 4 (roundOf o), width := widthOf o.t
      modeOf := fun mode _ => mode
      value := fun _ mode vs g l e =>
        (elemFmt o.t).round mode g ((fv o.t vs 0 l e).scaled (signedOf (el o.t vs 1 l e) (widthOf o.t))) }
  | _ => none
where
  /-- the half of a four-element destination that VPACK fills -/
  packedHalf (o : VRForm) : Nat := if elements o.t = 4 ∧ o.f.getLsbD 0 = true then 1 else 0

/-- How often the generator of a lane has stepped when element `e` rounds. -/
def ElementOp.steps (op : ElementOp) (mode e : Nat) : Nat :=
  ((List.range (e + 1)).filter fun k => op.modeOf mode k == 4).length

/-- The result of element `e` of lane `l`: a rounding in mode 4 uses the generator after its step (03 R83). -/
def ElementOp.result (op : ElementOp) (s : State) (mode l e : Nat) : Res :=
  op.value s.me mode (operandRows op.spec s)
    (if op.modeOf mode e = 4 then Nat.repeat xs32 (op.steps mode e) (generator s l) else 0) l e

/-! ### Instructions that move or compare whole lanes -/

/-- A vector instruction that gives each active lane a value: into a register or port the whole lane, into a mask its low bit. -/
structure LaneOp where
  head : StripHead
  spec : VectorSpec
  /-- the lanes that it may write -/
  only : LaneMask := BitVec.allOnes 192
  value : LaneMask → List Row → Nat → BitVec 32

/-- The condition of VCMP (05 R147). -/
def compares (t : BitVec 4) (c : Nat) (a b : BitVec 32) : Bool :=
  if floats t then
    let n := fp32.isNan a.toNat || fp32.isNan b.toNat
    let lt := decide (fp32.order a.toNat < fp32.order b.toNat)
    let eq := decide (fp32.order a.toNat = fp32.order b.toNat)
    match c with
    | 0 => !n && eq
    | 1 => n || !eq
    | 2 => !n && lt
    | 3 => !n && (lt || eq)
    | 4 => !n && !lt && !eq
    | 5 => !n && !lt
    | 6 => n
    | _ => !n
  else
    let x := intOf t a.toNat
    let y := intOf t b.toNat
    match c with
    | 0 => decide (x = y)
    | 1 => decide (x ≠ y)
    | 2 => decide (x < y)
    | 3 => decide (x ≤ y)
    | 4 => decide (x > y)
    | 5 => decide (x ≥ y)
    | 8 => a &&& b != 0
    | _ => a &&& b == 0

/-- The number of active lanes of the group of lane `l` that `q` picks. -/
def countIn (g l : Nat) (on : LaneMask) (q : Nat → Bool) : Nat :=
  ((List.range lanes).filter fun k => k / g == l / g && on.getLsbD k && q k).length

/-- VTHS selects lane `l`: fewer than k lanes of its group come before it, those with a greater key and those with its own key
at a lower place (05 R152). -/
def selects (t : BitVec 4) (g : Nat) (on : LaneMask) (vs : List Row) (l : Nat) : Bool :=
  let tau := (lane (nthRow vs 1) (l / g * g)).toNat
  let k := (lane (nthRow vs 2) (l / g * g)).toNat
  let key := fun i => laneKey t (lane (nthRow vs 0) i)
  (decide (tau < key l) && decide (countIn g l on (fun i => decide (i < l) && decide (tau < key i)) < k))
    || (key l == tau && decide (countIn g l on (fun i => decide (tau < key i))
          + countIn g l on (fun i => decide (i < l) && key i == tau) < k))

/-- The mask that a mask operation writes. -/
def maskOp (h : StripHead) (o : VRForm) (two : Bool) (f : Bool → Bool → Bool) : LaneOp where
  head := h
  spec := { sources := if two then [.mask o.a.toNat, .mask o.b.toNat] else [.mask o.a.toNat], target := .mask o.d.toNat
            m := o.m.toNat }
  value := fun _ vs l => if f ((nthRow vs 0).getLsbD l) ((nthRow vs 1).getLsbD l) then 1 else 0

/-- The instructions that move or compare whole lanes (05 R145, R147 to R152, R161 to R168). -/
def laneOp : Instr → Option LaneOp
  | .vand h o => some { head := h, spec := vrAB o, value := fun _ vs l => lane (nthRow vs 0) l &&& lane (nthRow vs 1) l }
  | .vor h o => some { head := h, spec := vrAB o, value := fun _ vs l => lane (nthRow vs 0) l ||| lane (nthRow vs 1) l }
  | .vxor h o => some { head := h, spec := vrAB o, value := fun _ vs l => lane (nthRow vs 0) l ^^^ lane (nthRow vs 1) l }
  | .vnot h o => some { head := h, spec := vrA o, value := fun _ vs l => ~~~lane (nthRow vs 0) l }
  | .vcmp h o => some {
      head := h, spec := { vrAB o with target := .mask o.d.toNat }
      value := fun _ vs l => if compares o.t o.f.toNat (lane (nthRow vs 0) l) (lane (nthRow vs 1) l) then 1 else 0 }
  | .vsel h o => some {
      head := h, spec := { vrAB o with sources := [sourceOf o.a o.la, sourceOf o.b o.lb, .mask o.c.toNat] }
      value := fun _ vs l => if (nthRow vs 2).getLsbD l then lane (nthRow vs 0) l else lane (nthRow vs 1) l }
  | .vmand h o => some (maskOp h o true fun a b => a && (if o.f.getLsbD 0 then !b else b))
  | .vmor h o => some (maskOp h o true fun a b => a || b)
  | .vmxor h o => some (maskOp h o true fun a b => a != b)
  | .vmnot h o => some (maskOp h o false fun a _ => !a)
  | .vmpop h o => some {
      head := h, spec := { sources := [.mask o.a.toNat], target := targetOfCode o.d, m := o.m.toNat }
      value := fun _ vs _ => BitVec.ofNat 32 ((List.range lanes).filter (nthRow vs 0).getLsbD).length }
  | .vthc h o => some {
      head := h, spec := vrAB o
      value := fun on vs l => BitVec.ofNat 32 (countIn (groupSize o.f) l on fun k =>
        decide ((lane (nthRow vs 1) (l / groupSize o.f * groupSize o.f)).toNat ≤ laneKey o.t (lane (nthRow vs 0) k))) }
  | .vths h o => some {
      head := h, spec := { vrABC o 6 with target := .mask o.d.toNat }
      value := fun on vs l => if selects o.t (groupSize o.f) on vs l then 1 else 0 }
  | .vperm h o => some {
      head := h, spec := vrAB o 6
      value := fun _ vs l =>
        if (lane (nthRow vs 1) l).toNat < 192 then lane (nthRow vs 0) (lane (nthRow vs 1) l).toNat else 0 }
  | .vbcast h o => some { head := h, spec := vrA o 6, value := fun _ vs l => lane (nthRow vs 0) (l / groupSize o.f * groupSize o.f) }
  | .vrot h o => some { head := h, spec := viA o 6, value := fun _ vs l => lane (nthRow vs 0) ((l + (o.imm.toNat % 256)) % 192) }
  | .viota h o => some {
      head := h, spec := { viA o with sources := [] }
      value := fun _ _ l => BitVec.ofNat 32 (o.imm.toNat % 4096 + l * (o.imm.toNat / 4096 % 32)) }
  | .vmov h o => some { head := h, spec := vrA o, value := fun _ vs l => lane (nthRow vs 0) l }
  | .vli h o none => some {
      head := h, spec := { viA o with sources := [] }
      value := fun _ _ _ => (o.imm.extractLsb' 0 17).signExtend 32 }
  | .vli h o (some v) => some { head := h, spec := { viA o with sources := [] }, value := fun _ _ _ => v }
  | .vput h o => some {
      head := h, spec := { viA o with sources := [.mailbox o.a.toNat] }
      only := if o.imm.getLsbD 8 then BitVec.allOnes 192 else BitVec.twoPow 192 (o.imm.toNat % 256)
      value := fun _ vs _ => (nthRow vs 0).setWidth 32 }
  | _ => none

/-! ### Reductions (05 R159, 03 R91) -/

/-- A reduction: its type, its identity for an inactive lane, and the combination of two elements under a mode and generator. -/
structure ReduceOp where
  head : StripHead
  spec : VectorSpec
  t : BitVec 4
  one : Nat
  rounds : Bool := false
  join : Nat → BitVec 32 → Nat → Nat → Res

/-- The reductions (05 R159). -/
def reduceOp : Instr → Option ReduceOp
  | .vrsum h o => some {
      head := h, spec := vrA o 12 (roundOf o), t := o.t, rounds := floats o.t
      one := if floats o.t then (elemFmt o.t).pack true 0 else 0
      join := fun mode g a b =>
        if floats o.t then (elemFmt o.t).round mode g (((elemFmt o.t).value a).add ((elemFmt o.t).value b))
        else { bits := (a + b) % 2 ^ 32 } }
  | .vrmax h o => some {
      head := h, spec := vrA o 12, t := o.t
      one := if floats o.t then (elemFmt o.t).pack true (elemFmt o.t).infCode
        else if isSigned o.t then 2 ^ (widthOf o.t - 1) else 0
      join := fun _ _ a b =>
        if floats o.t then { bits := (elemFmt o.t).pick true a b }
        else if intOf o.t a < intOf o.t b then { bits := b } else { bits := a } }
  | .vrmin h o => some {
      head := h, spec := vrA o 12, t := o.t
      one := if floats o.t then (elemFmt o.t).pack false (elemFmt o.t).infCode
        else if isSigned o.t then 2 ^ (widthOf o.t - 1) - 1 else 2 ^ widthOf o.t - 1
      join := fun _ _ a b =>
        if floats o.t then { bits := (elemFmt o.t).pick false a b }
        else if intOf o.t a < intOf o.t b then { bits := a } else { bits := b } }
  | _ => none

/-- Element `e` of lane `l` as it enters the tree (03 R91). -/
def ReduceOp.leaf (r : ReduceOp) (on : LaneMask) (row : Row) (l e : Nat) : Nat :=
  if on.getLsbD l then element (lane row l) (widthOf r.t) e else r.one

/-- The generator of lane `l` for the combination at level `k`, element `e`: the lane's levels below have stepped it. -/
def ReduceOp.gen (r : ReduceOp) (s : State) (mode l k e : Nat) : BitVec 32 :=
  if r.rounds = true ∧ mode = 4 then Nat.repeat xs32 ((k - 1) * elements r.t + e + 1) (generator s l) else 0

/-- The result at level `k` of a block's tree over lanes l to l + 2^k - 1 (03 R91). -/
def ReduceOp.node (r : ReduceOp) (s : State) (mode : Nat) (on : LaneMask) (row : Row) (e : Nat) : Nat → Nat → Res
  | 0, l => { bits := r.leaf on row l e }
  | k + 1, l => r.join mode (r.gen s mode l (k + 1) e) (r.node s mode on row e k l).bits (r.node s mode on row e k (l + 2 ^ k)).bits

/-- The first two blocks combined, at lane 0 (03 R91). -/
def ReduceOp.pair (r : ReduceOp) (s : State) (mode : Nat) (on : LaneMask) (row : Row) (e : Nat) : Res :=
  r.join mode (r.gen s mode 0 7 e) (r.node s mode on row e 6 0).bits (r.node s mode on row e 6 64).bits

/-- All three blocks combined. -/
def ReduceOp.whole (r : ReduceOp) (s : State) (mode : Nat) (on : LaneMask) (row : Row) (e : Nat) : Res :=
  r.join mode (r.gen s mode 0 8 e) (r.pair s mode on row e).bits (r.node s mode on row e 6 128).bits

/-- Every combination of the tree for element `e`. -/
def ReduceOp.all (r : ReduceOp) (s : State) (mode : Nat) (on : LaneMask) (row : Row) (e : Nat) : List Res :=
  ((List.range 6).flatMap fun k => (List.range (192 / 2 ^ (k + 1))).map fun j => r.node s mode on row e (k + 1) (j * 2 ^ (k + 1)))
    ++ [r.pair s mode on row e, r.whole s mode on row e]

/-- How many combinations of a tree stand at lane `l`. -/
def nodesAt (l : Nat) : Nat :=
  ((List.range 6).filter fun k => l % 2 ^ (k + 1) == 0).length + if l = 0 then 2 else 0

/-- A lane of elements of a type. -/
def packed (t : BitVec 4) (f : Nat → Nat) : BitVec 32 :=
  BitVec.ofNat 32 ((List.range (elements t)).map fun e => f e * 2 ^ (widthOf t * e)).sum

/-- Lane `b` beats lane `a` for VRARG (05 R159). -/
def outranks (t : BitVec 4) (least : Bool) (b a : BitVec 32) : Prop :=
  if floats t then
    fp32.isNan a.toNat = false ∧ (fp32.isNan b.toNat = true
      ∨ if least then fp32.order b.toNat < fp32.order a.toNat else fp32.order a.toNat < fp32.order b.toNat)
  else if least then intOf t b.toNat < intOf t a.toNat else intOf t a.toNat < intOf t b.toNat

/-- The active lanes that VSCAN sums for lane `l`, ascending (05 R160). -/
def scanned (on : LaneMask) (exclusive : Bool) (l : Nat) : List Nat :=
  (List.range (if exclusive then l else l + 1)).filter on.getLsbD

/-- The exact sum of a scan; an empty one is +0. -/
def exactSum (row : Row) : List Nat → Val
  | [] => .num false 0 0 false
  | l :: ls => ls.foldl (fun v k => v.add (fp32.value (lane row k).toNat)) (fp32.value (lane row l).toNat)

end Sys2Proof.Claims

/-- 05 R131, R138, R139, R143 to R146, R154 to R158: an instruction that computes element by element issues with the value
that its rule gives each element of each active lane, the flags and clamped elements of the active ones, and the
generators stepped once a stochastic rounding; the lanes outside its mask hold 0 in what it sends.

The transcendental functions are computed as log entry 8 says. -/
def Obligations.VectorElementResults : Prop :=
  ∀ (i : Instr) (op : ElementOp) (s : State) (on : LaneMask) (mode : Nat), elementOp i = some op → on = s.me.mask op.spec.m →
    VectorReady op.head op.spec mode on s →
    (∀ l e, on.getLsbD l = true → e < 32 / op.width → s.me.stops (op.result s mode l e) = false) →
    ∃ c, exec i s = .next (vectorIssued op.head op.spec on c s) ∧ c.first = none
      ∧ (∀ l e, l < 192 → e < 32 / op.width → element (lane (BitVec.ofNat 6144 c.row) l) op.width e
          = if on.getLsbD l then (op.result s mode l e).bits % 2 ^ op.width else 0)
      ∧ (∀ k, c.flags.getLsbD k = true ↔ ∃ l e, on.getLsbD l = true ∧ e < 32 / op.width ∧ (op.result s mode l e).flags.getLsbD k = true)
      ∧ c.sat = sumOver on (32 / op.width) (fun l e => (op.result s mode l e).sat)
      ∧ ∀ l, c.gens.look (seedOf s.me.seed l) l
          = if on.getLsbD l then Nat.repeat xs32 (op.steps mode (32 / op.width - 1)) (generator s l) else generator s l

/-- 05 R132, R138, R145, R147 to R152, R161 to R168; 09 R269: an instruction that moves or compares whole lanes issues with the
value that its rule gives each active lane (a mask: each active bit), 0 elsewhere, no flag and no generator stepped. VGET sends the
lane's value to its mailbox; VBIND binds its port at once.

05 R159, R160; 03 R91: a reduction issues with the value of the fixed tree in every active lane, each combination in its order
and with its own lane's generator; VRARG with the lowest lane that no other beats; VSCAN with the rounded exact sum of the active
lanes up to each. -/
def Obligations.VectorLaneResults : Prop :=
  (
  (∀ (i : Instr) (op : LaneOp) (s : State) (on : LaneMask) (mode : Nat), laneOp i = some op → on = s.me.mask op.spec.m &&& op.only →
    VectorReady op.head op.spec mode on s →
    ∃ c, exec i s = .next (vectorIssued op.head op.spec on c s) ∧ c.first = none ∧ c.flags = 0 ∧ c.sat = 0 ∧ c.gens = s.me.vgen
      ∧ (∀ n, op.spec.target = .mask n → ∀ l, (BitVec.ofNat 6144 c.row).getLsbD l
          = (on.getLsbD l && (op.value on (operandRows op.spec s) l).getLsbD 0))
      ∧ ((∀ n, op.spec.target ≠ .mask n) → ∀ l, l < 192 → lane (BitVec.ofNat 6144 c.row) l
          = if on.getLsbD l then op.value on (operandRows op.spec s) l else 0))
  ∧ (∀ (h : StripHead) (o : VIForm) (s : State) (p : VectorSpec) (on : LaneMask) (mode : Nat) (v : BitVec 32),
    p = { viA o with target := .mailbox o.d.toNat } → on = s.me.mask p.m &&& BitVec.twoPow 192 (o.imm.toNat % 256) →
    VectorReady h p mode on s → v = lane (nthRow (operandRows p s) 0) (o.imm.toNat % 256) →
    ∃ c, exec (.vget h o) s = .next (vectorIssued h p on c s) ∧ c.flags = 0 ∧ c.sat = 0 ∧ c.gens = s.me.vgen
      ∧ c.row = (if o.t = 0 then v.signExtend 64 else v.setWidth 64 : BitVec 64).toNat)
  ∧ ∀ (h : StripHead) (o : VIForm) (s : State), s.inExchange = false → stripReady h s → 0x38 ≤ o.d.toNat →
    ∃ m, exec (.vbind h o) s = .next (stripIssued h m) ∧ m = s.modMe (fun x => { x with bind := m.me.bind })
      ∧ ∀ k, k < 32 → m.me.bind.getLsbD k
          = if k / 4 = o.d.toNat - 0x38 then o.imm.getLsbD (k % 4) && decide (k % 4 < 3) else s.me.bind.getLsbD k
  ) ∧ (
  (∀ (i : Instr) (r : ReduceOp) (s : State) (on : LaneMask) (mode : Nat) (row : Row), reduceOp i = some r → on = s.me.mask r.spec.m →
    VectorReady r.head r.spec mode on s → row = nthRow (operandRows r.spec s) 0 →
    (∀ e n, e < elements r.t → n ∈ r.all s mode on row e → s.me.stops n = false) →
    ∃ c, exec i s = .next (vectorIssued r.head r.spec on c s) ∧ c.first = none
      ∧ (∀ l, l < 192 → lane (BitVec.ofNat 6144 c.row) l
          = if on.getLsbD l then packed r.t (fun e => (r.whole s mode on row e).bits) else 0)
      ∧ (∀ k, c.flags.getLsbD k = true ↔ ∃ e n, e < elements r.t ∧ n ∈ r.all s mode on row e ∧ n.flags.getLsbD k = true)
      ∧ c.sat = ((List.range (elements r.t)).map fun e => ((r.all s mode on row e).map Res.sat).sum).sum
      ∧ ∀ l, l < 192 → c.gens.look (seedOf s.me.seed l) l
          = if r.rounds = true ∧ mode = 4 then Nat.repeat xs32 (nodesAt l * elements r.t) (generator s l) else generator s l)
  ∧ (∀ (h : StripHead) (o : VRForm) (s : State) (on : LaneMask) (mode b : Nat) (row : Row), on = s.me.mask o.m.toNat →
    VectorReady h (vrA o 12) mode on s → row = nthRow (operandRows (vrA o 12) s) 0 → on.getLsbD b = true →
    (∀ l, on.getLsbD l = true → ¬ outranks o.t (o.f.getLsbD 0) (lane row l) (lane row b)) →
    (∀ l, l < b → on.getLsbD l = true → outranks o.t (o.f.getLsbD 0) (lane row b) (lane row l)) →
    ∃ c, exec (.vrarg h o) s = .next (vectorIssued h (vrA o 12) on c s) ∧ c.flags = 0 ∧ c.sat = 0 ∧ c.gens = s.me.vgen
      ∧ ∀ l, l < 192 → lane (BitVec.ofNat 6144 c.row) l = if on.getLsbD l then BitVec.ofNat 32 b else 0)
  ∧ (∀ (h : StripHead) (o : VRForm) (s : State) (mode : Nat), s.me.mask o.m.toNat = 0 → VectorReady h (vrA o 12) mode 0 s →
    ∃ c, exec (.vrarg h o) s = .next (vectorIssued h (vrA o 12) 0 c s) ∧ c.flags = 0 ∧ c.sat = 0 ∧ c.gens = s.me.vgen)
  ∧ (∀ (h : StripHead) (o : VRForm) (s : State) (p : VectorSpec) (on : LaneMask) (mode : Nat) (row : Row) (r : Nat → Res),
    p = vrA o 12 (highRound o) → floats o.t = true → on = s.me.mask o.m.toNat → VectorReady h p mode on s →
    row = nthRow (operandRows p s) 0 →
    (∀ l, r l = fp32.round mode (if mode = 4 then xs32 (generator s l) else 0) (exactSum row (scanned on (o.f.getLsbD 0) l))) →
    (∀ l, on.getLsbD l = true → s.me.stops (r l) = false) →
    ∃ c, exec (.vscan h o) s = .next (vectorIssued h p on c s) ∧ c.first = none
      ∧ (∀ l, l < 192 → (lane (BitVec.ofNat 6144 c.row) l).toNat = if on.getLsbD l then (r l).bits % 2 ^ 32 else 0)
      ∧ (∀ k, c.flags.getLsbD k = true ↔ ∃ l, on.getLsbD l = true ∧ (r l).flags.getLsbD k = true)
      ∧ c.sat = sumOver on 1 (fun l _ => (r l).sat)
      ∧ ∀ l, c.gens.look (seedOf s.me.seed l) l = if on.getLsbD l ∧ mode = 4 then xs32 (generator s l) else generator s l)
  ∧ ∀ (h : StripHead) (o : VRForm) (s : State) (on : LaneMask) (mode : Nat) (row : Row), floats o.t = false →
    on = s.me.mask o.m.toNat → VectorReady h (vrA o 12) mode on s → row = nthRow (operandRows (vrA o 12) s) 0 →
    ∃ c, exec (.vscan h o) s = .next (vectorIssued h (vrA o 12) on c s) ∧ c.flags = 0 ∧ c.sat = 0 ∧ c.gens = s.me.vgen
      ∧ ∀ l, l < 192 → (lane (BitVec.ofNat 6144 c.row) l).toNat
          = if on.getLsbD l then ((scanned on (o.f.getLsbD 0) l).map fun k => (lane row k).toNat).sum % 2 ^ 32 else 0
  )

/-- 05 R131, R134, R136, R137, R139: a vector instruction, as it issues, changes its entries and tokens, the dead bits of its last
uses, its generators and its strip's position, and sends its result, which lands its latency later (in a mailbox 1 cycle after that)
and holds its register until then; VECTOR_RESULT_LANDS writes the active lanes, the mask, the reserved entry or the mailbox, raises
the flags, and changes nothing else. -/
def Obligations.VectorIssueAndLanding : Prop :=
  (∀ (h : StripHead) (p : VectorSpec) (on : LaneMask) (c : Calc) (s t : State), s.cur.eng = 3 → t = vectorIssued h p on c s →
    t.mem = s.mem ∧ (∀ n, t.me.readS n = s.me.readS n) ∧ t.me.p = s.me.p ∧ t.me.fpend = s.me.fpend ∧ t.me.fflags = s.me.fflags
    ∧ t.me.v = s.me.v ∧ t.me.m = s.me.m ∧ t.me.vgen = c.gens ∧ t.me.satPending = s.me.satPending
    ∧ (∀ k, k < 56 → t.me.vdead.getLsbD k = (s.me.vdead.getLsbD k || p.sources.contains (.reg k true)))
    ∧ t.strip.pos = s.nextPos ∧ t.strip.next = s.cycle + 1 + h.idle.toNat ∧ t.strip.state = s.strip.state
    ∧ t.strip.mailbox = s.strip.mailbox ∧ (∀ w d, (w, d) ≠ (s.cur.unit, s.bank) → t.ctx w d = s.ctx w d)
    ∧ (∀ n, p.target = .reg n → t.me.vbusy = .vreg n :: s.me.vbusy
      ∧ t.agenda = s.agenda ++ [(s.cycle + p.lat, .vectorResultLands s.cur.unit s.bank (.vreg n) on (BitVec.ofNat 6144 c.row) 0 c.flags c.sat)])
    ∧ (∀ n, p.target = .mask n → t.me.vbusy = .mask n :: s.me.vbusy
      ∧ t.agenda = s.agenda ++ [(s.cycle + p.lat, .vectorResultLands s.cur.unit s.bank (.mask n) on (BitVec.ofNat 6144 c.row) 0 c.flags c.sat)])
    ∧ (∀ q f, p.target = .port q → s.me.bound q = some f → t.me.vbusy = s.me.vbusy
      ∧ (t.fifo s.cur.unit f).entries = ((s.readVectors p.sources).1.fifo s.cur.unit f).entries
          ++ [{ row := 0, ready := s.cycle + p.lat, filled := false }]
      ∧ t.agenda = s.agenda ++ [(s.cycle + p.lat, .vectorResultLands s.cur.unit s.bank (.fifo f) on (BitVec.ofNat 6144 c.row) 0 c.flags c.sat)])
    ∧ ∀ k, p.target = .mailbox k → t.me.vbusy = s.me.vbusy
      ∧ t.agenda = s.agenda ++ [(s.cycle + p.lat + 1,
          .vectorResultLands s.cur.unit s.bank (.mailbox k) on (BitVec.ofNat 6144 c.row) 0 c.flags c.sat)])
  ∧ (∀ (s : State) (u n : Nat) (c : Bool) (on : LaneMask) (v : Row) (bad : BitVec 96) (fl : BitVec 7) (sat : Nat),
    ∃ t, exec (.vectorResultLands u c (.vreg n) on v bad fl sat) s = .next t
      ∧ (∀ l, l < 192 → lane ((t.ctx u c).v.look 0 n) l = if on.getLsbD l then lane v l else lane ((s.ctx u c).v.look 0 n) l)
      ∧ (∀ k, k ≠ n → (t.ctx u c).v.look 0 k = (s.ctx u c).v.look 0 k)
      ∧ (t.ctx u c).vdead = (s.ctx u c).vdead &&& ~~~BitVec.twoPow 56 n ∧ (t.ctx u c).vbusy = (s.ctx u c).vbusy.erase (.vreg n)
      ∧ (t.ctx u c).fpend = (s.ctx u c).fpend ||| fl ∧ (t.ctx u c).satPending = min ((s.ctx u c).satPending + sat) 4294967295
      ∧ (t.ctx u c).m = (s.ctx u c).m ∧ t.mem = s.mem ∧ (∀ k, (t.ctx u c).readS k = (s.ctx u c).readS k)
      ∧ ∀ w d, (w, d) ≠ (u, c) → t.ctx w d = s.ctx w d)
  ∧ (∀ (s : State) (u n : Nat) (c : Bool) (on : LaneMask) (v : Row) (bad : BitVec 96) (fl : BitVec 7) (sat : Nat),
    ∃ t, exec (.vectorResultLands u c (.mask n) on v bad fl sat) s = .next t
      ∧ (t.ctx u c).m.look 0 n = v.setWidth 192 ∧ (∀ k, k ≠ n → (t.ctx u c).m.look 0 k = (s.ctx u c).m.look 0 k)
      ∧ (t.ctx u c).vbusy = (s.ctx u c).vbusy.erase (.mask n) ∧ (t.ctx u c).v = (s.ctx u c).v
      ∧ (t.ctx u c).fpend = (s.ctx u c).fpend ||| fl ∧ t.mem = s.mem ∧ (∀ k, (t.ctx u c).readS k = (s.ctx u c).readS k)
      ∧ ∀ w d, (w, d) ≠ (u, c) → t.ctx w d = s.ctx w d)
  ∧ (∀ (s : State) (u f : Nat) (c : Bool) (on : LaneMask) (v : Row) (bad : BitVec 96) (fl : BitVec 7) (sat : Nat)
      (before after : List FifoEntry) (e : FifoEntry),
    (s.fifo u f).entries = before ++ e :: after → (s.tile u).inject = none → e.filled = false → e.ready = s.cycle →
    (∀ x ∈ before, x.filled = true ∨ x.ready ≠ s.cycle) →
    ∃ t r, exec (.vectorResultLands u c (.fifo f) on v bad fl sat) s = .next t
      ∧ (t.fifo u f).entries = before ++ { e with row := r, bad := bad, filled := true } :: after
      ∧ (∀ l, l < 192 → lane r l = if on.getLsbD l then lane v l else 0) ∧ (∀ g, g ≠ f → t.fifo u g = s.fifo u g)
      ∧ (t.ctx u c).v = (s.ctx u c).v ∧ (t.ctx u c).fpend = (s.ctx u c).fpend ||| fl ∧ t.mem = s.mem
      ∧ ∀ w d, (w, d) ≠ (u, c) → t.ctx w d = s.ctx w d)
  ∧ ∀ (s : State) (u k : Nat) (c : Bool) (on : LaneMask) (v : Row) (bad : BitVec 96) (fl : BitVec 7) (sat : Nat),
    ∃ t, exec (.vectorResultLands u c (.mailbox k) on v bad fl sat) s = .next t
      ∧ (t.ctx u c).vector.mailbox.look 0 k = v.setWidth 64
      ∧ (∀ j, j ≠ k → (t.ctx u c).vector.mailbox.look 0 j = (s.ctx u c).vector.mailbox.look 0 j)
      ∧ (t.ctx u c).v = (s.ctx u c).v ∧ (t.ctx u c).m = (s.ctx u c).m ∧ t.mem = s.mem
      ∧ (∀ j, (t.ctx u c).readS j = (s.ctx u c).readS j) ∧ ∀ w d, (w, d) ≠ (u, c) → t.ctx w d = s.ctx w d

namespace Sys2Proof.Claims

/-! ### Instructions of several micro-steps (02 R55; 06 R184) -/

/-- A micro-step of a strip instruction of `n` may begin: the guard before the first, tokens until they are taken, room for the
pushed tokens at the last (02 R54, R55, R56). -/
def mayStep (h : StripHead) (n : Nat) (s : State) : Prop :=
  s.strip.loose = false ∧ (s.strip.ust = 0 → s.strip.popped = false → s.guardTrue h = true)
  ∧ (s.strip.popped = false → s.lacksToken h = none) ∧ (n ≤ s.strip.ust + 1 → s.lacksRoom h = none)

/-- The same in a compute phase. -/
def manyReady (h : StripHead) (n : Nat) (s : State) : Prop := s.inExchange = false ∧ mayStep h n s

/-- How the acting strip stands after a micro-step: at the next one, or past the instruction after its last. -/
def advances (h : StripHead) (n : Nat) (s t : State) : Prop :=
  (s.strip.ust + 1 < n → t.strip.ust = s.strip.ust + 1 ∧ t.strip.pos = s.strip.pos ∧ t.strip.next = s.cycle + 1
    ∧ t.strip.popped = true)
  ∧ (n ≤ s.strip.ust + 1 → t.strip.ust = 0 ∧ t.strip.pos = s.nextPos ∧ t.strip.next = s.cycle + 1 + h.idle.toNat
    ∧ t.strip.popped = false ∧ t.strip.held = [])

/-- What no instruction of the matrix strip changes: memory, scalar registers, predicates, committed flags, vector registers,
masks, every other context. -/
def keepsRest (s t : State) : Prop :=
  t.mem = s.mem ∧ (∀ n, t.me.readS n = s.me.readS n) ∧ t.me.p = s.me.p ∧ t.me.fflags = s.me.fflags ∧ t.me.v = s.me.v
  ∧ t.me.m = s.me.m ∧ ∀ w d, (w, d) ≠ (s.cur.unit, s.bank) → t.ctx w d = s.ctx w d

/-- The first entries of FIFO `f`, which are checked as one is taken, have no inverted bits (07 R219). -/
def uninjured (s : State) (f : Nat) : Prop := ∀ e ∈ (s.fifo s.cur.unit f).entries.take 2, e.errs = []

/-- Flags and counts that results of the acting strip owe: `ds` join those owed, each in cycle `at_`; the flags of `ds` together are
those that `fl` names (03 R94, 04 R125). -/
def owing (s t : State) (ds : List FlagsDue) (at_ : Nat) (fl : Nat → Prop) : Prop :=
  t.me.flagsDue = s.me.flagsDue ++ ds ∧ (∀ d ∈ ds, d.at_ = at_) ∧ (∀ k, (∃ d ∈ ds, d.fl.getLsbD k = true) ↔ fl k)
  ∧ t.me.fpend = s.me.fpend ∧ t.me.nanPending = s.me.nanPending ∧ t.me.infPending = s.me.infPending
  ∧ t.me.satPending = s.me.satPending

/-- No earlier flags of the context come due in this cycle. -/
def nothingDue (s : State) : Prop := ∀ d ∈ s.me.flagsDue, s.cycle < d.at_

/-- The entry that a micro-step consumes: held since an earlier one, or the next of FIFO `f` (06 R177, R184). -/
def consumes (s : State) (f : Nat) (e : FifoEntry) : Prop :=
  e.bad = 0 ∧ ((∃ es, s.strip.held = e :: es)
    ∨ (s.strip.held = [] ∧ s.entryReady f = true ∧ uninjured s f ∧ ∃ es, (s.fifo s.cur.unit f).entries = e :: es))

/-- The entries of FIFO `f` behind the one consumed. -/
def entriesLeft (s : State) (f : Nat) : List FifoEntry :=
  if s.strip.held = [] then (s.fifo s.cur.unit f).entries.tail else (s.fifo s.cur.unit f).entries

/-- The multiplies: A rows in an entry, sparse, without the accumulator term (06 R182, R183). -/
def multiplyOp : Instr → Option (StripHead × MXForm × Nat × Bool × Bool)
  | .mma h o => some (h, o, 16, false, false)
  | .mmas h o => some (h, o, 8, true, false)
  | .mmaz h o => some (h, o, 16, false, true)
  | _ => none

/-- A[k] of row `place` of an entry of `per` rows; past the row it is zero (06 R182, 03 R90). -/
def aValue (o : MXForm) (per : Nat) (e : FifoEntry) (place k : Nat) : Val :=
  let w := if o.ta = 2 then 16 else 8
  if w * k < 6144 / per then
    (if o.ta = 0 then e4m3 else if o.ta = 1 then e5m2 else bf16).value (bits e.row.toNat (6144 / per * place + w * k) w)
  else .num false 0 0 false

/-- STEP of 03 R90 for element `l` of row `r`, row `i` of the instruction: products of the A row with the column's stored values
at their positions, and the old value but under MMAZ; one rounding by RNE. -/
def multiplied (s : State) (o : MXForm) (per : Nat) (zero : Bool) (e : FifoEntry) (i l : Nat) : Res :=
  let w := s.here.latch o.ws.toNat
  let column := w.column (w.tag.extractLsb' 2 2).toNat o.tb.toNat (o.ta == 2) (o.f.getLsbD 0) l
  let products := column.map fun t => (aValue o per e (i % per) t.1).mul t.2
  fp32.round 0 0 (sumOf (if zero then products
    else products ++ [fp32.value (lane (s.here.acc.look 0 (o.row.toNat + i)) l).toNat]))

/-- The rows of the instruction that its next micro-step computes (06 R184). -/
def rowsNow (o : MXForm) (s : State) : List Nat := [2 * s.strip.ust, 2 * s.strip.ust + 1].filter fun i => decide (i ≤ o.cnt.toNat)

/-- Elements of a row that become NaN, and those that become infinite, from `old` to `new` (03 R90). -/
def becameNan (old new : Nat → Nat) : Nat := ((List.range 192).filter fun l => fp32.isNan (new l) && !fp32.isNan (old l)).length
/-- See `becameNan`. -/
def becameInf (old new : Nat → Nat) : Nat :=
  ((List.range 192).filter fun l => fp32.isInf (new l) && !fp32.isNan (old l) && !fp32.isInf (old l)).length

/-- An element of the accumulators as a multiply begins from it: +0 for MMAZ (06 R183). -/
def accFrom (s : State) (zero : Bool) (r l : Nat) : Nat := if zero then 0 else (lane (s.here.acc.look 0 r) l).toNat

/-- The weight loads: kind, storage code, entries (06 R178 to R181). -/
def loadOp : Instr → Option (StripHead × MXForm × Nat × Nat × Nat)
  | .wld h o => some (h, o, 0, o.f.toNat % 4, if o.f.toNat % 4 = 0 then 12 else if o.f.toNat % 4 = 1 then 6 else 9)
  | .wlds h o => some (h, o, 1, 0, 16)
  | .wldg h o => some (h, o, 2, 0, if o.tb = 3 then 7 else 5)
  | _ => none

/-- The format that ADRN converts into (06 R186). -/
def drainFmt (o : MXForm) : Fmt :=
  match o.cvt.toNat with
  | 1 => bf16
  | 2 => fp16
  | 3 => e4m3
  | _ => e5m2

/-- The rounding mode of ADRN (02 R58). -/
def drainRounding (o : MXForm) (s : State) : Nat :=
  if o.rm = 0 then 0 else if o.rm = 1 then 1 else if o.rm = 2 then 4 else s.me.frm.toNat % 8

/-- A matrix generator (03 R83). -/
def matrixGenerator (s : State) (l : Nat) : BitVec 32 := s.me.mgen.look (seedOf s.me.seed l) l

/-- A drained element (06 R186, 03 R84). -/
def drained (o : MXForm) (s : State) (r l : Nat) : Res :=
  let mode := drainRounding o s
  convert fp32 (drainFmt o) mode (if mode = 4 then xs32 (matrixGenerator s l) else 0) (s.me.mode.getLsbD 1)
    (lane (s.here.acc.look 0 r) l).toNat

/-! ### Scans (06 R190 to R197) -/

/-- RNE32 of an exact value. -/
def nearest (v : Val) : Res := fp32.round 0 0 v
/-- The exact value of an FP32 encoding. -/
def exact (v : Nat) : Val := fp32.value v

/-- EXP(RNE32(v)) of 03 R87. -/
def expNearest (v : Val) : Nat := (Func.exp.apply (nearest v).bits).bits

/-- BF16 of an FP32 encoding. -/
def narrow (v : Nat) : Nat := (convert fp32 bf16 0 0 false v).bits

/-- u of 06 R193, R194 for step `j` + 1, lane `l`. -/
def scanInput (b : Scan) (j l : Nat) : Nat := (nearest ((exact (b.deltaAt (l / 64) j)).mul (exact (b.xAt j l)))).bits

/-- h[n] of lane `l` after step `j` + 1 of the recurrent form (06 R193). -/
def recurrentState (b : Scan) (prev : Tab Row) (j n l : Nat) : Nat :=
  let a := expNearest ((exact (b.deltaAt (l / 64) j)).mul (exact (b.aOf (l / 64))))
  (nearest (((exact a).mul (exact (lane (prev.look 0 n) l).toNat)).add
    ((exact (scanInput b j l)).mul (bf16.value (b.bAt j n))))).bits

/-- y of lane `l` at step `j` + 1 of the recurrent form. -/
def recurrentOut (b : Scan) (prev : Tab Row) (j l : Nat) : Nat :=
  (nearest ((sumOf ((List.range 64).map fun n => (bf16.value (b.cAt j n)).mul (exact (recurrentState b prev j n l)))).add
    ((exact (b.dOf (l / 64))).mul (exact (b.xAt j l))))).bits

/-- s[t] of head `h` (06 R194). -/
def logDecay (b : Scan) (h : Nat) : Nat → Nat
  | 0 => 0
  | t + 1 => (nearest ((exact (logDecay b h t)).add
      (exact (nearest ((exact (b.deltaAt h t)).mul (exact (b.aOf h)))).bits))).bits

/-- The matrix rule over terms, in K-steps of 24, from an accumulator or none (06 R194). -/
def matrixRule (acc : Option Nat) (terms : List Val) : Nat := (matrixSum acc terms).bits

/-- W[t, j] of head `h` (06 R194). -/
def chunkWeight (b : Scan) (h t j : Nat) : Nat :=
  let g := matrixRule none ((List.range 64).map fun n => (bf16.value (b.cAt (t - 1) n)).mul (bf16.value (b.bAt (j - 1) n)))
  narrow (nearest ((exact (expNearest ((exact (logDecay b h t)).sub (exact (logDecay b h j))))).mul (exact g))).bits

/-- y of lane `l` at step `t` of the chunked form; positions j > t are absent (06 R194). -/
def chunkOut (b : Scan) (t l : Nat) : Nat :=
  let h := l / 64
  let et := (Func.exp.apply (logDecay b h t)).bits
  let inter := matrixRule none ((List.range 64).map fun n => (bf16.value (b.cAt (t - 1) n)).mul
    (bf16.value (narrow (nearest ((exact et).mul (exact (lane (b.prev.look 0 n) l).toNat))).bits)))
  let y := matrixRule (some inter) (((List.range t).map fun j =>
      (bf16.value (chunkWeight b h t (j + 1))).mul (bf16.value (narrow (scanInput b j l))))
    ++ List.replicate (b.len - t) (.num false 0 0 false))
  (nearest ((exact y).add ((exact (b.dOf h)).mul (exact (b.xAt (t - 1) l))))).bits

/-- h[n] of lane `l` at the end of a chunked block (06 R194). -/
def chunkEnd (b : Scan) (n l : Nat) : Nat :=
  let h := l / 64
  let el := (Func.exp.apply (logDecay b h b.len)).bits
  let sum := matrixRule none ((List.range b.len).map fun j =>
    (bf16.value (narrow (nearest ((exact (expNearest ((exact (logDecay b h b.len)).sub (exact (logDecay b h (j + 1)))))).mul
      (exact (scanInput b j l)))).bits)).mul (bf16.value (b.bAt j n)))
  (nearest (((exact el).mul (exact (lane (b.prev.look 0 n) l).toNat)).add (exact sum))).bits

/-- The scans and the form that each asks for: 0 chooses by CHMIN (06 R192). -/
def scanOp : Instr → Option (StripHead × MXForm × Nat)
  | .mscan h o => some (h, o, 0)
  | .mscanc h o => some (h, o, 1)
  | .mscanr h o => some (h, o, 2)
  | _ => none

/-- The block of a scan after its micro-step `q`: kept, or the next one, or none after the last. -/
def scanAfter (o : MXForm) (b : Scan) (q : Nat) : Option Scan :=
  if q < b.length then some b else if b.base + b.len < o.cnt.toNat + 1 then some { base := b.base + b.len } else none

/-- The tile's banks that a scan leaves alone. -/
def keepsArrays (s t : State) : Prop :=
  t.here.acc = s.here.acc ∧ t.here.kcount = s.here.kcount ∧ t.here.latch0 = s.here.latch0 ∧ t.here.latch1 = s.here.latch1

end Sys2Proof.Claims

/-- 03 R90; 06 R175, R182 to R184: each micro-step of a multiply computes two rows, exactly summed and rounded once, which enter the
accumulators 10 cycles later; its flags and its counts of NaNs and infinities join the pending ones with them (04 R125); it counts
the K-step, and consumes its entry. -/
def Obligations.MatrixMultiplyResults : Prop :=
  ∀ (i : Instr) (s : State) (h : StripHead) (o : MXForm) (per n : Nat) (sparse zero : Bool) (e : FifoEntry) (w : Nat) (f : Nat),
    multiplyOp i = some (h, o, per, sparse, zero) → n = (o.cnt.toNat + 2) / 2 → w = o.ws.toNat → f = (if o.src = 0 then 0 else 2) →
    s.cur.eng = 2 → manyReady h n s → s.strip.ust < n → s.here.wload.rest = false →
    (s.strip.ust = 0 → tagFits (s.here.latch w).tag o sparse = true) →
    (∀ j ∈ rowsNow o s, o.row.toNat + j ∉ s.here.accBusy ∧ s.sound (windowPA s.cur.unit (0x260000 + 0x300 * (o.row.toNat + j))) 768) →
    s.sound (windowPA s.cur.unit (0x290000 + 0x4000 * w)) 0x2D00 → consumes s f e →
    (s.me.mode.getLsbD 2 = true → ∀ j ∈ rowsNow o s, ∀ l, l < 192 → (multiplied s o per zero e j l).made = false) →
    ∃ (t : State) (image : Nat → Row), exec i s = .next t ∧ advances h n s t ∧ keepsRest s t
      ∧ t.agenda = s.agenda ++ (rowsNow o s).map (fun j => (s.cycle + 10, .accumulatorEntry s.cur.unit (o.row.toNat + j) (image j)))
      ∧ (∀ j ∈ rowsNow o s, ∀ l, l < 192 → (lane (image j) l).toNat = (multiplied s o per zero e j l).bits % 2 ^ 32)
      ∧ (∃ ds, owing s t ds (s.cycle + 10)
            (fun k => ∃ j ∈ rowsNow o s, ∃ l, l < 192 ∧ (multiplied s o per zero e j l).flags.getLsbD k = true)
          ∧ (ds.map (·.nan)).sum = ((rowsNow o s).map fun j =>
            becameNan (accFrom s zero (o.row.toNat + j)) fun l => (multiplied s o per zero e j l).bits).sum
          ∧ (ds.map (·.inf)).sum = ((rowsNow o s).map fun j =>
            becameInf (accFrom s zero (o.row.toNat + j)) fun l => (multiplied s o per zero e j l).bits).sum
          ∧ ∀ d ∈ ds, d.sat = 0)
      ∧ (∀ r, t.here.kcount.look 0 r = if r ∈ (rowsNow o s).map (o.row.toNat + ·)
          then (if zero then 1 else min 65535 (s.here.kcount.look 0 r + 1)) else s.here.kcount.look 0 r)
      ∧ t.here.acc = s.here.acc ∧ t.here.latch0 = s.here.latch0 ∧ t.here.latch1 = s.here.latch1 ∧ t.here.hs = s.here.hs
      ∧ (∀ r, r ∈ t.here.accBusy ↔ r ∈ s.here.accBusy ∨ r ∈ (rowsNow o s).map (o.row.toNat + ·))
      ∧ (t.fifo s.cur.unit f).entries = entriesLeft s f
      ∧ (s.strip.ust + 1 < n → t.strip.held = if (2 * s.strip.ust + 2) % per = 0 then [] else [e])

/-- 06 R174, R176, R181, R185, R188, R189, R199: the matrix instructions of one cycle. A weight load invalidates its slot and starts
its path; ACLR and HCLR clear their rows; MCFG writes its register at once or sends it to a mailbox, MXCNT a count, 2 cycles ahead; reads of
that cycle still see the old value (05 R135).

06 R175, R186, R187, R199; 03 R84: each micro-step of ADRN and HST pushes a row, converted as CVT says, to be popped from the next
cycle on; each of ALDA and HLD takes an entry into its row, ALDA.add by an exact sum rounded once. -/
def Obligations.MatrixRowResults : Prop :=
  (
  (∀ (i : Instr) (s : State) (h : StripHead) (o : MXForm) (kind storage n f : Nat), loadOp i = some (h, o, kind, storage, n) →
    f = (if o.src = 0 then 0 else 2) → s.cur.eng = 2 → s.inExchange = false → stripReady h s → s.here.wload.busy = false →
    s.here.wload.rest = false →
    exec i s = .next (stripIssued h (((s.modHere fun t => { t.modLatch o.ws.toNat (fun l =>
        { l with tag := BitVec.ofNat 64 (o.tb.toNat * 256 + o.ta.toNat * 16 + kind * 4) }) with
      wload := { busy := true, slot := o.ws.toNat, left := n, total := n, fifo := f, kind := kind, tb := o.tb.toNat
                 storage := storage, pos := s.strip.pos } }).cancelLatch s.cur.unit o.ws.toNat).modFifo s.cur.unit f fun q => { q with take := n })))
  ∧ (∀ (h : StripHead) (o : MXForm) (s : State), s.cur.eng = 2 → s.inExchange = false → stripReady h s →
    (∀ j, j ≤ o.cnt.toNat → o.row.toNat + j ∉ s.here.accBusy) →
    ∃ m, exec (.aclr h o) s = .next (stripIssued h m) ∧ keepsRest s m
      ∧ (∀ r, m.here.acc.look 0 r = if o.row.toNat ≤ r ∧ r ≤ o.row.toNat + o.cnt.toNat then 0 else s.here.acc.look 0 r)
      ∧ (∀ r, m.here.kcount.look 0 r = if o.row.toNat ≤ r ∧ r ≤ o.row.toNat + o.cnt.toNat then 0 else s.here.kcount.look 0 r)
      ∧ m.here.hs = s.here.hs ∧ m.me.fpend = s.me.fpend ∧ m.agenda = s.agenda)
  ∧ (∀ (h : StripHead) (o : MXForm) (s : State), s.cur.eng = 2 → s.inExchange = false → stripReady h s →
    ∃ m, exec (.hclr h o) s = .next (stripIssued h m) ∧ keepsRest s m ∧ keepsArrays s m
      ∧ (∀ r, m.here.hs.look 0 r = if o.row.toNat ≤ r ∧ r ≤ o.row.toNat + o.cnt.toNat then 0 else s.here.hs.look 0 r)
      ∧ m.me.fpend = s.me.fpend ∧ m.agenda = s.agenda)
  ∧ (∀ (h : StripHead) (o : MXForm) (s : State) (v : Word), s.cur.eng = 2 → s.inExchange = false → stripReady h s →
    s.sound (windowPA s.cur.unit (0x27C100 + s.bank.toNat * 0x1000 + 8 * (o.f.toNat % 8))) 8 →
    v = s.me.matrix.mailbox.look 0 (o.f.toNat % 8) →
    (∀ k, o.row.toNat < 3 → k = o.row.toNat → v.toNat < 2 ^ 32 → exec (.mcfgWrite h o) s = .next (stripIssued h
      (s.modMe fun x => { x with mcA := x.mcA.put k (v.setWidth 32) })))
    ∧ (∀ k, o.row.toNat = k + 4 → k < 3 → v.toNat < 2 ^ 32 → exec (.mcfgWrite h o) s = .next (stripIssued h
      (s.modMe fun x => { x with mcD := x.mcD.put k (v.setWidth 32) })))
    ∧ (o.row = 8 → v.toNat ≤ 64 → exec (.mcfgWrite h o) s = .next (stripIssued h (s.modMe fun x => { x with chmin := v.setWidth 7 })))
    ∧ ((o.row.toNat < 8 ∧ 2 ^ 32 ≤ v.toNat) ∨ (o.row = 8 ∧ 64 < v.toNat) →
      exec (.mcfgWrite h o) s = .next (s.trapStrip { cause := 0x02, i0 := 7, i1 := s.stripSlot })))
  ∧ (∀ (h : StripHead) (o : MXForm) (s : State) (v : Word), s.cur.eng = 2 → s.inExchange = false → stripReady h s →
    (∀ k, k < 3 → o.row.toNat = k → v = (s.me.mcA.look 0 k).setWidth 64) →
    (∀ k, k < 3 → o.row.toNat = k + 4 → v = (s.me.mcD.look 0 k).setWidth 64) → (o.row = 8 → v = s.me.chmin.setWidth 64) →
    (o.row = 16 → v = BitVec.ofNat 64 (s.strip.ust * 2 ^ 32 + s.strip.pos.toNat)) → (o.row = 17 → v = s.here.wload.word s.cycle) →
    o.row ∈ [0, 1, 2, 4, 5, 6, 8, 16, 17] →
    ∃ m, exec (.mcfgRead h o) s = .next (stripIssued h m)
      ∧ m.agenda = s.agenda ++ [(s.cycle + 3, .pipelinedResultWrite s.cur.unit s.bank (.mailbox 2 (o.f.toNat % 8)) v 0 0)]
      ∧ ({ m with agenda := s.agenda }.modMyStrip fun x => { x with drained := s.strip.drained }) = s.modMyStrip fun x => x)
  ∧ ∀ (h : StripHead) (o : MXForm) (s : State) (v : Nat), s.cur.eng = 2 → s.inExchange = false → stripReady h s → o.f.toNat % 4 < 3 →
    v = (match o.f.toNat % 8 with
      | 0 => s.me.nanPending
      | 1 => s.me.infPending
      | 2 => s.me.satPending
      | 4 => s.me.nanCommitted
      | 5 => s.me.infCommitted
      | _ => s.me.satCommitted) →
    ∃ m, exec (.mxcnt h o) s = .next (stripIssued h m) ∧ keepsRest s m ∧ keepsArrays s m
      ∧ m.agenda = s.agenda
        ++ [(s.cycle + 3, .pipelinedResultWrite s.cur.unit s.bank (.mailbox 2 (o.row.toNat % 8)) (BitVec.ofNat 64 v) 0 0)]
      ∧ m.me.nanPending = s.me.nanPending ∧ m.me.infPending = s.me.infPending ∧ m.me.satPending = s.me.satPending
      ∧ m.me.nanCommitted = (if o.f.toNat = 12 then 0 else s.me.nanCommitted)
      ∧ m.me.infCommitted = (if o.f.toNat = 13 then 0 else s.me.infCommitted)
      ∧ m.me.satCommitted = (if o.f.toNat = 14 then 0 else s.me.satCommitted)
  ) ∧ (
  (∀ (h : StripHead) (o : MXForm) (s : State) (n r f : Nat), n = o.cnt.toNat + 1 → r = o.row.toNat + s.strip.ust →
    f = (if o.dst = 0 then 3 else 4) → s.cur.eng = 2 → manyReady h n s → s.strip.ust < n → drainRounding o s < 5 → r ∉ s.here.accBusy →
    (s.fifo s.cur.unit f).hasRoom s.cycle = true → s.sound (windowPA s.cur.unit (0x260000 + 0x300 * r)) 768 →
    s.here.inject = none → nothingDue s →
    (o.cvt ≠ 0 → ∀ l, l < 192 → s.me.stops (drained o s r l) = false) →
    ∃ t row, exec (.adrn h o) s = .next t ∧ advances h n s t ∧ keepsRest s t
      ∧ (t.fifo s.cur.unit f).entries = (s.fifo s.cur.unit f).entries ++ [{ row := row, ready := s.cycle + 1 }]
      ∧ (o.cvt = 0 → row = s.here.acc.look 0 r ∧ t.me.fpend = s.me.fpend ∧ t.me.mgen = s.me.mgen)
      ∧ (o.cvt ≠ 0 → row.toNat < 2 ^ (192 * (drainFmt o).width)
        ∧ (∀ l, l < 192 → rowElement row.toNat (drainFmt o).width l = (drained o s r l).bits % 2 ^ (drainFmt o).width)
        ∧ (∀ k, t.me.fpend.getLsbD k = true ↔ s.me.fpend.getLsbD k = true ∨ ∃ l, l < 192 ∧ (drained o s r l).flags.getLsbD k = true)
        ∧ t.me.satPending = min (s.me.satPending + ((List.range 192).map fun l => (drained o s r l).sat).sum) 4294967295
        ∧ ∀ l, l < 192 → t.me.mgen.look (seedOf s.me.seed l) l
            = if drainRounding o s = 4 then xs32 (matrixGenerator s l) else matrixGenerator s l)
      ∧ (∀ k, t.here.acc.look 0 k = if k = r ∧ o.f.getLsbD 0 = true then 0 else s.here.acc.look 0 k)
      ∧ (∀ k, t.here.kcount.look 0 k = if k = r ∧ o.f.getLsbD 0 = true then 0 else s.here.kcount.look 0 k)
      ∧ t.here.hs = s.here.hs ∧ t.agenda = s.agenda)
  ∧ (∀ (h : StripHead) (o : MXForm) (s : State) (n r f : Nat) (e : FifoEntry) (v : Nat → Res), n = o.cnt.toNat + 1 →
    r = o.row.toNat + s.strip.ust → f = (if o.src = 0 then 0 else 2) → s.cur.eng = 2 → manyReady h n s → s.strip.ust < n →
    r ∉ s.here.accBusy → consumes s f e → s.sound (windowPA s.cur.unit (0x260000 + 0x300 * r)) 768 → nothingDue s →
    (∀ l, v l = fp32.round 0 0 ((fp32.value (lane (s.here.acc.look 0 r) l).toNat).add (fp32.value (lane e.row l).toNat))) →
    (o.f.getLsbD 0 = true → s.me.mode.getLsbD 2 = true → ∀ l, l < 192 → (v l).made = false) →
    ∃ t, exec (.alda h o) s = .next t ∧ advances h n s t ∧ keepsRest s t
      ∧ (t.fifo s.cur.unit f).entries = entriesLeft s f ∧ t.strip.held = [] ∧ t.agenda = s.agenda
      ∧ (∀ k, k ≠ r → t.here.acc.look 0 k = s.here.acc.look 0 k ∧ t.here.kcount.look 0 k = s.here.kcount.look 0 k)
      ∧ (o.f.getLsbD 0 = false → t.here.acc.look 0 r = e.row ∧ t.here.kcount.look 0 r = 0 ∧ t.me.fpend = s.me.fpend
        ∧ t.me.nanPending = s.me.nanPending ∧ t.me.infPending = s.me.infPending)
      ∧ (o.f.getLsbD 0 = true → t.here.kcount.look 0 r = s.here.kcount.look 0 r
        ∧ (∀ l, l < 192 → (lane (t.here.acc.look 0 r) l).toNat = (v l).bits % 2 ^ 32)
        ∧ (∀ k, t.me.fpend.getLsbD k = true ↔ s.me.fpend.getLsbD k = true ∨ ∃ l, l < 192 ∧ (v l).flags.getLsbD k = true)
        ∧ t.me.nanPending = min (s.me.nanPending + becameNan (accFrom s false r) fun l => (v l).bits) 4294967295
        ∧ t.me.infPending = min (s.me.infPending + becameInf (accFrom s false r) fun l => (v l).bits) 4294967295))
  ∧ (∀ (h : StripHead) (o : MXForm) (s : State) (n r f : Nat) (e : FifoEntry), n = o.cnt.toNat + 1 → r = o.row.toNat + s.strip.ust →
    f = (if o.src = 0 then 0 else 2) → s.cur.eng = 2 → manyReady h n s → s.strip.ust < n → consumes s f e →
    ∃ t, exec (.hld h o) s = .next t ∧ advances h n s t ∧ keepsRest s t ∧ keepsArrays s t
      ∧ (t.fifo s.cur.unit f).entries = entriesLeft s f ∧ t.strip.held = [] ∧ t.agenda = s.agenda ∧ t.me.fpend = s.me.fpend
      ∧ ∀ k, t.here.hs.look 0 k = if k = r then e.row else s.here.hs.look 0 k)
  ∧ ∀ (h : StripHead) (o : MXForm) (s : State) (n r f : Nat), n = o.cnt.toNat + 1 → r = o.row.toNat + s.strip.ust →
    f = (if o.dst = 0 then 3 else 4) → s.cur.eng = 2 → manyReady h n s → s.strip.ust < n →
    (s.fifo s.cur.unit f).hasRoom s.cycle = true → s.sound (windowPA s.cur.unit (0x280000 + 0x300 * r)) 768 →
    s.here.inject = none → ∃ t, exec (.hst h o) s = .next t ∧ advances h n s t ∧ keepsRest s t ∧ keepsArrays s t ∧ t.here.hs = s.here.hs
      ∧ (t.fifo s.cur.unit f).entries = (s.fifo s.cur.unit f).entries ++ [{ row := s.here.hs.look 0 r, ready := s.cycle + 1 }]
      ∧ t.me.fpend = s.me.fpend ∧ t.agenda = s.agenda
  )

/-- 06 R190 to R197: a scan runs its blocks in the form of R192; its micro-steps pop the Δ, B/C and x entries, push each y
and write the state bank where R196 says, with the values of R193 in the recurrent form and of R194 in the chunked
form.

The numbering of scan steps is read as log entry 31 says. -/
def Obligations.ScanResults : Prop :=
  (∀ (i : Instr) (h : StripHead) (o : MXForm) (form : Nat) (s : State) (b : Scan) (q step : Nat),
    scanOp i = some (h, o, form) → b = s.scanBlock form o → q = s.strip.ust + 1 - b.start → b.start ≤ s.strip.ust → q ≤ b.length →
    step = (q - 1) / 64 → s.cur.eng = 2 → manyReady h (s.scanLast form o) s → s.flips = [] → s.poison = [] →
    uninjured s 0 → uninjured s 2 → s.here.inject = none → nothingDue s →
    -- the Δ entry
    (q = 1 → ∀ e es, s.entryReady 2 = true → (s.fifo s.cur.unit 2).entries = e :: es → e.bad = 0 →
      ∃ t, exec i s = .next t ∧ advances h (s.scanLast form o) s t ∧ keepsRest s t ∧ keepsArrays s t ∧ t.here.hs = s.here.hs
        ∧ (t.fifo s.cur.unit 2).entries = es
        ∧ t.here.scan = scanAfter o { b with delta := e.row, prev := if b.chunked then s.here.hs else b.prev } q)
    -- a step's B/C and x entries
    ∧ ((b.chunked = true ∧ 1 < q ∧ q ≤ 1 + b.len) ∨ (b.chunked = false ∧ (q - 1) % 64 = 0 ∧ 0 < step) ∨ (b.chunked = false ∧ q = 2) →
      ∀ c cs e es, s.entryReady 0 = true → s.entryReady 2 = true → (s.fifo s.cur.unit 0).entries = c :: cs →
        (s.fifo s.cur.unit 2).entries = e :: es → c.bad = 0 → e.bad = 0 →
      ∃ t, exec i s = .next t ∧ advances h (s.scanLast form o) s t ∧ keepsRest s t ∧ keepsArrays s t ∧ t.here.hs = s.here.hs
        ∧ (t.fifo s.cur.unit 0).entries = cs ∧ (t.fifo s.cur.unit 2).entries = es
        ∧ t.here.scan = scanAfter o { b with bcs := b.bcs ++ [c.row], xs := b.xs ++ [e.row] } q)
    -- an output
    ∧ (∀ f out, f = (if o.dst = 0 then 3 else 4) → (s.fifo s.cur.unit f).hasRoom s.cycle = true →
      ((b.chunked = true ∧ 84 < q ∧ 1 + b.len < q ∧ (q - 84) % 4 = 0 ∧ out = b.chunked_ ((q - 84) / 4))
        ∨ (b.chunked = false ∧ q % 64 = 0 ∧ 0 < q ∧ out = b.recurrent s.here.hs step)) →
      (s.me.mode.getLsbD 2 = true → out.first = none) →
      ∃ t, exec i s = .next t ∧ advances h (s.scanLast form o) s t ∧ keepsRest s t ∧ keepsArrays s t
        ∧ (t.fifo s.cur.unit f).entries = (s.fifo s.cur.unit f).entries ++ [{ row := rowOfLanes out.y, ready := s.cycle + 1 }]
        ∧ (out.hs = none → t.here.hs = s.here.hs)
        ∧ (∀ ls, out.hs = some ls → ∀ k, k < 64 → t.here.hs.look 0 k = rowOfLanes (ls.map fun l => (l[k]?).getD 0))
        ∧ t.me.fpend = s.me.fpend ||| out.flags ∧ t.me.nanPending = min (s.me.nanPending + out.nan) 4294967295
        ∧ t.me.infPending = min (s.me.infPending + out.inf) 4294967295 ∧ t.here.scan = scanAfter o b q)
    -- every other micro-step
    ∧ ((b.chunked = true ∧ 1 + b.len < q ∧ (q ≤ 84 ∨ (q - 84) % 4 ≠ 0)) ∨ (b.chunked = false ∧ q % 64 ≠ 0 ∧ q ≠ 2 ∧ (q - 1) % 64 ≠ 0) →
      ∃ t, exec i s = .next t ∧ advances h (s.scanLast form o) s t ∧ keepsRest s t ∧ keepsArrays s t ∧ t.here.hs = s.here.hs
        ∧ t.here.fifos = s.here.fifos ∧ t.here.scan = scanAfter o b q))
  -- the blocks and their forms
  ∧ (∀ (s : State) (o : MXForm) (form : Nat) (b : Scan), s.here.scan = none → b = s.scanBlock form o →
    b.base = 0 ∧ b.len = min 64 (o.cnt.toNat + 1) ∧ b.a = s.me.mcA ∧ b.d = s.me.mcD
    ∧ (form = 0 → (b.chunked = true ↔ b.len = 64 ∨ s.me.chmin.toNat ≤ b.len)) ∧ (form = 1 → b.chunked = true)
    ∧ (form = 2 → b.chunked = false) ∧ b.length = if b.chunked then 84 + 4 * b.len else 64 * b.len)
  -- the recurrent form's values
  ∧ (∀ (b : Scan) (prev : Tab Row) (j l : Nat), l < 192 →
    ((b.recurrent prev j).y[l]?) = some (recurrentOut b prev j l)
    ∧ ∃ ls, (b.recurrent prev j).hs = some ls
      ∧ ∀ n, n < 64 → ((ls[l]?).getD [])[n]? = some (recurrentState b prev j n l))
  -- the chunked form's values
  ∧ ∀ (b : Scan) (t l : Nat), l < 192 → 1 ≤ t → t ≤ b.len →
    ((b.chunked_ t).y[l]?) = some (chunkOut b t l)
    ∧ (t < b.len → (b.chunked_ t).hs = none)
    ∧ (t = b.len → ∃ ls, (b.chunked_ t).hs = some ls ∧ ∀ n, n < 64 → ((ls[l]?).getD [])[n]? = some (chunkEnd b n l))

namespace Sys2Proof.Claims

/-! ### Feeds of the data FIFOs (09 R275 to R277) -/

/-- What no instruction of the access and writeback strips changes: scalar registers, predicates, committed flags, vector
registers, masks, accumulators, the state bank, every other context. -/
def keepsRegs (s t : State) : Prop :=
  (∀ n, t.me.readS n = s.me.readS n) ∧ t.me.p = s.me.p ∧ t.me.fflags = s.me.fflags ∧ t.me.v = s.me.v ∧ t.me.m = s.me.m
  ∧ t.here.acc = s.here.acc ∧ t.here.hs = s.here.hs ∧ ∀ w d, (w, d) ≠ (s.cur.unit, s.bank) → t.ctx w d = s.ctx w d

/-- Where byte `k` of an entry of pieces comes from: unit and address; none for a zero byte. -/
def sourceOfByte (ps : List Piece) (k : Nat) : Option (Nat × Nat) :=
  ((ps.flatMap fun p => match p with
    | .bytes u a n => (List.range n).map fun i => some (u, a + i)
    | .zero n => List.replicate n none
    | .index .. => [])[k]?).getD none

/-- A feed's entry: over the multicast path or not, its pieces, the descriptor that it moves and by how much. -/
structure FeedEntry where
  cast : Bool
  ps : List Piece
  moves : Option (Nat × Nat)

/-- Descriptor `k` may be used: ready, valid, its words without error (09 R273). -/
def descReady (s : State) (k : Nat) : Prop :=
  s.me.dready.look 0 k ≤ s.cycle ∧ descValid (s.desc k) = true ∧ s.sound (windowPA s.cur.unit (descOffset s.bank k)) 256
  ∧ s.sound (windowPA s.cur.unit (cursorOffset s.bank k)) 8

/-- The entry that a feed's micro-step builds where nothing faults: SRUN from PACK elements, ALD and ALDM from the 768 bytes of its
row, AGATH from the rows that its indices name (09 R275, R276). -/
def feedEntry (i : Instr) (s : State) (e : FeedEntry) : Prop :=
  match i with
  | .srun _ o =>
    let d := s.desc o.ds.toNat
    descReady s o.ds.toNat ∧ descSpace d < 2
    ∧ (∀ p, p < descPack d → s.badFeed (descSpace d == 1) (s.descUnit d) (descAddr d (s.cursor o.ds.toNat + p)) (descElen d) = false)
    ∧ e = { cast := descSpace d == 1, moves := some (o.ds.toNat, descPack d)
            ps := (List.range (descPack d)).map fun p =>
              .bytes (s.descUnit d) (descAddr d (s.cursor o.ds.toNat + p)).toNat (descElen d) }
  | .ald _ o =>
    let a := o.imm.toNat * 64 + 768 * s.strip.ust
    s.badFeed false s.cur.unit a 768 = false ∧ e = { cast := false, ps := [.bytes s.cur.unit a 768], moves := none }
  | .aldm _ o =>
    let a := o.imm.toNat * 64 + 768 * s.strip.ust
    let u := s.cur.unit / 16 * 16 + o.ds.toNat
    s.badFeed true u a 768 = false ∧ e = { cast := true, ps := [.bytes u a 768], moves := none }
  | .agath _ o =>
    let dk := s.desc o.ds.toNat
    let dj := s.desc (o.imm.toNat % 16)
    let at_ := (List.range (descPack dj)).map fun p => descAddr dk (s.cursor o.ds.toNat + p)
    let xs := s.gatherIndices (s.descUnit dk) at_
    descReady s o.ds.toNat ∧ descReady s (o.imm.toNat % 16) ∧ descElen dk = 4 ∧ descSpace dk < 2 ∧ descSpace dj < 2
    ∧ (∀ a ∈ at_, s.badFeed (descSpace dk == 1) (s.descUnit dk) a 4 = false ∧ s.sound (windowPA (s.descUnit dk) a.toNat) 4)
    ∧ (∀ x ∈ xs, x ≠ 0xFFFFFFFF → x < descPeriod dj
        ∧ s.badFeed (descSpace dj == 1) (s.descUnit dj) (descAddr dj x) (descElen dj) = false)
    ∧ e = { cast := descSpace dk == 1 || descSpace dj == 1, moves := some (o.ds.toNat, descPack dj)
            ps := (at_.map fun a => .index (s.descUnit dk) a.toNat 4) ++ xs.map fun x =>
              if x = 0xFFFFFFFF then .zero (descElen dj) else .bytes (s.descUnit dj) (descAddr dj x).toNat (descElen dj) }
  | _ => False

/-- The feeds. -/
def feedForm : Instr → Option (StripHead × AXForm)
  | .srun h o => some (h, o)
  | .ald h o => some (h, o)
  | .aldm h o => some (h, o)
  | .agath h o => some (h, o)
  | _ => none

/-- What the entry holds of its bytes so far. -/
def heldSoFar (s : State) : FifoEntry := if s.strip.spent = 0 then { row := 0 } else (s.strip.held.head?).getD { row := 0 }

/-- Byte `k` of a number. -/
def byteOf (v k : Nat) : Byte := BitVec.ofNat 8 (v / 256 ^ k)

/-! ### Rows into the scratchpad (07 R211, R225 to R227) -/

/-- From `s` to `t` exactly the `n` bytes at window offset `a` of the acting tile have changed, and hold the number `v`. -/
def storesRow (s t : State) (a n v : Nat) : Prop :=
  (Memory.wf s.mem = true → ∀ k, k < n → readByte t.mem (windowPA s.cur.unit a + k) = byteOf v k)
  ∧ ∀ x, x < windowPA s.cur.unit a ∨ windowPA s.cur.unit a + n ≤ x → readByte t.mem x = readByte s.mem x

/-- The entries that a writeback micro-step of `n` entries consumes: held since a trap, or the first of its FIFO. -/
def consumesAll (s : State) (f n : Nat) (es : List FifoEntry) : Prop :=
  es.length = n ∧ (∀ e ∈ es, e.bad = 0)
  ∧ ((s.strip.held = es ∧ n ≠ 0)
    ∨ (s.strip.held = [] ∧ uninjured s f ∧ (s.fifo s.cur.unit f).take = 0 ∧ (s.fifo s.cur.unit f).canPop s.cycle (n - 1) = true
        ∧ (s.fifo s.cur.unit f).entries.take n = es))

/-- The entries of FIFO `f` behind the `n` consumed. -/
def entriesBehind (s : State) (f n : Nat) : List FifoEntry :=
  if s.strip.held = [] then (s.fifo s.cur.unit f).entries.drop n else (s.fifo s.cur.unit f).entries

/-- The sum that WACC writes: into a floating format one rounding by RNE; into INT32 modulo 2^32, a floating element converted first
(07 R227). -/
def accumulated (src dst old new : Nat) : Res :=
  match bankFmt dst, bankFmt src with
  | some (.float f), _ => f.round 0 0 ((elementValue dst old).add (elementValue src new))
  | some (.int _), some (.float g) => { toInteger true 32 0 0 (g.value new) with
      bits := (old + (toInteger true 32 0 0 (g.value new)).bits) % 2 ^ 32 }
  | some (.int _), some (.int k) => { bits := (((old : Int) + signedOf new k) % 2 ^ 32).toNat }
  | _, _ => { bits := old }

/-- A row of 192 results of width `w` as a number. -/
def rowOfResults (w : Nat) (r : Nat → Res) : Nat := ((List.range 192).map fun l => (r l).bits % 2 ^ w * 2 ^ (w * l)).sum

/-- How the flags and clamped elements of a row's results join the pending ones. -/
def raisesRow (s t : State) (r : Nat → Res) : Prop :=
  (∀ k, t.me.fpend.getLsbD k = true ↔ s.me.fpend.getLsbD k = true ∨ ∃ l, l < 192 ∧ (r l).flags.getLsbD k = true)
  ∧ (s.me.satPending < 2 ^ 32 →
    t.me.satPending = min (s.me.satPending + ((List.range 192).map fun l => (r l).sat).sum) 4294967295)

/-- The same of a row whose results are complete in cycle `at_`. -/
def owesRow (s t : State) (at_ : Nat) (r : Nat → Res) : Prop :=
  ∃ ds, owing s t ds at_ (fun k => ∃ l, l < 192 ∧ (r l).flags.getLsbD k = true)
    ∧ (ds.map (·.sat)).sum = ((List.range 192).map fun l => (r l).sat).sum

/-- Element `l` of a row converted from format `src` to `dst`, RAW or equal formats copying (07 R211). -/
def convertedElement (s : State) (src dst v l : Nat) : Res :=
  convertRowElement src dst (s.me.mode.getLsbD 1) (bits v (fmtBits src * l) (fmtBits src))

end Sys2Proof.Claims

/-- 09 R275 to R277; 07 R205: in each of its cycles a feed's micro-step draws one granule from every bank that it needs and puts its
bytes into the entry; the last cycle completes the reserved entry, to be popped 6 cycles later, and moves the cursor by PACK. -/
def Obligations.FeedResults : Prop :=
  ∀ (i : Instr) (s : State) (h : StripHead) (o : AXForm) (e : FeedEntry) (n j u f : Nat) (gs drawn : List (Nat × Nat)),
    feedForm i = some (h, o) → feedEntry i s e → n = o.cnt.toNat + 1 → j = s.strip.spent - 1 → u = s.cur.unit → f = o.port.toNat →
    gs = granulesOf e.ps → drawn = drawnAt gs j → s.cur.eng = 1 → manyReady h n s → s.strip.ust < n →
    (s.strip.spent = 0 → (s.fifo u f).hasRoom s.cycle = true) → s.here.inject = none →
    (s.strip.spent ≠ 0 → (s.fifo u f).entries.getLast?.map FifoEntry.errs = some []) →
    (∀ g ∈ drawn, ((s.tile g.1).granted.contains (g.2 / 1024) = false ∨ e.cast = true ∧ (s.tile g.1).cast.contains g.2 = true)
      ∧ s.sound (windowPA g.1 (64 * g.2)) 64) →
    ∃ t row, exec i s = .next t ∧ t.mem = s.mem ∧ keepsRegs s t ∧ t.me.fpend = s.me.fpend ∧ t.agenda = s.agenda
      ∧ (∀ k, k < 768 → byteOf row.toNat k = byteOf (heldSoFar s).row.toNat k ||| (match sourceOfByte e.ps k with
        | some (w, a) => if (w, a / 64) ∈ drawn then readByte s.mem (windowPA w a) else 0
        | none => 0))
      ∧ (∀ w b, b ∈ (t.tile w).granted → b ∈ (s.tile w).granted ∨ ∃ g ∈ drawn, g.1 = w ∧ g.2 / 1024 = b)
      ∧ (j + 1 < feedCycles gs → t.strip.spent = j + 2 ∧ t.strip.ust = s.strip.ust ∧ t.strip.pos = s.strip.pos
        ∧ t.strip.next = s.cycle + 1 ∧ (t.strip.held.head?).map FifoEntry.row = some row ∧ t.me.dcur = s.me.dcur
        ∧ (t.fifo u f).entries = (s.fifo u f).entries ++ (if s.strip.spent = 0 then [{ row := 0, filled := false }] else []))
      ∧ (feedCycles gs ≤ j + 1 → advances h n s t
        ∧ (t.fifo u f).entries = (if s.strip.spent = 0 then (s.fifo u f).entries else (s.fifo u f).entries.dropLast)
            ++ [{ row := row, bad := (heldSoFar s).bad, ready := s.cycle + 6 }]
        ∧ (∀ k p, e.moves = some (k, p) → t.me.dcur.look 0 k = (s.cursor k + p) % descPeriod (s.desc k)
            ∧ ∀ q, q ≠ k → t.me.dcur.look 0 q = s.me.dcur.look 0 q)
        ∧ (e.moves = none → t.me.dcur = s.me.dcur))

/-- 07 R205, R206, R211, R225 to R227: ACOPY reads its row 64 bytes a cycle and writes it converted in its twelfth; WST
and WACC send a row a micro-step on to its bank, which it enters two cycles on (a row whose buffer still drains,
later); WSCAT writes the elements of a pair, one to each bank a cycle; the cursor counts the row, flags are raised,
and no other byte changes. WDSC loads its descriptor.

The cycle in which a row enters its bank is read as log entry 18 says. -/
def Obligations.RowWriteResults : Prop :=
  (∀ (h : StripHead) (o : AXForm) (s : State) (n k j src dst from_ into len out step row : Nat), n = o.cnt.toNat + 1 → k = o.ds.toNat →
    j = s.strip.spent → descReady s k → descSpace (s.desc k) = 0 → (src : Int) = descAddr (s.desc k) (s.cursor k) →
    from_ = s.here.fmt (bankOf src) → step = (rowLength from_ (s.here.fmt (bankOf (o.imm.toNat * 64))) + 31) / 32 * 32 →
    dst = o.imm.toNat * 64 + s.strip.ust * step → into = s.here.fmt (bankOf dst) →
    len = 24 * fmtBits (if from_ = 0 then into else from_) → out = rowLength from_ into →
    s.cur.eng = 1 → manyReady h n s → s.strip.ust < n → j ≤ 12 → s.cur.unit < 768 → (heldSoFar s).bad = 0 →
    (j = 0 → s.rowTrap src len = none ∧ s.rowTrap dst out = none) →
    (64 * j < len → s.here.granted.contains (bankOf src) = false ∧ s.sound (windowPA s.cur.unit (src + 64 * j)) (min 64 (len - 64 * j))) →
    row = (heldSoFar s).row.toNat ||| (if 64 * j < len
      then readBytes s.mem (windowPA s.cur.unit (src + 64 * j)) (min 64 (len - 64 * j)) * 2 ^ (512 * j) % 2 ^ 6144 else 0) →
    (j < 11 → ∃ t, exec (.acopy h o) s = .next t ∧ t.mem = s.mem ∧ keepsRegs s t ∧ t.strip.spent = j + 1 ∧ t.strip.ust = s.strip.ust
      ∧ t.strip.pos = s.strip.pos ∧ t.strip.next = s.cycle + 1 ∧ t.me.dcur = s.me.dcur
      ∧ (t.strip.held.map fun e => (e.row.toNat, e.bad)) = [(row, 0)])
    ∧ (11 ≤ j → nothingDue s →
      (converts from_ into = true → ∀ l, l < 192 → s.me.stops (convertedElement s from_ into row l) = false) →
      s.here.rowBuf.look 0 (bankOf dst) ≤ 64 → s.here.granted.contains (bankOf dst) = false →
      (64 * j < len → bankOf src ≠ bankOf dst) →
      ∃ t, exec (.acopy h o) s = .next t ∧ advances h n s t ∧ keepsRegs s t
        ∧ storesRow s t dst out (if converts from_ into then rowOfResults (fmtBits into) (convertedElement s from_ into row)
            else row % 2 ^ (8 * out))
        ∧ (converts from_ into = true → raisesRow s t (convertedElement s from_ into row))
        ∧ (converts from_ into = false → t.me.fpend = s.me.fpend) ∧ t.here.rowBuf.look 0 (bankOf dst) = out
        ∧ t.me.dcur.look 0 k = (s.cursor k + 1) % descPeriod (s.desc k) ∧ ∀ q, q ≠ k → t.me.dcur.look 0 q = s.me.dcur.look 0 q))
  ∧ (∀ (i : Instr) (h : StripHead) (o : AXForm) (s : State) (n k src dst a f out : Nat) (e : FifoEntry) (r : Nat → Res),
    n = o.cnt.toNat + 1 → k = o.ds.toNat → src = o.aux.toNat → (a : Int) = s.writeRowAt k → dst = s.here.fmt (bankOf a) →
    out = rowLength src dst → f = (if o.port = 0 then 5 else 4) → s.cur.eng = 4 → manyReady h n s → s.strip.ust < n →
    s.me.wready.look 0 k ≤ s.cycle → consumesAll s f 1 [e] → s.rowTrap a out = none →
    (∀ d ∈ s.here.rowsDue, bankOf d.addr ≠ bankOf a) →
    ((i = .wst h o ∧ s.here.rowBuf.look 0 (bankOf a) ≤ (if s.here.granted.contains (bankOf a) then 128 else 192)
        ∧ r = convertedElement s src dst e.row.toNat)
      ∨ (i = .wacc h o ∧ s.here.granted.contains (bankOf a) = false ∧ s.here.rowBuf.look 0 (bankOf a) ≤ 128 ∧ src ≠ 0 ∧ dst ∈ [1, 2, 3, 9] ∧ s.sound (windowPA s.cur.unit a) out
        ∧ r = fun l => accumulated src dst (bits (readBytes s.mem (windowPA s.cur.unit a) out) (fmtBits dst * l) (fmtBits dst))
            (bits e.row.toNat (fmtBits src * l) (fmtBits src)))) →
    ((i = .wst h o → converts src dst = true) → ∀ l, l < 192 → s.me.stops (r l) = false) →
    ∃ t, exec i s = .next t ∧ advances h n s t ∧ keepsRegs s t ∧ t.strip.held = []
      ∧ t.mem = s.mem ∧ (∃ v, v = (if i = .wst h o ∧ converts src dst = false then e.row.toNat % 2 ^ (8 * out) else rowOfResults (fmtBits dst) r)
        ∧ t.here.rowsDue = s.here.rowsDue ++ [{ at_ := s.cycle + 2, addr := a, len := out, data := v }])
      ∧ ((i = .wst h o → converts src dst = true) → owesRow s t (s.cycle + 2) r)
      ∧ (i = .wst h o → converts src dst = false → t.me.fpend = s.me.fpend ∧ t.me.flagsDue = s.me.flagsDue)
      ∧ t.me.wcur.look 0 k = s.me.wcur.look 0 k + 1 ∧ (∀ q, q ≠ k → t.me.wcur.look 0 q = s.me.wcur.look 0 q)
      ∧ (t.fifo s.cur.unit f).entries = entriesBehind s f 1)
  ∧ (∀ (s : State) (u : Nat) (r : RowDue), r.bad = 0 → u < 768 →
    (r.at_ ≤ s.cycle → (s.tile u).bufferFree (bankOf r.addr) = true → ∃ t, s.landRow u r = t
      ∧ (Memory.wf s.mem = true → ∀ k, k < r.len → readByte t.mem (windowPA u r.addr + k) = byteOf r.data k)
      ∧ (∀ x, x < windowPA u r.addr ∨ windowPA u r.addr + r.len ≤ x → readByte t.mem x = readByte s.mem x)
      ∧ (t.tile u).rowsDue = (s.tile u).rowsDue.erase r ∧ (t.tile u).rowBuf.look 0 (bankOf r.addr) = r.len
      ∧ (t.tile u).granted.contains (bankOf r.addr) = true)
    ∧ (s.cycle < r.at_ ∨ (s.tile u).bufferFree (bankOf r.addr) = false → s.landRow u r = s))
  ∧ (∀ (h : StripHead) (o : AXForm) (s : State) (n k src dst a f w j v : Nat) (ix data : FifoEntry) (ps now : List (Nat × Nat)),
    n = o.cnt.toNat + 1 → k = o.ds.toNat → src = o.aux.toNat → (a : Int) = s.writeRowAt k → dst = s.here.fmt (bankOf a) →
    f = (if o.port = 0 then 5 else 4) → w = fmtBits (if dst = 0 then src else dst) / 8 → w ∈ [1, 2, 4] → a < 0x180000 → a % 32 = 0 →
    j = s.strip.spent → s.cur.eng = 4 → manyReady h n s → s.strip.ust < n → consumesAll s f 2 [ix, data] →
    s.cur.unit < 768 → s.me.wready.look 0 k ≤ s.cycle → ps = scatterPlaces a w ix.row →
    (∀ p ∈ ps, s.stripMay p.2 w = true ∧ s.sound (windowPA s.cur.unit p.2) w) →
    now = ((scatterRanks ps).filter fun e => e.1 == j).map (·.2) → (∀ p ∈ now, s.here.granted.contains (bankOf p.2) = false) →
    (converts src dst = true → ∀ l, l < 192 → s.me.stops (convertedElement s src dst data.row.toNat l) = false) →
    v = (if converts src dst then rowOfResults (fmtBits dst) (convertedElement s src dst data.row.toNat)
      else data.row.toNat % 2 ^ (8 * rowLength src dst)) →
    ∃ t, exec (.wscat h o) s = .next t ∧ keepsRegs s t
      ∧ (Memory.wf s.mem = true → ∀ p ∈ now, ∀ b, b < w → readByte t.mem (windowPA s.cur.unit p.2 + b) = byteOf (bits v (8 * w * p.1) (8 * w)) b)
      ∧ (∀ x, (∀ p ∈ now, x < windowPA s.cur.unit p.2 ∨ windowPA s.cur.unit p.2 + w ≤ x) → readByte t.mem x = readByte s.mem x)
      ∧ (t.fifo s.cur.unit f).entries = entriesBehind s f 2
      ∧ (j + 1 < scatterCycles (scatterRanks ps) → t.strip.spent = j + 1 ∧ t.strip.held = [ix, data] ∧ t.strip.ust = s.strip.ust
        ∧ t.strip.pos = s.strip.pos ∧ t.strip.next = s.cycle + 1 ∧ t.me.fpend = s.me.fpend ∧ t.me.wcur = s.me.wcur)
      ∧ (scatterCycles (scatterRanks ps) ≤ j + 1 → advances h n s t ∧ t.strip.held = []
        ∧ (converts src dst = true → owesRow s t (s.cycle + 2) (convertedElement s src dst data.row.toNat))
        ∧ (converts src dst = false → t.me.fpend = s.me.fpend ∧ t.me.flagsDue = s.me.flagsDue)
        ∧ t.me.wcur.look 0 k = s.me.wcur.look 0 k + 1))
  ∧ ∀ (h : StripHead) (o : AXForm) (s : State) (k a : Nat) (d : BitVec 256), k = o.ds.toNat → a = o.imm.toNat * 32 → s.cur.eng = 4 →
    s.inExchange = false → stripReady h s → s.me.wready.look 0 k ≤ s.cycle → s.stripMay a 32 = true →
    s.here.granted.contains (bankOf a) = false → s.sound (windowPA s.cur.unit a) 32 →
    d = BitVec.ofNat 256 (readBytes s.mem (windowPA s.cur.unit a) 32) →
    (wdescLegal d = true → exec (.wdsc h o) s = .next (stripIssued h
      (((((s.modHere fun t => { t with granted := bankOf a :: t.granted }).cleanSpan s.cur.unit (wdescOffset s.bank k) 32).cleanSpan
        s.cur.unit (wcursorOffset s.bank k) 8).modMe fun x => { x with
        wdesc := x.wdesc.put k d, wcur := x.wcur.put k 0, wready := x.wready.put k (s.cycle + 4) }).drainsAt (s.cycle + 4))))
    ∧ (wdescLegal d = false → ∃ t, exec (.wdsc h o) s = .next t ∧ t.me.wdesc = s.me.wdesc ∧ t.me.wcur = s.me.wcur ∧ t.strip.state = 5)

/-- 09 R272 to R274, R278 to R280; 12 R354, R355: SDESC loads its descriptor, SSKIP moves a cursor, the stream instructions take the
lowest free queue entry with their copy of the descriptor and cursor and move the cursor on, TPREF and TPROBE start their walks.

09 R286 to R288, 13 R384: SIDLE passes its cycles; SEND makes the strip DONE when all it has issued is complete, its row buffers
empty and its transfers sent; SMARK records a mark; SFLG reads the flags raised before its cycle, or changes them at its end. -/
def Obligations.StreamAndCommonResults : Prop :=
  (
  (∀ (h : StripHead) (o : AXForm) (s : State) (k a : Nat) (d : BitVec 2048), k = o.ds.toNat → a = o.imm.toNat * 64 → s.cur.eng = 1 →
    s.inExchange = false → stripReady h s → s.me.dready.look 0 k ≤ s.cycle →
    (a % 256 ≠ 0 → exec (.sdesc h o) s = .next (s.trapStrip { cause := 0x07, i0 := BitVec.ofNat 64 a }))
    ∧ (a % 256 = 0 → s.stripMay a 256 = false → exec (.sdesc h o) s = .next (s.trapStrip { cause := 0x08, i0 := BitVec.ofNat 64 a }))
    ∧ (a % 256 = 0 → s.stripMay a 256 = true → s.here.granted.contains (bankOf a) = false → s.sound (windowPA s.cur.unit a) 256 →
      d = BitVec.ofNat 2048 (readBytes s.mem (windowPA s.cur.unit a) 256) →
      (descLegal d = true → exec (.sdesc h o) s = .next (stripIssued h
        (((((s.modHere fun t => { t with granted := bankOf a :: t.granted }).cleanSpan s.cur.unit (descOffset s.bank k) 256).cleanSpan
          s.cur.unit (cursorOffset s.bank k) 8).modMe fun x => { x with
          desc := x.desc.put k d, dcur := x.dcur.put k 0, dready := x.dready.put k (s.cycle + 4) }).drainsAt (s.cycle + 4))))
      ∧ (descLegal d = false → ∃ t, exec (.sdesc h o) s = .next t ∧ t.me.desc = s.me.desc ∧ t.me.dcur = s.me.dcur
        ∧ t.strip.state = 5)))
  ∧ (∀ (h : StripHead) (o : AXForm) (s : State) (k n : Nat), k = o.ds.toNat → n = o.imm.toNat * 2048 + o.cnt.toNat → s.inExchange = false →
    stripReady h s → descReady s k →
    exec (.sskip h o) s = .next (stripIssued h (s.modMe fun x => { x with
      dcur := x.dcur.put k (if o.aux.getLsbD 0 then n % descPeriod (s.desc k) else (s.cursor k + n) % descPeriod (s.desc k)) })))
  ∧ (∀ (i : Instr) (h : StripHead) (o : AXForm) (s : State) (k e kind n : Nat), k = o.ds.toNat → n = o.cnt.toNat + 1 → s.cur.eng = 1 →
    s.inExchange = false → stripReady h s → s.me.freeStream = some e →
    ((i = .bgin h o ∧ kind = 0 ∧ descReady s k ∧ descSpace (s.desc k) = 2
        ∧ s.streamBanks (o.imm.toNat * 64) (n * descElen (s.desc k)) (· == 3) = true)
      ∨ (i = .bgout h o ∧ kind = 1 ∧ descReady s k ∧ descSpace (s.desc k) = 2
        ∧ s.streamBanks (o.imm.toNat * 64) (n * descElen (s.desc k)) stripRole = true)
      ∨ (i = .bgfill h o ∧ kind = 2 ∧ s.streamBanks (o.imm.toNat * 64) (n * 768) (· == 3) = true
        ∧ s.sound (windowPA s.cur.unit (accessMailbox s.bank (k % 8))) 8)
      ∨ (i = .bgcode h o ∧ kind = 3 ∧ descReady s k ∧ descSpace (s.desc k) = 2 ∧ descElen (s.desc k) = 64)
      ∨ (i = .tpref h o ∧ kind = 4 ∧ descReady s k ∧ descSpace (s.desc k) = 2)) →
    ∃ m q, exec i s = .next (stripIssued h m) ∧ m.mem = s.mem ∧ keepsRegs s m
      ∧ m.me.streams.find e = some q ∧ (∀ j, j ≠ e → m.me.streams.find j = s.me.streams.find j)
      ∧ q.kind = kind ∧ q.state = 0 ∧ q.aux = o.aux.toNat ∧ q.ds = k ∧ q.cnt = o.cnt.toNat ∧ q.done = 0 ∧ q.sent = 0 ∧ q.op = s.here.nextOp + 1
      ∧ (kind ≠ 2 → q.start = s.cursor k ∧ q.desc = s.desc k) ∧ (kind ≠ 4 → q.imm = o.imm.toNat)
      ∧ (kind = 2 → q.value = s.me.access.mailbox.look 0 (k % 8))
      ∧ (∀ j, m.me.dcur.look 0 j = if j = k ∧ kind ≠ 2 ∧ kind ≠ 4 then (s.cursor k + n) % descPeriod (s.desc k) else s.me.dcur.look 0 j)
      ∧ (∃ p, m.me.ops = s.me.ops ++ [p] ∧ p.id = s.here.nextOp + 1 ∧ p.left = 1 ∧ p.stream = true
          ∧ p.sig = if o.aux.getLsbD 3 then some (o.aux.toNat % 4) else none)
      ∧ m.agenda = s.agenda ++ (if kind = 4 then
          [(s.cycle + Config.walkLatency s.fresh, .pageWalkComplete s.cur.unit s.bank (.prefetch e))] else []))
  ∧ ∀ (h : StripHead) (o : AXForm) (s : State) (k va : Nat), k = o.ds.toNat → s.cur.eng = 1 → s.inExchange = false → stripReady h s →
    descReady s k → descSpace (s.desc k) = 2 → (va : Int) = descAddr (s.desc k) (s.cursor k) → va < 2 ^ 51 →
    ∃ m, exec (.tprobe h o) s = .next (stripIssued h m) ∧ m.mem = s.mem ∧ keepsRegs s m ∧ m.me.dcur = s.me.dcur
      ∧ (∀ j, j < 16 → m.me.streams.find j = s.me.streams.find j)
      ∧ m.agenda = s.agenda ++ [(s.cycle + Config.walkLatency s.fresh,
          .pageWalkComplete s.cur.unit s.bank (.query (o.aux.toNat % 8) va (o.imm.toNat % 4)))]
  ) ∧ (
  (∀ (h : StripHead) (o : CMForm) (s : State) (n : Nat), n = o.imm.toNat % 65536 → 1 ≤ s.cur.eng → s.cur.eng ≤ 4 → mayStep h n s →
    ∃ t, exec (.sidle h o) s = .next t ∧ advances h n s t ∧ keepsRest s t ∧ t.agenda = s.agenda ∧ t.here.fifos = s.here.fifos
      ∧ t.me.fpend = s.me.fpend)
  ∧ (∀ (h : StripHead) (o : CMForm) (s : State), 1 ≤ s.cur.eng → s.cur.eng ≤ 4 → stripReady h s →
    (s.strip.drained ≤ s.cycle → (s.cur.eng = 2 → s.here.wload.busy = false ∧ s.here.wload.rest = false
        ∧ s.latchPending s.cur.unit 0 = false ∧ s.latchPending s.cur.unit 1 = false) →
      (s.cur.eng = 1 ∨ s.cur.eng = 4 →
        ∀ e ∈ s.here.rowBuf, e.2 = 0 ∨ s.here.rowFrom.look 4 e.1 ≠ s.cur.eng ∨ s.here.bankOwner e.1 ≠ s.bank) →
      (s.cur.eng = 4 → ∀ r ∈ s.here.rowsDue, s.here.bankOwner (bankOf r.addr) ≠ s.bank) →
      (s.cur.eng = 1 → ∀ p ∈ s.me.ops, p.stream = true ∨ p.left ≤ s.mergedParts s.cur.unit s.bank p.id) →
      exec (.send h o) s = .next (stripIssued h (s.modMyStrip fun t => { t with state := 4 })))
    ∧ (s.cycle < s.strip.drained → (s.me.frozen = true ∨ s.strip.stall + 1 ≠ s.stallLimit s.cur.unit s.bank) →
      exec (.send h o) s = .next (s.modMyStrip fun p => { p with
        wait := 6, waitFifo := 0, stall := if s.me.frozen then p.stall else p.stall + 1 })))
  ∧ (∀ (h : StripHead) (o : CMForm) (s : State), 1 ≤ s.cur.eng → s.cur.eng ≤ 4 → stripReady h s →
    exec (.smark h o) s = .next (stripIssued h (if s.here.trace.ctl.getLsbD 4
      then s.modHere fun t => { t with trace := { t.trace with pend := t.trace.pend ++ [(s.cur.eng,
        BitVec.ofNat 64 (4 * 2 ^ 60 + s.cur.eng * 2 ^ 57 + s.bank.toNat * 2 ^ 56 + s.cycle % 2 ^ 48),
        BitVec.ofNat 64 (s.strip.pos.toNat * 2 ^ 24 + o.imm.toNat))] } }
      else s)))
  ∧ (∀ (h : StripHead) (o : CMForm) (s : State), 1 ≤ s.cur.eng → s.cur.eng ≤ 4 → stripReady h s → s.strip.drained ≤ s.cycle →
    exec (.sflgOr h o) s = .next (stripIssued h (s.modMe fun x => { x with flagsOr := x.flagsOr ||| o.imm.setWidth 7 }))
    ∧ exec (.sflgClr h o) s = .next (stripIssued h (s.modMe fun x => { x with flagsClear := x.flagsClear ||| o.imm.setWidth 7 }))
    ∧ exec (.sflgGet h o) s = .next (stripIssued h (((s.schedule (s.cycle + 2) (.pipelinedResultWrite s.cur.unit s.bank
        (.mailbox s.cur.eng (o.imm.toNat % 8)) (s.me.flagsSeen.setWidth 64) 0 0)).drainsAt (s.cycle + 1)))))
  ∧ ∀ x : Ctx, x.settleFlags = { x with fpend := (x.fpend &&& ~~~x.flagsClear) ||| x.flagsOr, flagsClear := 0, flagsOr := 0, flagsCommit := 0 }
  )

namespace Sys2Proof.Claims

/-! ### X-class transfers (10 R293, R300, R301, R306 to R310, R321) -/

/-- The transfers that read a route record. -/
def transferForm : Instr → Option (StripHead × AXForm)
  | .xput h o => some (h, o)
  | .xsend h o => some (h, o)
  | .xget h o => some (h, o)
  | .xcir h o => some (h, o)
  | .xcomb h o => some (h, o)
  | .xscat h o => some (h, o)
  | .xgath8 h o => some (h, o)
  | .xdisp h o => some (h, o)
  | .xred h o => some (h, o)
  | _ => none

/-- The record bits that a transfer names; all others are zero (10 R300, R301). -/
def namesBit (i : Instr) (k : Nat) : Bool :=
  let device := k < 10
  let tile := 16 ≤ k && k < 26
  let label := 32 ≤ k && k < 48
  let slot := 48 ≤ k && k < 52
  let second := 52 ≤ k && k < 56
  let handle := 56 ≤ k && k < 60
  let offset := 64 ≤ k && k < 92
  let va := k < 51
  let place := 96 ≤ k && k < 117
  match i with
  | .xput .. | .xsend .. | .xget .. => device || tile || label || slot || offset
  | .xscat .. => device || tile || label || slot || offset || second
  | .xcir .. => label || handle || 96 ≤ k
  | .xcomb .. => label || second
  | .xdisp .. => label || second || place
  | .xgath8 .. => va || place
  | .xred .. => va || (64 ≤ k && k < 80)
  | _ => false

/-- Micro-steps of a transfer with record `r`: one for an XCIR on a READY handle, else one for each element. -/
def stepsOf (i : Instr) (o : AXForm) (r : Nat) (s : State) : Nat :=
  match i with
  | .xcir .. => if (s.handle s.cur.unit s.bank (bits r 56 4)).state = 2 ∧ s.strip.ust = 0 then 1 else o.cnt.toNat + 1
  | _ => o.cnt.toNat + 1

/-- A transfer begins: its operation is numbered, its record and the cursors that it starts from are kept. -/
def begun (o : AXForm) (r : Nat) (s : State) : State :=
  ((s.modHere fun t => { t with nextOp := s.here.nextOp + 1 }).modMe fun x => { x with
    ops := x.ops ++ [{ id := s.here.nextOp + 1, left := 0, sig := if o.aux.getLsbD 3 then some (o.aux.toNat % 4) else none
                       closed := false, ord := o.aux.getLsbD 2 }] }).modMyStrip fun t => { t with
    op := some (s.here.nextOp + 1), record := BitVec.ofNat 128 r, start := s.cursor o.ds.toNat, start2 := s.cursor (bits r 52 4) }

/-- A transfer with record `r` and operation `id` stands at one of its `n` micro-steps, which may begin. -/
def inTransfer (h : StripHead) (r id n : Nat) (s : State) : Prop :=
  s.cur.eng = 1 ∧ s.inExchange = true ∧ mayStep h n s ∧ s.strip.ust < n ∧ s.strip.op = some id ∧ s.strip.record.toNat = r

/-- The micro-step of an element has taken `k` cycles: the next element, or the end of the transfer. -/
def passes (h : StripHead) (n k : Nat) (s t : State) : Prop :=
  (s.strip.ust + 1 < n → t.strip.ust = s.strip.ust + 1 ∧ t.strip.pos = s.strip.pos ∧ t.strip.next = s.cycle + k ∧ t.strip.op = s.strip.op
    ∧ t.strip.record = s.strip.record ∧ t.strip.start = s.strip.start ∧ t.strip.start2 = s.strip.start2)
  ∧ (n ≤ s.strip.ust + 1 → t.strip.ust = 0 ∧ t.strip.pos = s.nextPos ∧ t.strip.next = s.cycle + k + h.idle.toNat ∧ t.strip.op = none)

/-- Cycles until the flits sent have entered the injection port, at least one. -/
def portTime (s t : State) : Nat := if t.here.portFree = s.here.portFree then 1 else max 1 (t.here.portFree - s.cycle)

/-- The operations of the context when operation `id` has `n` more parts; with the last micro-step it issues, behind those issued
before (13 R374). -/
def opsAfter (s : State) (id n : Nat) (last : Bool) : List Op :=
  let os := s.me.ops.map fun q => if q.id = id then { q with left := q.left + n } else q
  if last then (settleOps (os.filter (·.id != id) ++ (os.filter (·.id == id)).map fun q => { q with closed := true }) [] true).1 else os

/-- The packets that `total` bytes of a stream make: 256 B while there are as many; at its end a remainder of whole units or of at
most 240 B, or 192 B and the rest (10 R293). -/
def parcels (total : Nat) (ended : Bool) : List Nat :=
  let r := total % 256
  List.replicate (total / 256) 256
    ++ (if !ended || r = 0 then [] else if r % 64 = 0 ∨ r ≤ 240 then [r] else [192, r - 192])

/-- The packets of lengths `lens` of a stream that the operation sends, each kept until it is acknowledged: consecutive bytes of `v`,
at the units from `off` on, in sequence; `key` gives element and address of a packet's first byte. -/
def packetsOf (s : State) (id ddev dtile label slot off v : Nat) (ended : Bool) (place : Nat → Nat) (key : Nat → Nat × Nat)
    (lens : List Nat) : List Kept :=
  (List.range lens.length).map fun j =>
    let b := (lens.take j).sum
    let n := (lens[j]?).getD 0
    { pkt := { dataPacket (s.header 1 s.cur.unit ddev dtile label) slot (place (off + b / 64)) n (bits v (8 * b) (8 * n)) 0
                 (ended && j + 1 == lens.length) with
               seq := BitVec.ofNat 16 ((s.txOf s.cur.unit ddev dtile label).seq + j) },
      c := s.bank, op := id, elem := (key b).1, addr := (key b).2, sentAt := s.cycle }

/-- READs of a stream of a remote slot, with the requests that await their replies: each of `len` bytes at byte `lo`, landing at
the pieces `dest`; `at_` gives an element's address. -/
def readsOf (s : State) (id ddev dtile label slot off : Nat) (at_ : Nat → Nat) (rs : List (Nat × Nat × Nat × Bool × List (Nat × Nat))) : List (Kept × Asked) :=
  (List.range rs.length).map fun j =>
    let (lo, len, elem, ended, dest) := (rs[j]?).getD (0, 0, 0, false, [])
    let tag := (s.here.nextTag + 1 + j) % 65536
    let va := at_ elem
    ({ pkt := { s.header 3 s.cur.unit ddev dtile label with
                lslot := BitVec.ofNat 4 slot, len := 1, fL := ended,
                seq := BitVec.ofNat 16 ((s.txOf s.cur.unit ddev dtile label).seq + j),
                payload := BitVec.ofNat 2048 ((off + lo / 64) % 2 ^ 28 + len * 2 ^ 32 + tag * 2 ^ 48) },
       c := s.bank, op := 0, elem := elem, addr := va, sentAt := s.cycle },
     { tag := tag, c := s.bank, op := id, elem := elem, va := va, left := (len + 255) / 256, use := .bytes dest })

/-- The packets of `total` bytes from unit `first` on of a target whose units wrap: up to 256 B each, none past the region's end, and all
of the bytes once the stream ends (10 R321). -/
def wraps (wrap first total : Nat) (ended : Bool) (lens : List Nat) : Prop :=
  (∀ l ∈ lens, 0 < l ∧ l ≤ 256) ∧ lens.sum ≤ total ∧ (ended = true → lens.sum = total) ∧ (ended = false → total - lens.sum < 256)
  ∧ ∀ j l, lens[j]? = some l → (first + (lens.take j).sum / 64) % wrap * 64 + l ≤ 64 * wrap

/-- A stream of `n` elements of descriptor `k` to a target: what its next micro-step does with bytes `v` of its element, in packets of
lengths `lens` (10 R293, R300, R301). -/
def streams (s m t : State) (h : StripHead) (k n id ddev dtile label slot off wrap v : Nat) (lens : List Nat) : Prop :=
  let d := s.desc k
  let i := s.strip.ust
  let w := descElen d
  let total := s.strip.carryLen + w
  let ended := decide (n ≤ i + 1)
  let sum := lens.sum
  let all := s.strip.carry.toNat + v * 2 ^ (8 * s.strip.carryLen)
  t.here.kept = s.here.kept ++ packetsOf s id ddev dtile label slot (off + (i * w - s.strip.carryLen) / 64) all ended
      (fun u => if wrap = 0 then u else u % wrap)
      (fun b => let e := (i * w - s.strip.carryLen + b) / w
        (e, (descAddr d (s.strip.start + e) % (2 ^ 64 : Nat)).toNat)) lens
  ∧ passes h n (portTime s t) s t ∧ keepsRegs s t ∧ t.mem = m.mem ∧ t.me.ops = opsAfter s id lens.length ended
  ∧ (i + 1 < n → t.strip.carryLen = total - sum ∧ t.strip.carry = BitVec.ofNat 8192 (all / 2 ^ (8 * sum)))
  ∧ (∀ j, t.me.dcur.look 0 j = if j = k then (s.strip.start + i + 1) % descPeriod d else s.me.dcur.look 0 j)

/-- Whether the stream's packets fit in the retransmit buffer and the stream's window, and none waits for room (10 R294, R296). -/
def fits (s : State) (ddev dtile label n : Nat) : Prop :=
  s.here.waitOut = [] ∧ s.here.kept.length + n ≤ 512
  ∧ (s.here.kept.filter fun q => q.pkt.ddev.toNat == ddev && q.pkt.dtile.toNat == dtile && q.pkt.label.toNat == label).length + n ≤ 4096

/-- No flow of the tile has been promoted to a circuit (10 R316). -/
def onPacketPlane (s : State) : Prop :=
  ∀ k, k < 16 → (s.meter s.cur.unit k).state ≠ 4 ∧ s.here.openRun k = none

/-- An open packet of XGATH8: device, die, and its reads. -/
abbrev OpenReads := Nat × Nat × List (Nat × Nat × Nat)

/-- A read joins the open packet of its device and die: the packets that leave, the packets open (10 R306). -/
def joins (l : List OpenReads) (dev die : Nat) (e : Nat × Nat × Nat) : List OpenReads × List OpenReads :=
  match l.find? fun q => q.1 == dev && q.2.1 == die with
  | some q =>
    if q.2.2.length < 27 then ([], l.map fun w => if w = q then (dev, die, q.2.2 ++ [e]) else w)
    else ([(dev, die, q.2.2 ++ [e])], l.filter (· != q))
  | none => if l.length < 8 then ([], l ++ [(dev, die, [e])]) else (l.take 1, l.drop 1 ++ [(dev, die, [e])])

end Sys2Proof.Claims

/-- 10 R293, R300, R301, R306 to R310, R321; 12 R360, R361: a transfer begins with its record; each micro-step takes an element of
its stream and sends, requests or merges what the table gives it, one more part of the operation for each packet or request;
XLAND writes a landing slot. Packet and request layouts that the spec leaves open are the model's (log entry 9). -/
def Obligations.TransferResults : Prop :=
  -- the start
  (∀ (i : Instr) (h : StripHead) (o : AXForm) (s : State) (a r : Nat), transferForm i = some (h, o) → a = o.imm.toNat * 16 →
    r = readBytes s.mem (windowPA s.cur.unit a) 16 → s.cur.eng = 1 → s.inExchange = true → mayStep h (stepsOf i o r s) s →
    s.strip.op = none → (∀ q ∈ s.me.ops, q.stream = false → q.rel = false → q.closed = true ∧ q.left = 0) →
    s.here.bankOwner (bankOf a) = s.bank → s.here.role (bankOf a) = 0 ∨ s.here.role (bankOf a) = 4 → inSpill s.here.dual a 16 = false →
    s.sound (windowPA s.cur.unit a) 16 →
    ((∀ k, k < 128 → r.testBit k = true → namesBit i k = true) → exec i s = exec i (begun o r s))
    ∧ ((∃ k, k < 128 ∧ r.testBit k = true ∧ namesBit i k = false) →
      exec i s = .next (s.trapStrip { cause := 0x02, i0 := 7, i1 := s.stripSlot })))
  -- XPUT
  ∧ (∀ (h : StripHead) (o : AXForm) (s m : State) (r k n id v : Nat), k = o.ds.toNat → n = o.cnt.toNat + 1 → inTransfer h r id n s →
    descReady s k → descSpace (s.desc k) ≠ 1 → descElen (s.desc k) ≤ 768 → s.sourceElement k s.strip.start s.strip.ust true = .bytes m v 0 → s.strip.carryBad = 0 → s.flips = [] →
    s.here.stepping = none → onPacketPlane s → s.strip.carryLen ≤ s.strip.ust * descElen (s.desc k) → s.strip.carryLen < 256 →
    fits s (bits r 0 10) (bits r 16 10) (bits r 32 16) (parcels (s.strip.carryLen + descElen (s.desc k)) (decide (n ≤ s.strip.ust + 1))).length →
    ∃ t, exec (.xput h o) s = .next t
      ∧ streams s m t h k n id (bits r 0 10) (bits r 16 10) (bits r 32 16) (bits r 48 4) (bits r 64 28) 0 v
        (parcels (s.strip.carryLen + descElen (s.desc k)) (decide (n ≤ s.strip.ust + 1))))
  -- the bytes of an element
  ∧ (∀ (s : State) (k start i : Nat) (own : Bool) (a : Nat), (a : Int) = descAddr (s.desc k) (start + i) →
    (descSpace (s.desc k) = 0 → s.stripMay a (descElen (s.desc k)) = true → s.sound (windowPA s.cur.unit a) (descElen (s.desc k)) →
      s.sourceElement k start i own = .bytes s (readBytes s.mem (windowPA s.cur.unit a) (descElen (s.desc k))) 0)
    ∧ (descSpace (s.desc k) = 2 → a + descElen (s.desc k) ≤ 2 ^ 51 → 1 ≤ descElen (s.desc k) → a % 4096 + descElen (s.desc k) ≤ 4096 →
      ∀ q p, s.translate s.cur.unit s.me.jobId s.strip.ahead .read a = (q, .inr p) → p.pa + 4096 ≤ 2 ^ 40 →
      q.stampConflict p.tracked (q.actor s.cur.unit s.bank).agent (q.actor s.cur.unit s.bank).phase .read p.pa (descElen (s.desc k)) = none →
      q.flips = [] → q.sound p.pa (descElen (s.desc k)) →
      ∃ m, s.sourceElement k start i own = .bytes m (readBytes q.mem p.pa (descElen (s.desc k))) 0 ∧ m.mem = q.mem)
    ∧ (descSpace (s.desc k) = 2 → a + descElen (s.desc k) ≤ 2 ^ 51 → 1 ≤ descElen (s.desc k) → a % 4096 + descElen (s.desc k) ≤ 4096 →
      ∀ q p, s.translate s.cur.unit s.me.jobId s.strip.ahead .read a = (q, .inr p) → own = true → 2 ^ 40 ≤ p.pa →
      s.sourceElement k start i own = .trap q { cause := 0x11, i0 := BitVec.ofNat 64 a, i1 := 6, i3 := BitVec.ofNat 64 i }))
  -- XSEND
  ∧ (∀ (h : StripHead) (o : AXForm) (s : State) (r n id : Nat), n = o.cnt.toNat + 1 → n ≤ 8 → inTransfer h r id n s → s.here.stepping = none →
    (s.strip.ust = 0 → s.sound (windowPA s.cur.unit (accessMailbox s.bank 0)) (8 * n) ∧ fits s (bits r 0 10) (bits r 16 10) (bits r 32 16) 1) →
    ∃ t, exec (.xsend h o) s = .next t ∧ keepsRegs s t ∧ t.mem = s.mem ∧ t.me.dcur = s.me.dcur
      ∧ (s.strip.ust = 0 → passes h n (portTime s t) s t ∧ t.me.ops = opsAfter s id 1 (decide (n ≤ 1))
        ∧ t.here.kept = s.here.kept ++ packetsOf s id (bits r 0 10) (bits r 16 10) (bits r 32 16) (bits r 48 4) (bits r 64 28)
            ((List.range n).map fun j => (s.me.access.mailbox.look 0 j).toNat * 2 ^ (64 * j)).sum true (fun u => u) (fun _ => (0, 0)) [8 * n])
      ∧ (s.strip.ust ≠ 0 → passes h n 1 s t ∧ t.here.kept = s.here.kept ∧ t.me.ops = opsAfter s id 0 (decide (n ≤ s.strip.ust + 1))))
  -- XGET
  ∧ (∀ (h : StripHead) (o : AXForm) (s : State) (r k n id i w total rest : Nat) (rs : List (Nat × Nat × Nat × Bool × List (Nat × Nat))),
    k = o.ds.toNat → n = o.cnt.toNat + 1 → inTransfer h r id n s → descReady s k → descSpace (s.desc k) = 0 → s.here.stepping = none →
    i = s.strip.ust → w = descElen (s.desc k) → s.mayReceive (descAddr (s.desc k) (s.strip.start + i)) w = true →
    total = s.strip.carryLen + w → rest = (if 4096 ≤ total then total - 4096 else total) →
    fits s (bits r 0 10) (bits r 16 10) (bits r 32 16) 2 →
    rs = ((if 4096 ≤ total then [(i * w - s.strip.carryLen, 4096)] else [])
        ++ (if n ≤ i + 1 ∧ rest ≠ 0 then [(i * w - s.strip.carryLen + total - rest, rest)] else [])).map (fun (e : Nat × Nat) =>
          (e.1, e.2, e.1 / w, e.1 + e.2 == n * w, streamPieces (s.desc k) s.strip.start e.1 (e.1 + e.2))) →
    ∃ t, exec (.xget h o) s = .next t ∧ keepsRegs s t ∧ t.mem = s.mem ∧ passes h n 1 s t
      ∧ (t.here.kept = s.here.kept ++ (readsOf s id (bits r 0 10) (bits r 16 10) (bits r 32 16) (bits r 48 4) (bits r 64 28)
          (fun e => (descAddr (s.desc k) (s.strip.start + e)).toNat) rs).map (·.1))
      ∧ (t.here.asked = s.here.asked ++ (readsOf s id (bits r 0 10) (bits r 16 10) (bits r 32 16) (bits r 48 4) (bits r 64 28)
          (fun e => (descAddr (s.desc k) (s.strip.start + e)).toNat) rs).map (·.2))
      ∧ t.me.ops = opsAfter s id rs.length (decide (n ≤ i + 1)) ∧ (i + 1 < n → t.strip.carryLen = rest)
      ∧ ∀ j, t.me.dcur.look 0 j = if j = k then (s.strip.start + i + 1) % descPeriod (s.desc k) else s.me.dcur.look 0 j)
  -- XCOMB
  ∧ (∀ (h : StripHead) (o : AXForm) (s m : State) (r k j n id i v a : Nat), k = o.ds.toNat → j = bits r 52 4 → n = o.cnt.toNat + 1 →
    inTransfer h r id n s → descReady s k → descReady s j → descSpace (s.desc k) ≠ 1 → descElen (s.desc k) = 8 → descSpace (s.desc j) = 0 →
    s.here.stepping = none → i = s.strip.ust → s.flips = [] → s.controlElement k s.strip.start i = .bytes m v 0 →
    (a : Int) = descAddr (s.desc j) (s.strip.start2 + i) →
    (v ≠ 2 ^ 64 - 1 → s.mayReceive a (descElen (s.desc j)) = true ∧ fits s (bits v 0 10) (bits v 10 10) (bits r 32 16) 1) →
    ∃ t, exec (.xcomb h o) s = .next t ∧ keepsRegs s t ∧ t.mem = m.mem ∧ passes h n 1 s t
      ∧ (∀ q, t.me.dcur.look 0 q = if i = 0 ∧ q = j then (s.strip.start2 + n) % descPeriod (s.desc j)
          else if i = 0 ∧ q = k then (s.strip.start + n) % descPeriod (s.desc k) else s.me.dcur.look 0 q)
      ∧ (v = 2 ^ 64 - 1 → t.here.kept = s.here.kept ∧ t.here.asked = s.here.asked ∧ t.me.ops = opsAfter s id 0 (decide (n ≤ i + 1)))
      ∧ (v ≠ 2 ^ 64 - 1 → t.me.ops = opsAfter s id 1 (decide (n ≤ i + 1)) ∧ ∃ (e : Kept × Asked) (ended : Bool) (m0 : State),
        m0 = (if i = 0 then (m.setCursor k (s.strip.start + n)).setCursor j (s.strip.start2 + n) else m)
          ∧ (ended = true ↔ ∀ y, i < y → y < n → ∃ m' w, m0.controlElement k s.strip.start y = .bytes m' w 0
            ∧ (w = 2 ^ 64 - 1 ∨ bits w 0 20 ≠ bits v 0 20))
          ∧ readsOf s id (bits v 0 10) (bits v 10 10) (bits r 32 16) (bits v 48 4) (bits v 20 28) (fun _ => a)
            [(0, (descElen (s.desc j) + 63) / 64 * 64, i, ended, [(a, descElen (s.desc j))])] = [e]
          ∧ t.here.kept = s.here.kept ++ [e.1] ∧ t.here.asked = s.here.asked ++ [e.2]))
  -- XSCAT
  ∧ (∀ (h : StripHead) (o : AXForm) (s m p : State) (r k j n id i x v w : Nat), k = o.ds.toNat → j = bits r 52 4 → n = o.cnt.toNat + 1 →
    inTransfer h r id n s → descReady s k → descReady s j → descSpace (s.desc k) ≠ 1 → descElen (s.desc k) = 4 → descSpace (s.desc j) ≠ 1 →
    s.here.stepping = none → onPacketPlane s → i = s.strip.ust → w = descElen (s.desc j) → w ≤ 1024 →
    s.flips = [] → s.controlElement k s.strip.start i = .bytes m x 0 →
    (x ≠ 0xFFFFFFFF → m.sourceElement j s.strip.start2 i false = .bytes p v 0
      ∧ fits s (bits r 0 10) (bits r 16 10) (bits r 32 16) (parcels w true).length) →
    ∃ t, exec (.xscat h o) s = .next t ∧ keepsRegs s t
      ∧ (∀ q, t.me.dcur.look 0 q = if q = j then (s.strip.start2 + i + 1) % descPeriod (s.desc j)
          else if q = k then (s.strip.start + i + 1) % descPeriod (s.desc k) else s.me.dcur.look 0 q)
      ∧ (x = 0xFFFFFFFF → passes h n 1 s t ∧ t.here.kept = s.here.kept ∧ t.mem = m.mem ∧ t.me.ops = opsAfter s id 0 (decide (n ≤ i + 1)))
      ∧ (x ≠ 0xFFFFFFFF → passes h n (portTime s t) s t ∧ t.mem = p.mem
        ∧ t.me.ops = opsAfter s id (parcels w true).length (decide (n ≤ i + 1)) ∧ ∃ ended : Bool,
          (ended = true ↔ ∀ y, i < y → y < n → ∃ m', p.controlElement k s.strip.start y = .bytes m' 0xFFFFFFFF 0)
          ∧ t.here.kept = s.here.kept ++ packetsOf s id (bits r 0 10) (bits r 16 10) (bits r 32 16) (bits r 48 4)
              (bits r 64 28 + x * ((w + 63) / 64)) v ended (fun u => u)
              (fun _ => (i, (descAddr (s.desc j) (s.strip.start2 + i) % (2 ^ 64 : Nat)).toNat)) (parcels w true)))
  -- XCIR on a READY handle, and on a TORN one
  ∧ (∀ (h : StripHead) (o : AXForm) (s : State) (r k n id e : Nat), k = o.ds.toNat → n = o.cnt.toNat + 1 → e = bits r 56 4 →
    inTransfer h r id 1 s → (s.handle s.cur.unit s.bank e).state = 2 → descReady s k → descSpace (s.desc k) = 0 →
    n * descElen (s.desc k) % 64 = 0 → s.strip.ust = 0 →
    ((∀ j, j < n → s.badLocal (descAddr (s.desc k) (s.strip.start + j)) (descElen (s.desc k)) = false) →
      ∃ t run at_, exec (.xcir h o) s = .next t ∧ keepsRegs s t ∧ t.mem = s.mem ∧ passes h 1 1 s t ∧ t.here.kept = s.here.kept
        ∧ t.here.runs.find s.here.nextRun = some run ∧ run.src = .handle s.bank e ∧ run.op = id ∧ run.label = bits r 32 16
        ∧ run.source = (List.range (n * descElen (s.desc k) / 64)).map (fun b => streamPieces (s.desc k) s.strip.start (64 * b) (64 * b + 64))
        ∧ run.word = some (bits r 96 32) ∧ run.late = decide (bits r 96 32 < s.me.localCycle) ∧ run.sent = 0
        ∧ (.circuitDeparture s.cur.unit s.here.nextRun ∈ t.inbox ∧ at_ = s.cycle ∨ (at_, .circuitDeparture s.cur.unit s.here.nextRun) ∈ t.agenda)
        ∧ s.cycle + (bits r 96 32 - s.me.localCycle) ≤ at_
        ∧ t.me.ops = opsAfter s id 1 true
        ∧ ∀ j, t.me.dcur.look 0 j = if j = k then (s.strip.start + n) % descPeriod (s.desc k) else s.me.dcur.look 0 j)
    ∧ (∀ j, j < n → (∀ q, q < j → s.badLocal (descAddr (s.desc k) (s.strip.start + q)) (descElen (s.desc k)) = false) →
      s.badLocal (descAddr (s.desc k) (s.strip.start + j)) (descElen (s.desc k)) = true →
      ∃ t, exec (.xcir h o) s = .next t ∧ t.strip.state = 5 ∧ t.here.runs = s.here.runs ∧ t.here.kept = s.here.kept))
  ∧ (∀ (h : StripHead) (o : AXForm) (s m : State) (r k n id v : Nat) (q : Handle), k = o.ds.toNat → n = o.cnt.toNat + 1 →
    q = s.handle s.cur.unit s.bank (bits r 56 4) → q.state = 4 → inTransfer h r id n s → descReady s k → descSpace (s.desc k) = 0 →
    n * descElen (s.desc k) % 64 = 0 → descElen (s.desc k) ≤ 768 → s.sourceElement k s.strip.start s.strip.ust false = .bytes m v 0 → s.strip.carryBad = 0 → s.flips = [] →
    s.here.stepping = none → s.strip.carryLen ≤ s.strip.ust * descElen (s.desc k) → s.strip.carryLen < 256 →
    q.ddev < 1024 → q.dtile < 1024 →
    fits s q.ddev q.dtile (bits r 32 16) 16 →
    ∃ t lens, exec (.xcir h o) s = .next t ∧ streams s m t h k n id q.ddev q.dtile (bits r 32 16) q.slot q.runUnit q.wrap v lens
      ∧ (q.wrap = 0 → lens = parcels (s.strip.carryLen + descElen (s.desc k)) (decide (n ≤ s.strip.ust + 1)))
      ∧ (q.wrap ≠ 0 → wraps q.wrap (q.runUnit + (s.strip.ust * descElen (s.desc k) - s.strip.carryLen) / 64)
          (s.strip.carryLen + descElen (s.desc k)) (decide (n ≤ s.strip.ust + 1)) lens)
      ∧ (t.me.handles.look {} (bits r 56 4)).runUnit = if s.strip.ust + 1 < n then q.runUnit
          else if q.wrap = 0 then q.runUnit + n * descElen (s.desc k) / 64 else (q.runUnit + n * descElen (s.desc k) / 64) % q.wrap)
  -- XGATH8
  ∧ (∀ (h : StripHead) (o : AXForm) (s m q : State) (r k n id i x dev : Nat) (p : Place) (e : Nat × Nat × Nat) (leave : List OpenReads),
    k = o.ds.toNat → n = o.cnt.toNat + 1 → inTransfer h r id n s → descReady s k → descSpace (s.desc k) ≠ 1 →
    descElen (s.desc k) = 4 ∨ descElen (s.desc k) = 8 → bits r 96 32 % 64 = 0 → i = s.strip.ust → s.here.stepping = none →
    s.mayReceive (bits r 96 32 + 8 * i : Nat) 8 = true → s.readsOut < 1024 → s.flips = [] → s.controlElement k s.strip.start i = .bytes m x 0 →
    bits r 0 51 + 8 * x < 2 ^ 51 →
    m.translate s.cur.unit s.me.jobId s.strip.ahead .read (bits r 0 51 + 8 * x) = (q, .inr p) → p.pa / 2 ^ 52 ≠ 1 →
    dev = (if p.pa / 2 ^ 52 = 2 then bits p.pa 40 10 else s.device) →
    e = (i, bits r 0 51 + 8 * x, p.pa % 2 ^ 40 + (if p.tracked then 2 ^ 63 else 0)) →
    leave = (joins s.strip.open_ dev (bits p.pa 38 2) e).1
      ++ (if n ≤ i + 1 then (joins s.strip.open_ dev (bits p.pa 38 2) e).2 else []) →
    ∃ t, exec (.xgath8 h o) s = .next t ∧ keepsRegs s t ∧ t.mem = q.mem ∧ passes h n 1 s t
      ∧ (i + 1 < n → t.strip.open_ = (joins s.strip.open_ dev (bits p.pa 38 2) e).2)
      ∧ (t.here.asked = s.here.asked ++ (List.range leave.length).map fun j =>
          let es := ((leave[j]?).getD (0, 0, [])).2.2
          { tag := (s.here.nextTag + 1 + j) % 65536, c := s.bank, op := id, elem := ((es.head?.map (·.1)).getD 0), left := 1 + es.length
            use := .values (es.map fun e => (bits r 96 32 % 2 ^ 21 + 8 * e.1, e.1, e.2.1)) })
      ∧ t.me.ops = opsAfter s id leave.length (decide (n ≤ i + 1)) ∧ t.here.kept = s.here.kept
      ∧ (∀ l ∈ leave, l.1 = s.device → s.device < 1024 → l.2.1 < 4 → l.2.2.length ≤ 28 → (∀ z ∈ l.2.2, z.2.2 < 2 ^ 64) →
        ∃ at_ pk, (at_, .cread pk) ∈ t.agenda ∧ pk.dtile.toNat = 1020 + l.2.1 ∧ pk.field 0 2 = l.2.2.length
          ∧ ∀ y z, l.2.2[y]? = some z → pk.field (16 + 8 * y) 8 = z.2.2)
      ∧ ∀ j, t.me.dcur.look 0 j = if j = k then (s.strip.start + i + 1) % descPeriod (s.desc k) else s.me.dcur.look 0 j)
  -- XDISP
  ∧ (∀ (h : StripHead) (o : AXForm) (s m p : State) (r k j n id i x v a : Nat), k = o.ds.toNat → j = bits r 52 4 → n = o.cnt.toNat + 1 →
    inTransfer h r id n s → descReady s k → descReady s j → descSpace (s.desc k) ≠ 1 → descElen (s.desc k) = 8 → descSpace (s.desc j) ≠ 1 →
    i = s.strip.ust → s.mayReceive (bits r 96 32 + 8 * i : Nat) 8 = true → s.here.pairsOut < 256 → s.here.stepping = none → s.cur.unit < 768 →
    s.flips = [] → s.controlElement k s.strip.start i = .bytes m x 0 → (a : Int) = descAddr (s.desc j) (bits x 0 32) → a < 2 ^ 64 →
    (bits x 32 32 = 0xFFFFFFFF →
      ∃ t, exec (.xdisp h o) s = .next t ∧ keepsRegs s t ∧ passes h n 1 s t ∧ storesRow m t (bits r 96 32 + 8 * i) 8 (2 ^ 64 - 1)
        ∧ t.here.asked = s.here.asked ∧ t.me.ops = opsAfter s id 0 (decide (n ≤ i + 1)))
    ∧ (bits x 32 32 < 256 → (s.route.look 0 (512 * dieOf s.cur.unit + 2 * bits x 32 32)).getLsbD 63 = true →
      s.sound (controlPA (routeOffset (dieOf s.cur.unit) (bits x 32 32))) 16 → m.sourceBytes j a (descElen (s.desc j)) i false = .bytes p v 0 → s.device < 1024 →
      ∃ t w1, w1 = (s.route.look 0 (512 * dieOf s.cur.unit + 2 * bits x 32 32 + 1)).toNat ∧ exec (.xdisp h o) s = .next t ∧ keepsRegs s t
        ∧ t.mem = p.mem ∧ passes h n 1 s t
        ∧ t.here.asked = s.here.asked ++ [{
            tag := (s.here.nextTag + 1) % 65536, c := s.bank, op := id, elem := i, va := a
            use := .slot (bits x 32 32) (bits r 32 16) a (descElen (s.desc j)) v 0 (bits r 96 32 + 8 * i)
              (s.route.look 0 (512 * dieOf s.cur.unit + 2 * bits x 32 32)) false }]
        ∧ t.me.ops = opsAfter s id 1 (decide (n ≤ i + 1))
        ∧ (bits w1 2 10 = s.device → ∃ at_ q, (at_, .rcount q) ∈ t.agenda ∧ q.dtile.toNat = 1020 + bits w1 0 2
          ∧ q.stile.toNat = s.cur.unit % 1024 ∧ q.field 0 2 = (s.here.nextTag + 1) % 65536 ∧ q.field 2 1 = bits x 32 32))
    ∧ (255 < bits x 32 32 → bits x 32 32 ≠ 0xFFFFFFFF → ∃ t, exec (.xdisp h o) s = .next t ∧ t.strip.state = 5
      ∧ t.here.asked = s.here.asked ∧ t.mem = s.mem))
  -- XRED
  ∧ (∀ (h : StripHead) (o : AXForm) (s m : State) (r k n id i v va w : Nat), k = o.ds.toNat → n = o.cnt.toNat + 1 → inTransfer h r id n s →
    descReady s k → descSpace (s.desc k) = 0 → w = descElen (s.desc k) → w % 4 = 0 → reductionTakes (bits r 64 8) (bits r 72 8) = true →
    bits r 0 51 % 4 = 0 → i = s.strip.ust → va = bits r 0 51 + i * w → s.flips = [] →
    s.sourceElement k s.strip.start i false = .bytes m v 0 → ∀ q, (m.traceX (descAddr (s.desc k) (s.strip.start + i))).mergeWords i (bits r 64 8) (bits r 72 8) (w / 4) va v = .inl q →
    ∃ t ws, exec (.xred h o) s = .next t ∧ keepsRegs s t ∧ t.mem = q.mem ∧ passes h n (portTime s t) s t ∧ t.merged = s.merged ++ ws
      ∧ ws.length = w / 4 ∧ t.me.ops = opsAfter s id (w / 4) (decide (n ≤ i + 1))
      ∧ (∀ j e, ws[j]? = some e → e.va = va + 4 * j ∧ e.opnd = BitVec.ofNat 64 (bits v (32 * j) 32) ∧ e.type = bits r 64 8
        ∧ e.op = bits r 72 8 ∧ e.dev = s.device ∧ e.tile = s.cur.unit ∧ e.c = s.bank ∧ e.elem = i ∧ e.opId = id)
      ∧ ∀ j, t.me.dcur.look 0 j = if j = k then (s.strip.start + i + 1) % descPeriod (s.desc k) else s.me.dcur.look 0 j)
  -- XLAND
  ∧ ∀ (h : StripHead) (o : AXForm) (s : State) (a k : Nat) (w : Nat → Nat), a = o.imm.toNat * 16 → k = o.ds.toNat →
    s.cur.eng = 1 → s.inExchange = true → stripReady h s →
    (∀ q ∈ s.me.ops, q.ord = true → q.stream = false → q.rel = false → q.closed = true ∧ q.left = 0) →
    (∀ j, w j = readBytes s.mem (windowPA s.cur.unit a + 8 * j) 8) →
    (a % 32 ≠ 0 → exec (.xland h o) s = .next (s.trapStrip { cause := 0x07, i0 := BitVec.ofNat 64 a }))
    ∧ (a % 32 = 0 → s.here.bankOwner (bankOf a) = s.bank → s.here.role (bankOf a) = 0 ∨ s.here.role (bankOf a) = 4 →
      inSpill s.here.dual a 32 = false → s.sound (windowPA s.cur.unit a) 32 →
      (landRecordOk (readBytes s.mem (windowPA s.cur.unit a) 32) = true → exec (.xland h o) s = .next (stripIssued h (s.modMe fun x => { x with
        slots := x.slots.put k (slotOfWords (BitVec.ofNat 64 (w 0)) (BitVec.ofNat 64 (w 1)) (BitVec.ofNat 64 (w 2)) (BitVec.ofNat 64 (w 3)))
        landed := if (x.slots.look {} k).perm = 0 then x.landed.put k 0 else x.landed })))
      ∧ (landRecordOk (readBytes s.mem (windowPA s.cur.unit a) 32) = false →
        exec (.xland h o) s = .next (s.trapStrip { cause := 0x02, i0 := 7, i1 := s.stripSlot })))

namespace Sys2Proof.Claims

/-! ### Atomics (08 R248 to R252) -/

/-- The atomics: operation number, types taken (08 R250; types 0 n32, 1 i32, 2 n64, 3 i64, 4 f32, 5 bf16×2). -/
def atomicForm : Instr → Option (StripHead × AXForm × Nat × List Nat)
  | .aadd h o => some (h, o, 0, [0, 1, 2, 3])
  | .afadd h o => some (h, o, 0, [4])
  | .abfadd h o => some (h, o, 0, [5])
  | .amin h o => some (h, o, 1, [0, 1, 2, 3, 4])
  | .amax h o => some (h, o, 2, [0, 1, 2, 3, 4])
  | .aand h o => some (h, o, 3, [0, 1, 2, 3])
  | .aor h o => some (h, o, 4, [0, 1, 2, 3])
  | .axor h o => some (h, o, 5, [0, 1, 2, 3])
  | .axchg h o => some (h, o, 6, [0, 1, 2, 3, 4, 5])
  | .acas h o => some (h, o, 7, [0, 1, 2, 3, 4, 5])
  | _ => none

/-- Bytes of a type. -/
def bytesOfType (ty : Nat) : Nat := if ty = 2 ∨ ty = 3 then 8 else 4

end Sys2Proof.Claims

/-- 08 R248 to R252: an atomic begins its operation; each micro-step takes a record, checks and translates it, and sends
it to its home with a request for its result, or merges it in a reduction window; the home answers with the old value
(RequestPacketResults).

Packet layouts that the spec leaves open are the model's (log entry 9). -/
def Obligations.AtomicResults : Prop :=
  ∀ (i : Instr) (h : StripHead) (o : AXForm) (s : State) (op k n j : Nat) (types : List Nat), atomicForm i = some (h, o, op, types) →
    k = o.ds.toNat → n = o.cnt.toNat + 1 → j = s.strip.ust → s.cur.eng = 1 → s.inExchange = true → mayStep h n s → j < n →
    -- the start
    (s.strip.op = none → (∀ q ∈ s.me.ops, q.stream = false → q.rel = false → q.closed = true ∧ q.left = 0) →
      exec i s = exec i (((s.modHere fun t => { t with nextOp := s.here.nextOp + 1 }).modMe fun x => { x with
        ops := x.ops ++ [{ id := s.here.nextOp + 1, left := 0, sig := (if o.aux.getLsbD 3 then some (o.aux.toNat % 4) else none),
                           closed := false, ord := o.aux.getLsbD 2 }] }).modMyStrip fun t => { t with
        op := some (s.here.nextOp + 1), start := s.cursor k }))
    -- a record
    ∧ ∀ (id a v : Nat) (r : AtomRecord) (dest : Option Nat), s.strip.op = some id → descReady s k → descSpace (s.desc k) = 0 →
      s.here.recordsOut < 256 → j ∉ s.strip.done → (a : Int) = descAddr (s.desc k) (s.strip.start + j) → a % 32 = 0 → s.stripMay a 32 = true →
      s.sound (windowPA s.cur.unit a) 32 → v = readBytes s.mem (windowPA s.cur.unit a) 32 →
      r = { addr := bits v 0 64, opnd := bits v 64 64, cmp := bits v 128 64, ty := bits v 192 8, rest := bits v 200 56 } →
      dest = (if o.imm = 0xFFFF then none else some (o.imm.toNat * 64 + 8 * j)) →
      (∀ d, dest = some d → s.mayReceive d 8 = true) → s.here.stepping = none → s.device < 1024 →
      (r.rest ≠ 0 ∨ r.ty ∉ types ∨ 2 ^ 51 ≤ r.addr → exec i s = .next (s.trapStrip
        { cause := 0x02, i0 := 7, i1 := s.stripSlot, i3 := BitVec.ofNat 64 j }))
      ∧ (r.rest = 0 → r.ty ∈ types → r.addr < 2 ^ 51 → r.addr % bytesOfType r.ty ≠ 0 → exec i s = .next (s.trapStrip
        { cause := 0x07, i0 := BitVec.ofNat 64 r.addr, i1 := BitVec.ofNat 64 k, i3 := BitVec.ofNat 64 j }))
      ∧ ∀ m p, r.rest = 0 → r.ty ∈ types → r.addr < 2 ^ 51 → r.addr % bytesOfType r.ty = 0 →
        s.translate s.cur.unit s.me.jobId s.strip.ahead .atomic r.addr = (m, .inr p) →
        ∃ t, exec i s = .next t ∧ keepsRegs s t ∧ t.mem = m.mem ∧ passes h n 1 s t ∧ t.me.ops = opsAfter s id 1 (decide (n ≤ j + 1))
          ∧ (∀ q, t.me.dcur.look 0 q = if q = k then (s.strip.start + j + 1) % descPeriod (s.desc k) else s.me.dcur.look 0 q)
          ∧ (dest ≠ none ∨ 6 ≤ op ∨ m.windowAt s.me.jobId p.pa = none →
            t.merged = s.merged ∧ t.here.asked = s.here.asked ++ [{
              tag := (s.here.nextTag + 1) % 65536, c := s.bank, op := id, elem := j, va := r.addr
              use := .result dest }]
            ∧ (p.pa < 2 ^ 40 → ∃ at_ q, (at_, .atom q) ∈ t.agenda ∧ q.dtile.toNat = 1020 + bits p.pa 38 2 ∧ q.stile.toNat = s.cur.unit % 1024
              ∧ q.field 0 2 = (s.here.nextTag + 1) % 65536 ∧ q.field 2 1 = op ∧ q.field 3 1 = r.ty ∧ q.field 16 8 = p.pa
              ∧ q.field 24 8 = r.opnd % 2 ^ (8 * bytesOfType r.ty) ∧ q.field 32 8 = r.cmp % 2 ^ (8 * bytesOfType r.ty)))
          ∧ (∀ w, dest = none → op < 6 → m.windowAt s.me.jobId p.pa = some w →
            t.here.asked = s.here.asked ∧ ∃ e, t.merged = s.merged ++ [e] ∧ e.w = w ∧ e.dev = s.device ∧ e.tile = s.cur.unit
              ∧ e.word = p.pa % 2 ^ 40 ∧ e.op = op ∧ e.type = r.ty ∧ e.opnd.toNat = r.opnd % 2 ^ (8 * bytesOfType r.ty) ∧ e.opId = id
              ∧ e.c = s.bank ∧ e.elem = j ∧ e.va = r.addr)

namespace Sys2Proof.Claims

/-! ### Events of a tile -/

/-- The instructions of several micro-steps, and XLAND among the transfers (02 R55). -/
def multiCycleForm : Instr → Bool
  | .div _ | .divn _ | .rem _ | .remn _ | .fdiv _ | .fsqrt _ | .srun .. | .ald .. | .aldm .. | .agath .. | .acopy .. | .xput .. | .xget ..
  | .xcir .. | .xdisp .. | .xcomb .. | .xgath8 .. | .xscat .. | .xred .. | .xsend .. | .xland .. | .aadd .. | .afadd .. | .abfadd ..
  | .amin .. | .amax .. | .aand .. | .aor .. | .axor .. | .axchg .. | .acas .. | .mma .. | .mmas .. | .mmaz .. | .adrn .. | .alda ..
  | .hld .. | .hst .. | .mscan .. | .mscanc .. | .mscanr .. | .wst .. | .wacc .. | .wscat .. | .sidle .. => true
  | _ => false

/-- Every context, and memory, as before. -/
def keepsContexts (s t : State) : Prop := t.mem = s.mem ∧ ∀ w d, t.ctx w d = s.ctx w d

/-- The register files of every context and the banks of every matrix strip are as before. -/
def keepsFiles (s t : State) : Prop :=
  (∀ w d, (∀ n, (t.ctx w d).readS n = (s.ctx w d).readS n) ∧ (t.ctx w d).p = (s.ctx w d).p ∧ (t.ctx w d).v = (s.ctx w d).v
    ∧ (t.ctx w d).m = (s.ctx w d).m ∧ (t.ctx w d).fflags = (s.ctx w d).fflags)
  ∧ ∀ w, (t.tile w).acc = (s.tile w).acc ∧ (t.tile w).hs = (s.tile w).hs

/-- Bytes that an entry of a weight load gives, their first byte in the slot, and the value of byte `i`: dense panels of a
storage code, group-scaled panels as they are (06 R178, R180). -/
def loadedBytes (w : WeightLoad) (e : Nat) (row : Row) : Nat × Nat × (Nat → Nat) :=
  if w.kind = 0 then
    let width := if w.storage = 0 then 8 else if w.storage = 1 then 4 else 6
    (6144 / width, 6144 / width * e, fun i =>
      if w.storage = 0 then bits row.toNat (8 * i) 8 else widenStored w.storage (bits row.toNat (width * i) width) % 256)
  else (min 768 ((if w.tb = 3 then 4992 else 3840) - 768 * e), 768 * e, fun i => bits row.toNat (8 * i) 8)

/-- Operation `id` of context `c` has one part less to do; what is complete leaves, in order, and counts (08 R245, 13 R374). -/
def partDone (s t : State) (u : Nat) (c : Bool) (id : Nat) : Prop :=
  let r := settleOps ((s.ctx u c).ops.map fun o => if o.id = id then { o with left := o.left - 1 } else o) [] true
  (t.ctx u c).ops = r.1 ∧ t.inbox = s.inbox ++ r.2.map fun k => .timelineIncrement u c k

/-- Stream `k` of a tile is served next: the first ready one behind the last served, else the first (09 R278). -/
def servedNext (s : State) (u k : Nat) : Prop :=
  ∃ before after, (s.tile u).streamsReady = before ++ k :: after
    ∧ (((s.tile u).lastServed < k ∧ ∀ j ∈ before, j ≤ (s.tile u).lastServed)
      ∨ (before = [] ∧ ∀ j ∈ (s.tile u).streamsReady, j ≤ (s.tile u).lastServed))

/-- Stream `j` of a context after a granule of `n` bytes: further on, or complete after its last element. -/
def streamAfter (q : Stream) (n : Nat) : Stream :=
  let w := if q.kind = 2 then 768 else descElen q.desc
  let m := if q.sent + n < w then { q with sent := q.sent + n } else { q with sent := 0, done := q.done + 1 }
  if q.cnt < m.done then { m with state := 2 } else m

/-- A monitor after a sample (13 R385). -/
def sampled (m : Monitor) (v : Nat) : Monitor :=
  let v := min v 4294967295
  let b := min 31 ((v - (m.config.extractLsb' 32 32).toNat) / 2 ^ (m.config.extractLsb' 20 4).toNat)
  { m with
    bins := m.bins.put b (min 4294967295 (m.bins.look 0 b + 1)), min := min m.min v, max := max m.max v
    count := min 4294967295 (m.count + 1) }

end Sys2Proof.Claims

/-- 08 R245; 09 R278 to R281; 12 R349, R354, R355; 13 R373: STREAM_GRANULE moves one granule of the stream in turn; a
complete stream leaves with its counter's increment; a walk answers TPROBE in a mailbox, or ends TPREF.

That no other walk has an event of its own is the model's reading (log entry 24). -/
def Obligations.StreamEventResults : Prop :=
  (∀ (s : State) (u : Nat), (s.tile u).streamsReady = [] → exec (.streamGranule u) s = .next s)
  ∧ (∀ (s a : State) (u k : Nat) (c : Bool) (q : Stream) (va : Int) (n pa : Nat), servedNext s u k → c = decide (16 ≤ k) → u < 768 →
    a = (s.mod u fun t => { t with lastServed := k, granted := q.banksNow ++ t.granted }).requestGranule u → (s.ctx u c).streams.find (k % 16) = some q →
    (s.tile u).trace.ctl.getLsbD 3 = false → va = descAddr q.desc (q.start + q.done) →
    n = (if q.kind = 2 then 64 else min (descElen q.desc - q.sent) (64 - ((va + q.sent) % 64).toNat)) →
    pa = windowPA u (q.imm * 64 + q.done * (if q.kind = 2 then 768 else descElen q.desc) + q.sent) →
    -- BGIN
    (∀ m v bad, q.kind = 0 → a.readVirtual u c q.ahead .read 1 (va + q.sent) n = (m, .inr (v, bad)) → v < 2 ^ (8 * n) →
      ∃ t, exec (.streamGranule u) s = .next t ∧ keepsFiles s t
        ∧ (Memory.wf s.mem = true → ∀ i, i < n → readByte t.mem (pa + i) = byteOf v i)
        ∧ (∀ x, x < pa ∨ pa + n ≤ x → readByte t.mem x = readByte s.mem x) ∧ (t.ctx u c).streams.find (k % 16) = some (streamAfter q n)
        ∧ ((streamAfter q n).state = 2 → ∃ at_, s.cycle < at_ ∧ (at_, .streamComplete u c (k % 16)) ∈ t.agenda))
    -- BGOUT
    ∧ (∀ m, q.kind = 1 → s.sound pa n → s.poison = [] → a.writeVirtual u c q.ahead (va + q.sent) n (readBytes s.mem pa n) 0 = (m, none) →
      ∃ t, exec (.streamGranule u) s = .next t ∧ keepsFiles s t ∧ t.mem = m.mem
        ∧ (t.ctx u c).streams.find (k % 16) = some (streamAfter q n))
    -- BGFILL
    ∧ (q.kind = 2 → ∃ t, exec (.streamGranule u) s = .next t ∧ keepsFiles s t
        ∧ (Memory.wf s.mem = true → ∀ i, i < 64 → readByte t.mem (pa + i) = byteOf q.value.toNat (i % 8))
        ∧ (∀ x, x < pa ∨ pa + 64 ≤ x → readByte t.mem x = readByte s.mem x) ∧ (t.ctx u c).streams.find (k % 16) = some (streamAfter q 64))
    -- BGCODE
    ∧ (∀ m v bad, 3 ≤ q.kind → a.readVirtual u c q.ahead .code 2 va 64 = (m, .inr (v, bad)) → v < 2 ^ 512 →
      ∃ t, exec (.streamGranule u) s = .next t ∧ keepsFiles s t
        ∧ (Memory.wf s.mem = true → ∀ i, i < 64 → readByte t.mem (windowPA u (lineOffset (q.imm + q.done)) + i) = byteOf v i)
        ∧ (t.tile u).tags.look none ((q.imm + q.done) % 4096) = some (c, q.imm + q.done)
        ∧ (t.ctx u c).streams.find (k % 16) = some (streamAfter q 64))
    -- a fault at the element
    ∧ (∀ m f (at_ : Int), (q.kind = 0 ∧ at_ = va + q.sent ∧ a.readVirtual u c q.ahead .read 1 at_ n = (m, .inl f)
          ∨ q.kind = 1 ∧ at_ = va + q.sent ∧ s.sound pa n ∧ s.poison = []
            ∧ a.writeVirtual u c q.ahead at_ n (readBytes s.mem pa n) 0 = (m, some f)
          ∨ 3 ≤ q.kind ∧ at_ = va ∧ a.readVirtual u c q.ahead .code 2 at_ 64 = (m, .inl f)) →
      ∃ t, exec (.streamGranule u) s = .next t ∧ keepsFiles s t ∧ t.mem = m.mem
        ∧ (t.ctx u c).streams.find (k % 16) = some { q with state := 1, cause := f.cause }
        ∧ ∃ p, (t.ctx u c).traps = (s.ctx u c).traps ++ [p] ∧ p.cause = f.cause ∧ p.eng = 1 ∧ p.i0 = BitVec.ofInt 64 (f.address at_)
          ∧ p.i1 = BitVec.ofNat 64 (if f.cause = 0x11 ∧ f.info1 ≠ 0 then f.info1 else q.ds) ∧ p.i2 = BitVec.ofNat 64 (0x100 + k % 16) ∧ p.i3 = BitVec.ofNat 64 q.done))
  ∧ (∀ (s : State) (u k : Nat) (c : Bool) (q : Stream), (s.ctx u c).streams.find k = some q → q.state = 2 →
    ∃ t, exec (.streamComplete u c k) s = .next t ∧ partDone s t u c q.op ∧ keepsFiles s t ∧ t.mem = s.mem)
  ∧ (∀ (s : State) (u k : Nat) (c : Bool), ∃ t, exec (.timelineIncrement u c k) s = .next t ∧ t.mem = s.mem ∧ keepsFiles s t
    ∧ ∀ j, (t.ctx u c).tl.look 0 j = if j = k then min ((s.ctx u c).tl.look 0 k + 1) (2 ^ 64 - 1) else (s.ctx u c).tl.look 0 j)
  ∧ (∀ (s m : State) (u mb va kind : Nat) (c : Bool) (k : AccessKind) (ahead : List Nat), va < 2 ^ 51 → mb < 8 →
    ((kind = 0 ∧ k = .read) ∨ (kind = 1 ∧ k = .write) ∨ (kind = 2 ∧ k = .code) ∨ (kind = 3 ∧ k = .atomic)) →
    ahead = (((s.ctx u c).streams.find (probeKey mb)).getD { kind := 5 }).ahead →
    (∀ p, s.translate u (s.ctx u c).jobId ahead k va = (m, .inr p) →
      ∃ t, exec (.pageWalkComplete u c (.query mb va kind)) s = .next t ∧ t.mem = s.mem ∧ keepsFiles s t
        ∧ (t.ctx u c).access.mailbox.look 0 mb
            = BitVec.ofNat 64 (2 ^ 63 + p.sz * 2 ^ 60 + p.tracked.toNat * 2 ^ 59 + p.hc.toNat * 2 ^ 58 + p.pa)
        ∧ (∀ j, j ≠ mb → (t.ctx u c).access.mailbox.look 0 j = (s.ctx u c).access.mailbox.look 0 j)
        ∧ (t.ctx u c).streams.find (probeKey mb) = none)
    ∧ (∀ f, s.translate u (s.ctx u c).jobId ahead k va = (m, .inl f) →
      ∃ t, exec (.pageWalkComplete u c (.query mb va kind)) s = .next t ∧ t.mem = s.mem ∧ keepsFiles s t
        ∧ (t.ctx u c).access.mailbox.look 0 mb
            = BitVec.ofNat 64 (f.level * 2 ^ 60 + f.reason % 4 * 2 ^ 56 + f.reason * 2 ^ 8 + f.cause)
        ∧ (t.ctx u c).traps = (s.ctx u c).traps ∧ (t.ctx u c).streams.find (probeKey mb) = none))
  ∧ ∀ (s : State) (u e : Nat) (c : Bool) (q : Stream), (s.ctx u c).streams.find e = some q →
    ∃ t, exec (.pageWalkComplete u c (.prefetch e)) s = .next t ∧ partDone s t u c q.op ∧ keepsFiles s t ∧ t.mem = s.mem
      ∧ ∀ q', (t.ctx u c).streams.find e = some q' → q' = { q with state := 2, done := q.cnt + 1 }

/-- 02 R55; 06 R175 to R180, R201; 07 R206, R219; 13 R385: MICRO_STEP is the instruction at the engine's position; a
result enters its accumulator row; the load path takes an entry into its slot, VALID two cycles after the last;
buffers drain; words are corrected.

01 R33; 09 R289, R290; 14 R393, R394: the pending trap that comes first is taken by the core of its context; a hang is
recorded and, like a deadline, taken by freezing, which for a loaded job begins a whistle.

When a row buffer drains is read as log entry 18 says. -/
def Obligations.TileEventResults : Prop :=
  (
  (∀ (s a : State) (u e : Nat) (w : Slot) (x : Option Slot) (i : Instr), a = { s with cur := { unit := u, eng := e } } →
    a.standing = some (w, x) → decodeSlot (isSteward u) e w x = .instr i → multiCycleForm i = true →
    exec (.microStep u e) s = exec i a ∧ ∃ t, exec i a = .next t)
  ∧ (∀ (s : State) (u row : Nat) (v : Row), ∃ t, exec (.accumulatorEntry u row v) s = .next t ∧ keepsContexts s t
    ∧ (∀ r, (t.tile u).acc.look 0 r = if r = row then v else (s.tile u).acc.look 0 r)
    ∧ (t.tile u).accBusy = (s.tile u).accBusy.erase row ∧ (t.tile u).kcount = (s.tile u).kcount ∧ (t.tile u).hs = (s.tile u).hs
    ∧ (∀ k, row < 128 → k < 96 → t.poison.find (windowPA u (0x260000 + 0x300 * row) + 8 * k) = none)
    ∧ (∀ z, z ≠ u → t.tile z = s.tile z) ∧ t.agenda = s.agenda)
  ∧ (∀ (s : State) (u : Nat) (w : WeightLoad) (e : FifoEntry) (es : List FifoEntry), w = (s.tile u).wload →
    ((s.tile u).fifos.look {} w.fifo).entries = e :: es → e.bad = 0 → (∀ x ∈ (e :: es).take 2, x.errs = []) →
    (w.kind = 1 → badSparse (if w.tb = 2 then 12 else 24) (w.total - w.left) e.row = none) →
    ∃ t, exec (.wloadEntry u) s = .next t ∧ keepsContexts s t ∧ ((t.tile u).fifos.look {} w.fifo).entries = es
      ∧ (t.tile u).wload.left = w.left - 1 ∧ (t.tile u).wload.busy = decide (1 < w.left)
      ∧ t.agenda = s.agenda ++ (if w.left = 1 then [(s.cycle + 2, .latchValid u w.slot)] else [])
      ∧ ((t.tile u).latch w.slot).tag = ((s.tile u).latch w.slot).tag ∧ (t.tile u).latch (1 - w.slot) = (s.tile u).latch (1 - w.slot)
      ∧ (w.kind = 1 → (t.tile u).latch w.slot = ((s.tile u).latch w.slot).takeSparse (w.tb == 2) (w.total - w.left) e.row)
      ∧ (w.kind ≠ 1 → ((t.tile u).latch w.slot).sparse = ((s.tile u).latch w.slot).sparse
        ∧ ∀ k n first value, k < 9216 → loadedBytes w (w.total - w.left) e.row = (n, first, value) →
          bits ((t.tile u).latch w.slot).vals.toNat (8 * k) 8
            = if first ≤ k ∧ k < first + n then value (k - first) else bits ((s.tile u).latch w.slot).vals.toNat (8 * k) 8))
  ∧ (∀ (s : State) (u w : Nat), w < 2 → ∃ t, exec (.latchValid u w) s = .next t ∧ keepsContexts s t
    ∧ ((t.tile u).latch w).tag = ((s.tile u).latch w).tag ||| 1 ∧ ((t.tile u).latch w).vals = ((s.tile u).latch w).vals
    ∧ ((t.tile u).latch w).sparse = ((s.tile u).latch w).sparse ∧ (t.tile u).latch (1 - w) = (s.tile u).latch (1 - w)
    ∧ (t.tile u).acc = (s.tile u).acc)
  ∧ (∀ (s : State) (u : Nat), ∃ t, exec (.latchRestoreComplete u) s = .next t ∧ keepsContexts s t
    ∧ (t.tile u).wload = { (s.tile u).wload with rest := false } ∧ (t.tile u).latch0 = (s.tile u).latch0
    ∧ (t.tile u).latch1 = (s.tile u).latch1)
  ∧ (∀ (s : State) (u b : Nat), ((s.tile u).granted.contains b = true → exec (.rowBufferDrain u b) s = .next s)
    ∧ ((s.tile u).granted.contains b = false → ∃ t, exec (.rowBufferDrain u b) s = .next t ∧ keepsContexts s t
      ∧ ∀ k, (t.tile u).rowBuf.look 0 k = if k = b then (s.tile u).rowBuf.look 0 b - 64 else (s.tile u).rowBuf.look 0 k))
  ∧ (∀ (s : State) (u off : Nat), u < 768 → off < 0x180000 →
    ((s.tile u).granted.contains (off / 65536) = true →
      exec (.eccWriteback (windowPA u off)) s = .next (s.schedule (s.cycle + 1) (.eccWriteback (windowPA u off))))
    ∧ ((s.tile u).granted.contains (off / 65536) = false → ∃ t, exec (.eccWriteback (windowPA u off)) s = .next t
      ∧ t.flips.find (windowPA u off) = none ∧ (∀ q, q ≠ windowPA u off → t.flips.find q = s.flips.find q) ∧ t.mem = s.mem
      ∧ t.units = s.units ∧ t.poison = s.poison))
  ∧ (∀ (s : State) (inst src sel v : Nat), ∃ t, exec (.healthMonitorSample false inst src sel v) s = .next t ∧ keepsContexts s t
    ∧ (isSteward inst = false → ((s.tile inst).ctx (s.tile inst).run).frozen = false →
      ∀ k m, (s.tile inst).mon.find k = some m → (t.tile inst).mon.find k
        = some (if (m.config.extractLsb' 0 4).toNat = src then sampled m v else m))
    ∧ (((s.tile inst).ctx (s.tile inst).run).frozen = true → t = s))
  ∧ ∀ (s : State) (die sel v : Nat), ∃ t, exec (.healthMonitorSample true die 10 sel v) s = .next t ∧ keepsContexts s t
    ∧ t.sensors.die.look 0 (8 * die + sel) = v
    ∧ (∀ k m, s.dieMon.find k = some m → t.dieMon.find k
        = some (if k / 8 = die ∧ (m.config.extractLsb' 0 4).toNat = 10 ∧ (m.config.extractLsb' 8 8).toNat = sel then sampled m v else m))
    ∧ t.inbox = s.inbox ++ (if s.sensors.die.look 0 (8 * die + sel) < s.sensors.warn ∧ s.sensors.warn ≤ v
        then [.temperatureWarning die sel v] else [])
  ) ∧ (
  (∀ (s : State) (u : Nat) (c : Bool), (∀ q ∈ (s.ctx u c).traps, (s.ctx u c).deliverable q = false) →
    exec (.asyncTrapDelivery u c) s = .next s)
  ∧ (∀ (s a : State) (u : Nat) (c : Bool) (q : Trap) (before after : List Trap), (s.ctx u c).traps = before ++ q :: after →
    (s.ctx u c).deliverable q = true → (∀ p ∈ before, (s.ctx u c).deliverable p = true → q.rank < p.rank) →
    (∀ p ∈ after, (s.ctx u c).deliverable p = true → q.rank ≤ p.rank) →
    a = s.modCtx u c (fun x => { x with traps := before ++ after }) →
    ((s.ctx u c).disposition q.cause = .handle → exec (.asyncTrapDelivery u c) s = .next (a.enterHandler u c q))
    ∧ ((s.ctx u c).disposition q.cause = .freeze → exec (.asyncTrapDelivery u c) s = .next (a.freezeTrap u c q))
    ∧ ((s.ctx u c).disposition q.cause = .report → ∃ t, exec (.asyncTrapDelivery u c) s = .next t ∧ keepsFiles s t ∧ t.mem = s.mem
      ∧ (t.ctx u c).queue = (s.ctx u c).queue ∧ (t.ctx u c).traps = before ++ after
      ∧ (t.ctx u c).report.look 0 2 = q.i0 ∧ (t.ctx u c).report.look 0 3 = q.i1 ∧ (t.ctx u c).report.look 0 4 = q.i2
      ∧ (t.ctx u c).report.look 0 5 = q.i3 ∧ (t.ctx u c).report.look 0 6 = BitVec.ofNat 64 s.cycle))
  ∧ (∀ (s : State) (u cause e : Nat) (c : Bool) (i : Instr), u < 768 →
    ((i = .deadlineFault u c ∧ cause = 0x18 ∧ e = 0) ∨ (i = .hangFault u c e ∧ cause = 0x1B)) →
    ∃ t, exec i s = .next t ∧ keepsFiles s t ∧ t.mem = s.mem ∧ (t.ctx u c).stopped = true
      ∧ (t.ctx u c).cause = BitVec.ofNat 64 (cause + e * 256 + 4096 + (if (s.ctx u c).inHandler then 8192 else 0))
      ∧ (i = .hangFault u c e → (t.ctx u c).info0 = BitVec.ofNat 64 e)
      ∧ (∀ j, (s.ctx u c).frozen = false → s.slotOf u c = some j → (s.job j).valid = false → (t.job j).valid = true
        ∧ (t.job j).settled = false ∧ (t.job j).runState = 1 ∧ ∃ w, (t.job j).winner = some w ∧ w.tile = u ∧ w.cause = cause ∧ w.eng = e
          ∧ w.time = s.ns ∧ w.dev = s.device)
      ∧ (∀ j, (s.ctx u c).frozen = false → s.slotOf u c = some j → (s.job j).valid = false → c = (s.tile u).run →
        (s.ctx u c).takesPart = true → (t.ctx u c).frozen = true))
  ∧ ∀ (s : State) (u e : Nat) (c : Bool), u < 768 → ∃ t, exec (.hangFault u c e) s = .next t
    ∧ (((s.tile u).hang.look 0 0).getLsbD 63 = true → (t.tile u).hang.look 0 0 = (s.tile u).hang.look 0 0 ||| BitVec.twoPow 64 62)
    ∧ (((s.tile u).hang.look 0 0).getLsbD 63 = false →
      (t.tile u).hang.look 0 0 = BitVec.ofNat 64 (2 ^ 63 + e * 2 ^ 56 + s.cycle % 2 ^ 48)
      ∧ (∀ k, 1 ≤ k → k ≤ 4 → (t.tile u).hang.look 0 (k + 1) = BitVec.ofNat 64 (((s.ctx u c).strip k).wait * 2 ^ 60
          + ((s.ctx u c).strip k).waitFifo * 2 ^ 56 + ((s.ctx u c).strip k).ust * 2 ^ 40 + ((s.ctx u c).strip k).state * 2 ^ 36
          + ((s.ctx u c).strip k).pos.toNat))
      ∧ (t.tile u).hang.look 0 9 = BitVec.ofNat 64 (s.phaseOf u c))
  )

namespace Sys2Proof.Claims

/-! ### Packets -/

/-- A packet of a service unit leaves: to its own module it arrives later, to another it leaves by the first usable plane. -/
def dispatched (s t : State) (q : Packet) : Prop :=
  if q.ddev.toNat = s.device ∧ q.type ≠ 0x16 then ∃ at_, s.cycle < at_ ∧ (at_, arrival noLink q) ∈ t.agenda
  else ∀ plane, s.planeAfter 71 = some plane → .packet s.cycle plane q ∈ t.out

/-- A packet of unit `u` goes into its injection port; while a step of the frozen tile runs it is held (10 R300, 14 R405). -/
def posted (s t : State) (u : Nat) (plane : Option Nat) (q : Packet) : Prop :=
  if (s.tile u).stepping.isSome then ∃ at_, (at_, q) ∈ (t.tile u).heldOut
  else if q.ddev.toNat = s.device ∧ q.type ≠ 0x16 then ∃ at_, s.cycle < at_ ∧ (at_, arrival noLink q) ∈ t.agenda
  else ∀ p, plane = some p → ∃ depart, s.cycle ≤ depart ∧ .packet depart p q ∈ t.out

/-- The bytes [pa, pa + n) are those of `v`, low byte first; every other byte is as before. -/
def onlyBytes (s t : State) (pa n v : Nat) : Prop :=
  (Memory.wf s.mem = true → ∀ i, i < n → readByte t.mem (pa + i) = byteOf v i) ∧ ∀ x, x < pa ∨ pa + n ≤ x → readByte t.mem x = readByte s.mem x

/-- The word `v` that an atomic stores (08 R250): operations 0 add, 1 min, 2 max, 3 and, 4 or, 5 xor, 6 exchange, 7 compare and
swap; types 0 to 3 integers of 4 and 8 bytes, odd ones signed, 4 f32, 5 a pair of bf16. -/
def storedWord (op ty old opnd cmp v : Nat) : Prop :=
  let n := if ty = 2 ∨ ty = 3 then 64 else 32
  let less := if ty % 2 = 1 then decide ((BitVec.ofNat n old).toInt < (BitVec.ofNat n opnd).toInt) else decide (old < opnd)
  let half := fun (a b : Nat) => (bf16.round 0 0 ((bf16.value a).add (bf16.value b))).bits
  (op = 0 → ty < 4 → v = (old + opnd) % 2 ^ n)
  ∧ (op = 0 → ty = 4 → v = (fp32.round 0 0 ((fp32.value old).add (fp32.value opnd))).bits)
  ∧ (op = 0 → ty = 5 → v = half (old % 65536) (opnd % 65536) + half (old / 65536 % 65536) (opnd / 65536 % 65536) * 65536)
  ∧ (op = 1 → ty < 4 → v = if less then old else opnd) ∧ (op = 2 → ty < 4 → v = if less then opnd else old)
  ∧ (op = 1 → ty = 4 → v = fp32.pick false old opnd) ∧ (op = 2 → ty = 4 → v = fp32.pick true old opnd)
  ∧ (op = 3 → v = old &&& opnd) ∧ (op = 4 → v = old ||| opnd) ∧ (op = 5 → v = old ^^^ opnd) ∧ (op = 6 → v = opnd)
  ∧ (op = 7 → v = if old = cmp then opnd else old)

/-- The request of a tag. -/
def awaits (s : State) (u tag : Nat) (q : Asked) : Prop := (s.tile u).asked.find? (·.tag == tag) = some q

/-- A request has its last answer: it is forgotten, and its part of its operation done. -/
def answered (s t : State) (u : Nat) (q : Asked) : Prop :=
  (t.tile u).asked = (s.tile u).asked.filter (·.tag != q.tag) ∧ (t.ctx u q.c).ops
    = (settleOps ((s.ctx u q.c).ops.map fun o => if o.id = q.op then { o with left := o.left - 1 } else o) [] true).1

/-- A packet of a stream is the next one at its receiving tile, whose context is not frozen and waits for no other. -/
def isNext (s : State) (p : Packet) : Prop :=
  p.ddev.toNat = s.device ∧ p.dtile.toNat < 768 ∧ (s.ctx p.dtile.toNat (p.label.getLsbD 15)).frozen = false
  ∧ (s.rxOf p.dtile.toNat p).seq = p.seq.toNat ∧ (s.rxOf p.dtile.toNat p).waiting = [] ∧ (s.rxOf p.dtile.toNat p).faulted = []

/-- The stream of a packet stands after it, and is acknowledged up to it if it carries L or A. -/
def advanced (s t : State) (p : Packet) : Prop :=
  (t.rxOf p.dtile.toNat p).seq = (p.seq.toNat + 1) % 65536
  ∧ (p.fL = true ∨ p.fA = true → posted s t p.dtile.toNat (s.planeAfter 71)
      { s.header 0x0C p.dtile.toNat p.sdev.toNat p.stile.toNat p.label.toNat with seq := p.seq })

/-- No steward has declared the receive fault of a packet unservable (10 R305). -/
def notDead (s : State) (u : Nat) (c : Bool) (p : Packet) : Prop := ∀ e ∈ (s.ctx u c).rfq, e.2.isFor p = true → e.2.dead = false

/-- An ordered packet is kept for unit `u` with the part of operation `op`. -/
def keeps (t : State) (u op : Nat) (f : Packet → Prop) : Prop := ∃ k ∈ (t.tile u).kept, k.op = op ∧ f k.pkt

end Sys2Proof.Claims

/-- 10 R292 to R298, R300, R305, R317, R324: a packet that is next in its stream lands in its slot or reads it, with the
stream's advance; a mark ends a run; acknowledgements let packets go, and what is refused or lost is sent again.

Where the rules leave a point open, the model's choices are those of log entries 21 and 50. -/
def Obligations.StreamPacketResults : Prop :=
  -- WRITE and WRITEM into the scratchpad
  (∀ (s : State) (p : Packet) (u n : Nat) (c : Bool) (l : LandingSlot) (pa : Nat), isNext s p → u = p.dtile.toNat →
    c = p.label.getLsbD 15 → l = (s.ctx u c).slots.look {} p.lslot.toNat → s.slotOpen u c p.lslot.toNat 0 = true → l.space = 0 →
    n = (if p.type = 2 then p.payload.toNat % 65536 else 16 * p.len.toNat) → n ≤ 256 → p.off.toNat + (n + 63) / 64 ≤ l.limit →
    s.mayLand u c (l.base + 64 * p.off.toNat) n = true → (s.ctx u c).landed.look 0 p.lslot.toNat + n ≤ l.expect → p.fH = false →
    pa = windowPA u (l.base + 64 * p.off.toNat) → notDead s u c p →
    ∀ i, (i = .write p ∧ p.type = 1 ∨ i = .writem p ∧ p.type = 2) → ∃ t, exec i s = .next t ∧ advanced s t p
      ∧ onlyBytes s t pa n (if p.type = 2 then p.payload.toNat / 2 ^ 128 else p.payload.toNat)
      ∧ (t.ctx u c).landed.look 0 p.lslot.toNat = (s.ctx u c).landed.look 0 p.lslot.toNat + n
      ∧ (∀ k, k ≠ p.lslot.toNat → (t.ctx u c).landed.look 0 k = (s.ctx u c).landed.look 0 k))
  -- READ from the scratchpad
  ∧ (∀ (s : State) (p : Packet) (u off n tag : Nat) (c : Bool) (l : LandingSlot) (pa : Nat), isNext s p → u = p.dtile.toNat → p.type = 3 →
    c = p.label.getLsbD 15 → l = (s.ctx u c).slots.look {} p.lslot.toNat → s.slotOpen u c p.lslot.toNat 1 = true → l.space = 0 →
    off = p.payload.toNat % 2 ^ 28 → n = p.payload.toNat / 2 ^ 32 % 8192 → tag = p.payload.toNat / 2 ^ 48 % 65536 → 0 < n → n ≤ 256 →
    off + (n + 63) / 64 ≤ l.limit → s.mayLand u c (l.base + 64 * off) n = true → pa = windowPA u (l.base + 64 * off) → s.sound pa n →
    s.poison = [] → notDead s u c p → ∃ t, exec (.read p) s = .next t ∧ advanced s t p ∧ t.mem = s.mem
      ∧ posted s t u (s.planeAfter 71) { s.header 0x04 u p.sdev.toNat p.stile.toNat tag with
          len := BitVec.ofNat 5 ((n + 15) / 16), payload := BitVec.ofNat 2048 (readBytes s.mem pa n) })
  -- a slot that does not take it: NACK
  ∧ (∀ (s : State) (p : Packet) (u : Nat) (c : Bool) (i : Instr), isNext s p → u = p.dtile.toNat → c = p.label.getLsbD 15 →
    (i = .write p ∧ p.type = 1 ∨ i = .writem p ∧ p.type = 2 ∨ i = .read p ∧ p.type = 3) →
    s.slotOpen u c p.lslot.toNat (if p.type = 3 then 1 else 0) = false → ∃ t, exec i s = .next t ∧ t.mem = s.mem
      ∧ (t.rxOf u p).seq = p.seq.toNat ∧ t.ctx u c = s.ctx u c ∧ posted s t u (s.planeAfter 71)
          { s.header 0x0D u p.sdev.toNat p.stile.toNat p.label.toNat with seq := p.seq, len := 1, payload := 1024 })
  -- CMARK after the run's beats; that of a teardown (A) reports what is committed of the run
  ∧ (∀ (s : State) (p : Packet) (u : Nat) (r : RxCircuit), isNext s p → p.type = 0x12 → u = p.dtile.toNat → p.fA = false →
    (s.tile u).rxc.find? (·.cid == BitVec.ofNat 26 (p.payload.toNat / 2 ^ 32 % 2 ^ 26)) = some r → r.reported = false →
    r.stuck = false → r.anchored = true → p.payload.toNat % 2 ^ 32 ≤ r.runBeats → r.pre = [] → ∃ t, exec (.cmark p) s = .next t ∧ advanced s t p ∧ t.mem = s.mem
      ∧ (∃ r', (t.tile u).rxc.find? (·.cid == r.cid) = some r' ∧ r'.runBeats = 0 ∧ r'.number = r.number + 1
        ∧ r'.groups = r.groups + (if r.runBeats % 16 = 0 then 0 else 1))
      ∧ (t.ctx u r.c).landed.look 0 r.slot = (s.ctx u r.c).landed.look 0 r.slot
          + (if r.runBeats % 16 = 0 then 0 else 64 * (r.runBeats % 16 - min (r.runBeats % 16) r.uncounted))
      ∧ (r.runBeats % 16 ≠ 0 → posted s t u (s.planeAfter 71) { s.header 0x0C u r.sdev r.stile r.label with
          len := 1, payload := BitVec.ofNat 2048 (r.groups + 1 + r.cid.toNat * 2 ^ 32) }))
  ∧ (∀ (s : State) (p : Packet) (u : Nat) (cid : BitVec 26), isNext s p → p.type = 0x12 → u = p.dtile.toNat → p.fA = true →
    cid = BitVec.ofNat 26 (p.payload.toNat / 2 ^ 32 % 2 ^ 26) → s.beatsOnWire u cid = false → ∃ t, exec (.cmark p) s = .next t ∧ advanced s t p ∧ t.mem = s.mem
      ∧ (t.ctx u false).landed = (s.ctx u false).landed ∧ (t.ctx u true).landed = (s.ctx u true).landed
      ∧ (t.tile u).rxc = (s.tile u).rxc.map (fun r => if r.cid = cid then { r with torn := true, reported := true } else r)
      ∧ ∀ g n, ((s.tile u).rxc.find? (·.cid == cid) = none ∧ g = 0 ∧ n = 0
          ∨ ∃ r, (s.tile u).rxc.find? (·.cid == cid) = some r ∧ g = r.runGroups ∧ n = r.number) →
        posted s t u (s.planeAfter 71) { s.header 0x13 u p.sdev.toNat p.stile.toNat p.label.toNat with
          seq := p.seq, len := 1, payload := BitVec.ofNat 2048 (cid.toNat + g * 2 ^ 32 + n * 2 ^ 64) })
  -- ACK of a stream, of a circuit's groups
  ∧ (∀ (s : State) (p : Packet) (u : Nat) (k : Kept), u = p.dtile.toNat → p.len = 0 →
    (s.tile u).kept.filter (fun k => k.isFor p.sdev.toNat p.stile.toNat p.label.toNat
        && decide ((p.seq.toNat + 65536 - k.pkt.seq.toNat) % 65536 < 32768)) = [k] → k.op ≠ 0 → k.run = none →
    ∃ t, exec (.ack p) s = .next t ∧ t.mem = s.mem ∧ partDone s t u k.c k.op
      ∧ (t.tile u).kept.map (·.pkt) = ((s.tile u).kept.filter fun k => !(k.isFor p.sdev.toNat p.stile.toNat p.label.toNat
        && decide ((p.seq.toNat + 65536 - k.pkt.seq.toNat) % 65536 < 32768))).map (·.pkt))
  ∧ (∀ (s : State) (p : Packet) (c : Bool) (h : Nat), p.len ≠ 0 → h < 16 →
    circuitSource (p.payload.toNat / 2 ^ 32 % 2 ^ 32) = .handle c h → ∃ t, exec (.ack p) s = .next t ∧ t.mem = s.mem
      ∧ t.handle p.dtile.toNat c h = { s.handle p.dtile.toNat c h with groups := p.payload.toNat % 2 ^ 32 })
  -- sent again
  ∧ (∀ (s : State) (p : Packet), ∃ t, exec (.nack p) s = .next t ∧ t.mem = s.mem ∧ t.agenda = s.agenda
    ∧ (t.tile p.dtile.toNat).kept = (s.tile p.dtile.toNat).kept.map fun k =>
        if k.isFor p.sdev.toNat p.stile.toNat p.label.toNat then
          { k with age := 0, retry := if k.pkt.seq = p.seq then some (p.payload.toNat % 2 ^ 32) else k.retry } else k)
  ∧ (∀ (s : State) (u ddev dtile label seq : Nat) (k : Kept),
    (s.tile u).kept.find? (fun k => k.isFor ddev dtile label && k.pkt.seq.toNat == seq) = some k → (s.ctx u k.c).frozen = false →
    ∃ t, exec (.nackRetry u ddev dtile label seq) s = .next t ∧ t.mem = s.mem ∧ (t.tile u).kept.map (·.pkt) = (s.tile u).kept.map (·.pkt)
      ∧ (∀ q ∈ (t.tile u).kept, q.isFor ddev dtile label = true → q.pkt.seq.toNat = seq → q.retry = none)
      ∧ posted s t u (s.planeAfter (s.txOf u ddev dtile label).plane) k.pkt)
  ∧ (∀ (s : State) (u ddev dtile label : Nat) (k : Kept), (s.tile u).kept.filter (·.isFor ddev dtile label) = [k] →
    ∃ t, exec (.retransmitTimeout u ddev dtile label) s = .next t ∧ t.mem = s.mem
      ∧ posted s t u (s.planeAfter (s.txOf u ddev dtile label).plane) k.pkt)
  ∧ (∀ (s : State) (u sdev stile label : Nat) (r : RxStream), sdev < 1024 → stile < 1024 → label < 65536 →
    (s.tile u).rx.find? (fun r => r.sdev == sdev && r.stile == stile && r.label == label) = some r → r.unacked ≠ 0 → r.faulted = [] →
    ∃ t, exec (.ackTimer u sdev stile label) s = .next t ∧ t.mem = s.mem
      ∧ posted s t u (s.planeAfter 71) { s.header 0x0C u sdev stile label with seq := BitVec.ofNat 16 (r.seq + 65535) })
  ∧ (∀ (s : State) (link : Nat) (p : Packet), ∃ t, exec (.reservedTypePacket link p) s = .next t ∧ t.mem = s.mem ∧ t.units = s.units
    ∧ ∀ k, t.links.look {} k = if k = link ∧ link < 312 then { s.links.look {} k with drop := min (2 ^ 32 - 1) ((s.links.look {} k).drop + 1) }
        else s.links.look {} k)
  ∧ (∀ (s : State) (u k i : Nat) (c : Bool) (q : Stream), i < 2048 → (s.ctx u c).streams.find k = some q → q.state ≠ 1 → q.kind < 4 →
    ∃ t, exec (.hostAccessTimeout u c (65536 + 2048 * k + i)) s = .next t ∧ t.mem = s.mem
      ∧ (t.ctx u c).streams.find k = some { q with state := 1, cause := 0x14, done := min i q.cnt, sent := 0 }
      ∧ ∃ r, (t.ctx u c).traps = (s.ctx u c).traps ++ [r] ∧ r.cause = 0x14 ∧ r.eng = 1 ∧ r.i1 = BitVec.ofNat 64 q.ds
        ∧ r.i2 = BitVec.ofNat 64 (0x100 + k) ∧ r.i3 = BitVec.ofNat 64 (min i q.cnt))
  ∧ ∀ (s : State) (u elem : Nat) (c : Bool), elem < 65536 → ∃ t, exec (.hostAccessTimeout u c elem) s = .next t ∧ t.mem = s.mem
    ∧ ((s.ctx u c).access.state = 2 → (t.ctx u c).access.state = 5)
    ∧ ∃ q, (t.ctx u c).traps = (s.ctx u c).traps ++ [q] ∧ q.cause = 0x14 ∧ q.eng = 1 ∧ q.i3 = BitVec.ofNat 64 elem

/-- 08 R250 to R256; 10 R298, R306 to R310; 13 R377: an atomic at its home, values and bytes that come back, counts and
slots of the dispatch, merged reductions, and a fault that raises its trap in the sending context.

Packet layouts that the spec leaves open are the model's (log entry 9), and so are the choices of log entry 27. -/
def Obligations.RequestPacketResults : Prop :=
  -- ATOM: performed, or refused
  (∀ (s : State) (p : Packet) (pa op ty n old : Nat) (tracked : Bool), pa = p.payload.toNat / 2 ^ 128 % 2 ^ 64 → pa < 2 ^ 53 →
    1020 ≤ p.dtile.toNat → s.flips = [] → op = p.payload.toNat / 2 ^ 16 % 256 → ty = p.payload.toNat / 2 ^ 24 % 256 → ty < 6 → op < 8 → n = (if ty = 2 ∨ ty = 3 then 8 else 4) →
    tracked = p.payload.getLsbD 32 → old = readBytes s.mem pa n →
    (s.stampConflict tracked (s.serviceActor p).agent (s.serviceActor p).phase .atomic pa n = none → s.sound pa n →
      ∃ t v, exec (.atom p) s = .next t ∧ storedWord op ty old (p.payload.toNat / 2 ^ 192 % 2 ^ 64) (p.payload.toNat / 2 ^ 256 % 2 ^ 64) v
        ∧ onlyBytes s t pa n v ∧ t.units = s.units ∧ dispatched s t
          { s.header 0x0A p.dtile.toNat p.sdev.toNat p.stile.toNat (p.payload.toNat % 65536) with
            len := 1, payload := BitVec.ofNat 2048 old })
    ∧ (∀ f, s.stampConflict tracked (s.serviceActor p).agent (s.serviceActor p).phase .atomic pa n = some f →
      ∃ t, exec (.atom p) s = .next t ∧ t.mem = s.mem ∧ t.units = s.units ∧ dispatched s t
        { s.header 0x14 p.dtile.toNat p.sdev.toNat p.stile.toNat p.label.toNat with
          len := 1
          payload := BitVec.ofNat 2048 (f.cause + 2 * 2 ^ 8 + p.payload.toNat % 65536 * 2 ^ 16 + f.info1 % 2 ^ 32 * 2 ^ 32 + pa * 2 ^ 64) }))
  -- ARES, CREPLY, RREPLY
  ∧ (∀ (s : State) (p : Packet) (u : Nat) (q : Asked), u = p.dtile.toNat → u < 768 → awaits s u p.label.toNat q → (s.ctx u q.c).frozen = false →
    (∀ dest, q.left ≤ 1 → q.use = .result dest → (∀ a, dest = some a → a + 8 ≤ 0x180000) → ∃ t, exec (.ares p) s = .next t ∧ answered s t u q
      ∧ (∀ a, dest = some a → onlyBytes s t (windowPA u a) 8 (p.payload.toNat % 2 ^ 64)) ∧ (dest = none → t.mem = s.mem))
    ∧ (∀ ds, q.use = .values ds → Memory.wf s.mem = true → ds.Pairwise (fun a b => a.1 + 8 ≤ b.1) → (∀ e ∈ ds, e.1 + 8 ≤ 0x180000) →
      q.left ≤ 1 + ((List.range ds.length).filter fun i => i < 32 && p.payload.getLsbD (32 + i)).length →
      ∃ t, exec (.creply p) s = .next t ∧ answered s t u q
      ∧ (∀ i e, ds[i]? = some e → p.payload.getLsbD (32 + i) = true → i < 30 →
        ∀ k, k < 8 → readByte t.mem (windowPA u e.1 + k) = byteOf (p.payload.toNat / 2 ^ 128) (8 * i + k)))
    ∧ ∀ a k, q.left ≤ 1 → q.use = .bytes [(a, k)] → a + k ≤ 0x180000 → Memory.wf s.mem = true → ∃ t, exec (.rreply p) s = .next t ∧ answered s t u q
      ∧ (∀ i, 64 * p.off.toNat ≤ i → i < k → i < 64 * p.off.toNat + 16 * p.len.toNat →
        readByte t.mem (windowPA u (a + i)) = byteOf p.payload.toNat (i - 64 * p.off.toNat)))
  -- CREAD: one word
  ∧ (∀ (s : State) (p : Packet) (pa tag : Nat), p.payload.toNat % 65536 = 1 → pa = p.payload.toNat / 2 ^ 128 % 2 ^ 40 → s.flips = [] →
    s.poison = [] → s.dieMon = [] → tag = p.payload.toNat / 2 ^ 16 % 65536 →
    (s.stampConflict (p.payload.getLsbD 191) (s.serviceActor p).agent (s.serviceActor p).phase .read pa 8 = none →
      ∃ t, exec (.cread p) s = .next t ∧ t.mem = s.mem ∧ dispatched s t
        { s.header 0x06 p.dtile.toNat p.sdev.toNat p.stile.toNat tag with
          fC := true, len := 2, payload := BitVec.ofNat 2048 (1 + 2 ^ 32 + readBytes s.mem pa 8 * 2 ^ 128) })
    ∧ ∀ f, s.stampConflict (p.payload.getLsbD 191) (s.serviceActor p).agent (s.serviceActor p).phase .read pa 8 = some f →
      ∃ t, exec (.cread p) s = .next t ∧ t.mem = s.mem
        ∧ dispatched s t { s.header 0x14 p.dtile.toNat p.sdev.toNat p.stile.toNat p.label.toNat with
            len := 1, payload := BitVec.ofNat 2048 (f.cause + tag * 2 ^ 16 + f.info1 * 2 ^ 32 + pa * 2 ^ 64) }
        ∧ dispatched s t { s.header 0x06 p.dtile.toNat p.sdev.toNat p.stile.toNat tag with
            fC := true, len := 2, payload := BitVec.ofNat 2048 1 })
  -- RCOUNT
  ∧ (∀ (s : State) (p : Packet) (die e old : Nat), die < 4 → p.dtile.toNat = 0x3FC + die → e = p.payload.toNat / 2 ^ 16 % 256 →
    old = (s.routeUnit.look {} die).live.look 0 e →
    (e ∈ (s.routeUnit.look {} die).granted → ∃ t, exec (.rcount p) s = .next t ∧ t.mem = s.mem ∧ t.units = s.units
      ∧ t.routeUnit.look {} die = { s.routeUnit.look {} die with waiting := (s.routeUnit.look {} die).waiting ++ [p] })
    ∧ (e ∉ (s.routeUnit.look {} die).granted → ∃ t, exec (.rcount p) s = .next t ∧ t.mem = s.mem ∧ t.units = s.units
      ∧ (t.routeUnit.look {} die).live.look 0 e = min (2 ^ 32 - 1) (old + 1)
      ∧ (∀ k, k ≠ e → (t.routeUnit.look {} die).live.look 0 k = (s.routeUnit.look {} die).live.look 0 k)
      ∧ (t.routeUnit.look {} die).snap = (s.routeUnit.look {} die).snap ∧ e ∈ (t.routeUnit.look {} die).granted
      ∧ dispatched s t { s.header 0x08 p.dtile.toNat p.sdev.toNat p.stile.toNat (p.payload.toNat % 65536) with
          len := 1, payload := BitVec.ofNat 2048 old }))
  -- RSLOT: a row to its group's tile with its receipt, or the fallback expert counted
  ∧ (∀ (s : State) (p : Packet) (u die v expert label addr n row bad receipt : Nat) (w0 w1 : Word) (q : Asked) (fallback : Bool),
    u = p.dtile.toNat → u < 768 → die = dieOf u → awaits s u p.label.toNat q → (s.ctx u q.c).frozen = false → v = p.payload.toNat % 2 ^ 32 →
    q.use = .slot expert label addr n row bad receipt w0 fallback →
    (∀ g gs kind, (if fallback then g = w0.toNat % 256 ∧ gs = v ∧ kind = 2 else if w0.getLsbD 62 then g = (if v % 2 = 1 then w0.toNat / 65536 % 256 else w0.toNat % 256) ∧ gs = v / 2 ∧ kind = v % 2
        else g = w0.toNat % 256 ∧ gs = v ∧ kind = 0) →
      w1 = s.groupWord die g 0 → (fallback = false → gs < w0.toNat / 2 ^ 40 % 65536) → s.tablePoisoned (groupOffset die g) = false → w1.getLsbD 63 = true → 1 ≤ w1.toNat / 65536 % 1024 →
      w1.toNat / 2 ^ 32 % 1024 + w1.toNat / 65536 % 1024 ≤ 768 → 0 < n → n ≤ 256 → n % 64 = 0 → receipt + 8 ≤ 0x180000 →
      (∀ ddev dtile, s.canSend u ddev dtile label 1 = true) →
      ∃ t dtile unit, exec (.rslot p) s = .next t ∧ (t.tile u).asked = (s.tile u).asked.filter (·.tag != q.tag)
        ∧ dtile = w1.toNat / 2 ^ 32 % 1024 + gs % (w1.toNat / 65536 % 1024)
        ∧ unit = ((s.groupWord die g 1).toNat % 2 ^ 28 + gs / (w1.toNat / 65536 % 1024) * (n / 64)) % 2 ^ 28
        ∧ onlyBytes s t (windowPA u receipt) 8 (w1.toNat / 2 ^ 48 % 1024 + dtile * 2 ^ 10 + unit * 2 ^ 20 + w1.toNat % 16 * 2 ^ 48
            + kind * 2 ^ 52 + expert * 2 ^ 54)
        ∧ keeps t u q.op fun k => k.type = 1 ∧ k.ddev.toNat = w1.toNat / 2 ^ 48 % 1024 ∧ k.dtile.toNat = dtile
            ∧ k.label = BitVec.ofNat 16 label ∧ k.lslot.toNat = w1.toNat % 16 ∧ k.off.toNat = unit
            ∧ k.payload = BitVec.ofNat 2048 (row % 2 ^ (8 * n)))
    ∧ (∀ g gs r w, fallback = false → g = (if w0.getLsbD 62 ∧ v % 2 = 1 then w0.toNat / 65536 % 256 else w0.toNat % 256) →
      gs = (if w0.getLsbD 62 then v / 2 else v) → gs < w0.toNat / 2 ^ 40 % 65536 →
      (s.tablePoisoned (groupOffset die g) = true ∧ r = 0x13 ∧ w = groupOffset die g
        ∨ s.tablePoisoned (groupOffset die g) = false ∧ (s.groupWord die g 0).getLsbD 63 = false ∧ r = 2 ∧ w = 7) →
      ∃ t z, exec (.rslot p) s = .next t ∧ t.mem = s.mem ∧ (t.tile u).asked = (s.tile u).asked.filter (·.tag != q.tag)
        ∧ (t.ctx u q.c).traps = (s.ctx u q.c).traps ++ [z] ∧ z.cause = r ∧ z.eng = 1 ∧ z.i3 = BitVec.ofNat 64 q.elem
        ∧ (r = 2 → z.i0 = BitVec.ofNat 64 w))
    ∧ (∀ f gs, fallback = false → gs = (if w0.getLsbD 62 then v / 2 else v) → w0.toNat / 2 ^ 40 % 65536 ≤ gs → f = w0.toNat / 2 ^ 32 % 256 →
      s.tablePoisoned (routeOffset die f) = false → (s.routeWord die f 0).getLsbD 63 = true → ∃ t, exec (.rslot p) s = .next t ∧ t.mem = s.mem
        ∧ awaits t u q.tag { q with use := .slot expert label addr n row bad receipt (s.routeWord die f 0) true }
        ∧ posted s t u (s.planeAfter 71) { s.header 0x07 u s.device (0x3FC + die) 0 with
            len := 1, payload := BitVec.ofNat 2048 (q.tag + f * 2 ^ 16) }))
  -- RED: a contribution, a flush at the home, the word at the contributors
  ∧ (∀ (s : State) (p : Packet) (w : Nat), w = p.payload.toNat / 2 ^ 8 % 8 →
    (p.payload.toNat % 256 = 0 → p.sdev.toNat = s.device → exec (.red p) s = .next s)
    ∧ (p.payload.toNat % 256 = 0 → p.sdev.toNat ≠ s.device → ∃ t m, exec (.red p) s = .next t ∧ t.merged = s.merged ++ [m] ∧ m.w = w ∧ m.dev = p.sdev.toNat
      ∧ m.tile = p.payload.toNat / 2 ^ 32 % 2 ^ 32 ∧ m.word = p.payload.toNat / 2 ^ 64 % 2 ^ 63 ∧ m.op = p.payload.toNat / 2 ^ 16 % 256
      ∧ m.type = p.payload.toNat / 2 ^ 24 % 256 ∧ m.opnd.toNat = p.payload.toNat / 2 ^ 128 % 2 ^ 64 ∧ t.mem = s.mem ∧ t.units = s.units)
    ∧ (p.payload.toNat % 256 = 1 → s.windowHome w = s.device → ∃ t, exec (.red p) s = .next t ∧ t.mem = s.mem ∧ t.units = s.units
      ∧ t.flushes = s.flushes ++ [(w, p.sdev.toNat)]
      ∧ t.inbox = s.inbox ++ (if (s.redwin.look 0 (4 * w + 2)).toNat % 1024 ≤ ((s.flushes.filter (·.1 == w)).length + 1)
          then [.reductionDelivery w] else []))
    ∧ (p.payload.toNat % 256 = 2 → ∃ t, exec (.red p) s = .next t ∧ t.mem = s.mem ∧ t.merged = s.merged.filter (·.w != w)
      ∧ t.delivered = s.delivered ++ [w])
    ∧ (p.payload.toNat % 256 = 3 → ∀ e, s.merged.find? (fun e => e.w == w && e.dev == s.device && e.tile == p.payload.toNat / 2 ^ 32 % 2 ^ 32
        && e.word == p.payload.toNat / 2 ^ 64 % 2 ^ 63) = some e →
      ∃ t z, exec (.red p) s = .next t ∧ t.mem = s.mem ∧ (t.ctx e.tile e.c).traps = (s.ctx e.tile e.c).traps ++ [z] ∧ z.eng = 1
        ∧ z.cause = p.payload.toNat / 2 ^ 128 % 256 ∧ z.i0 = BitVec.ofNat 64 e.va ∧ z.i3 = BitVec.ofNat 64 e.elem))
  ∧ (∀ (s : State) (w n : Nat) (a b x y : Merged) (place : Nat), s.flips = [] → a.word < 2 ^ 40 → s.merged.filter (·.w == w) = [a, b] → a.word = b.word → a.op = b.op →
    a.type = b.type → a.type < 6 → a.op < 6 → place = a.word → n = (if a.type = 2 ∨ a.type = 3 then 8 else 4) →
    (x, y) = (if b.dev < a.dev ∨ (b.dev = a.dev ∧ b.tile < a.tile) then (b, a) else (a, b)) → s.sound place n →
    (∀ phase, s.stampConflict x.tracked 0xFFE phase .atomic place n = none) →
    ∃ t v z, exec (.reductionDelivery w) s = .next t ∧ storedWord x.op x.type x.opnd.toNat y.opnd.toNat 0 v
      ∧ storedWord x.op x.type (readBytes s.mem place n) v 0 z ∧ onlyBytes s t place n z
      ∧ t.merged = s.merged.filter (·.w != w) ∧ t.delivered = s.delivered ++ [w])
  -- FAULT of a packet kept by its sender, of an atomic
  ∧ (∀ (s : State) (p : Packet) (u : Nat) (k : Kept), u = p.dtile.toNat →
    (s.tile u).kept.find? (fun k => k.isFor p.sdev.toNat p.stile.toNat p.label.toNat && k.pkt.seq == p.seq) = some k → k.pkt.type ≠ 3 →
    p.payload.toNat % 256 = 0x14 → ∃ t q, exec (.fault p) s = .next t ∧ t.mem = s.mem ∧ (t.tile u).kept = (s.tile u).kept
      ∧ (t.ctx u k.c).traps = (s.ctx u k.c).traps ++ [q] ∧ q.cause = 0x14 ∧ q.eng = 1 ∧ q.i0 = BitVec.ofNat 64 k.addr
      ∧ q.i1 = BitVec.ofNat 64 (p.label.toNat * 65536 + p.seq.toNat) ∧ q.i2 = BitVec.ofNat 64 (p.payload.toNat / 256 % 256)
      ∧ q.i3 = BitVec.ofNat 64 k.elem
      ∧ ((s.ctx u k.c).access.op = some k.op → (s.ctx u k.c).access.state = 2 → (t.ctx u k.c).access.state = 5))
  ∧ (∀ (s : State) (p : Packet) (u elem va a : Nat) (q : Asked) (ds : List (Nat × Nat × Nat)), u = p.dtile.toNat →
    (s.tile u).kept.find? (fun k => k.isFor p.sdev.toNat p.stile.toNat p.label.toNat && k.pkt.seq == p.seq) = none →
    awaits s u (p.payload.toNat / 65536 % 65536) q → q.use = .values ds → ds[p.seq.toNat]? = some (a, elem, va) →
    p.payload.toNat % 256 = 0x12 → 1 < q.left →
    ∃ t r, exec (.fault p) s = .next t ∧ t.mem = s.mem ∧ awaits t u q.tag { q with left := q.left - 1 }
      ∧ (t.ctx u q.c).traps = (s.ctx u q.c).traps ++ [r] ∧ r.cause = 0x12 ∧ r.eng = 1 ∧ r.i0 = BitVec.ofNat 64 va
      ∧ r.i1 = BitVec.ofNat 64 (p.payload.toNat / 2 ^ 32 % 2 ^ 32) ∧ r.i3 = BitVec.ofNat 64 elem)
  ∧ ∀ (s : State) (p : Packet) (u : Nat) (q : Asked) (dest : Option Nat), u = p.dtile.toNat →
    (s.tile u).kept.find? (fun k => k.isFor p.sdev.toNat p.stile.toNat p.label.toNat && k.pkt.seq == p.seq) = none →
    awaits s u (p.payload.toNat / 65536 % 65536) q → q.use = .result dest → p.payload.toNat % 256 = 0x12 →
    ∃ t r, exec (.fault p) s = .next t ∧ t.mem = s.mem ∧ (t.tile u).asked = (s.tile u).asked.filter (·.tag != q.tag)
      ∧ (t.ctx u q.c).traps = (s.ctx u q.c).traps ++ [r] ∧ r.cause = 0x12 ∧ r.eng = 1 ∧ r.i0 = BitVec.ofNat 64 q.va
      ∧ r.i1 = BitVec.ofNat 64 (p.payload.toNat / 2 ^ 32 % 2 ^ 32) ∧ r.i2 = BitVec.ofNat 64 (p.payload.toNat / 256 % 256)
      ∧ r.i3 = BitVec.ofNat 64 q.elem

namespace Sys2Proof.Claims

/-! ### Circuits -/

/-- No reservation of circuit `cid` is left, and every other one stands. -/
def released (s t : State) (cid : BitVec 26) : Prop :=
  (t.resv = s.resv.filter fun e => e.2.cid != cid) ∧ t.probes = s.probes.filter fun q => q.cid != cid

/-- A hop or plane has an alternative that may be reserved, for `k` slots from set `set` on. -/
def mayReserve (s : State) (g : Segment) (k set : Nat) : Prop := ∃ a ∈ g.alternatives k set, s.isOpen a = true

/-- A probe goes on: `q` is the one of its circuit. -/
def probing (s t : State) (q : Probing) : Prop :=
  t.probes = s.probes.filter (fun e => e.cid != q.cid) ++ [q] ∧ t.mem = s.mem ∧ t.units = s.units

/-- An own probe has failed with a cause, its reservations freed. -/
def probeFails (s t : State) (p : Packet) (cause : Nat) : Prop :=
  released s t (BitVec.ofNat 26 (p.payload.toNat / 2 ^ 80 % 2 ^ 26)) ∧ keepsContexts s t
  ∧ dispatched s t (s.circuitPacket 0x11 p.dtile.toNat p.sdev.toNat p.stile.toNat (p.payload.toNat / 2 ^ 80 % 2 ^ 26) cause 0 0 0 0)

/-- The CMARK of a teardown is kept for its sender: A, `n` beats, the circuit (log entry 41). -/
def lastMark (s t : State) (u ddev dtile label n : Nat) (cid : BitVec 26) : Prop :=
  s.canSend u ddev dtile label 1 = true → keeps t u 0 fun q => q.type = 0x12 ∧ q.fA = true ∧ q.ddev = BitVec.ofNat 10 ddev
    ∧ q.dtile = BitVec.ofNat 10 dtile ∧ q.label = BitVec.ofNat 16 label ∧ q.payload = BitVec.ofNat 2048 (n + cid.toNat * 2 ^ 32)

/-- The release of a circuit leaves its sender: to a tile of this module in the next cycle, else by the circuit's plane. -/
def freed (s t : State) (ddev : Nat) (cid : BitVec 26) (q : Packet) : Prop :=
  if ddev = s.device then (s.cycle + 1, .free q) ∈ t.agenda
  else ∀ plane, s.circuitPlane cid = some plane → .packet s.cycle plane q ∈ t.out

/-- The circuit of `cid` at its receiver. -/
def bound (s : State) (u : Nat) (cid : BitVec 26) (r : RxCircuit) : Prop := (s.tile u).rxc.find? (·.cid == cid) = some r

/-- The numbers of a table rise. -/
def risingKeys {α : Type} (t : Tab α) : Prop := t.Pairwise fun a b => a.1 < b.1

end Sys2Proof.Claims

/-- 10 R311 to R317, R319 to R322; 12 R362, R363; 14 R398: a probe reserves its path hop by hop and is answered; the
answer opens or fails its circuit; timers end what they bound; a beat departs, arrives at the running unit or
deviates; a teardown frees the path, and what did not commit is sent again in packets.

Packet layouts that the spec leaves open are the model's (log entry 9), and so are the choices of log entry 46. -/
def Obligations.CircuitEventResults : Prop :=
  -- PROBE: to a tile of its module, to another module by the first plane with a free slot set, from another module
  (∀ (s : State) (p : Packet) (u v k : Nat) (q : Probing), u = p.stile.toNat → v = p.payload.toNat % 65536 % 1024 →
    k = max 1 (p.payload.toNat / 2 ^ 16 % 256) →
    q = { pkt := p, ahead := [], limit := some (s.backsAllowed u (circuitSource (p.payload.toNat / 2 ^ 80 % 2 ^ 32))) } →
    (p.sdev.toNat = s.device → p.ddev.toNat = s.device → v < 768 → ∃ t, exec (.probe p) s = .next t ∧ t.resv = s.resv
      ∧ probing s t { q with ahead := pathIn u v })
    ∧ (p.sdev.toNat = s.device → p.ddev.toNat = s.device → 768 ≤ v → ∃ t, exec (.probe p) s = .next t ∧ probeFails s t p 6)
    ∧ (∀ before n after, p.sdev.toNat = s.device → p.ddev.toNat ≠ s.device → planeOrder (dieOf u) = before ++ n :: after →
      (∀ m ∈ before, ¬ mayReserve s (.fabric m) k 0) → mayReserve s (.fabric n) k 0 → ∃ t, exec (.probe p) s = .next t ∧ t.resv = s.resv
        ∧ probing s t { q with ahead := pathOut u n, plane := some n, planes := after })
    ∧ (p.sdev.toNat = s.device → p.ddev.toNat ≠ s.device → (∀ m ∈ planeOrder (dieOf u), ¬ mayReserve s (.fabric m) k 0) →
      ∃ t, exec (.probe p) s = .next t ∧ probeFails s t p 5)
    ∧ (p.sdev.toNat ≠ s.device → v < 768 → ∃ t, exec (.probe p) s = .next t ∧ t.resv = s.resv
      ∧ probing s t { pkt := p, ahead := pathIn (portTile p.via) v })
    ∧ (p.sdev.toNat ≠ s.device → 768 ≤ v → ∃ t, exec (.probe p) s = .next t ∧ t.resv = s.resv ∧ keepsContexts s t
      ∧ dispatched s t (s.circuitPacket 0x11 p.dtile.toNat p.sdev.toNat u (p.payload.toNat / 2 ^ 80 % 2 ^ 26) 6 0 0 0 0)))
  -- a hop of a probe: it reserves its first open alternative, unless the table has granted one in this cycle, or goes back
  ∧ (∀ (s : State) (granted : List Nat) (q : Probing) (g : Segment) (rest : List Segment) (alts : List Alternative), s.circuitFrozen q.cid = false →
    q.ahead = g :: rest → alts = g.alternatives (max 1 (q.pkt.payload.toNat / 2 ^ 16 % 256)) q.set →
    (∀ i a, alts[i]? = some a → q.from_ ≤ i → s.isOpen a = true →
      (∀ j b, q.from_ ≤ j → j < i → alts[j]? = some b → s.isOpen b = false) →
      (a.table ∈ granted → ∃ m, s.moveProbe granted q = (m, granted) ∧ m.resv = s.resv ∧ probing s m q)
      ∧ (a.table ∉ granted → ∃ m, s.moveProbe granted q = (m, a.table :: granted)
        ∧ probing s m { q with ahead := rest, behind := (g, i, q.set) :: q.behind, from_ := 0, set := a.set }
        ∧ ∀ n, m.resv.find n = if n ∈ a.entries then some { state := 1, cid := q.cid } else s.resv.find n))
    ∧ ((∀ i a, alts[i]? = some a → q.from_ ≤ i → s.isOpen a = false) →
      (∀ g' i set behind a, q.behind = (g', i, set) :: behind → (∀ l, q.limit = some l → q.backs + 1 ≤ l) →
        (g'.alternatives (max 1 (q.pkt.payload.toNat / 2 ^ 16 % 256)) set)[i]? = some a →
        ∃ m, s.moveProbe granted q = (m, granted)
          ∧ probing s m { q with backs := q.backs + 1, ahead := g' :: g :: rest, behind := behind, from_ := i + 1, set := set }
          ∧ m.resv = s.resv.filter fun e => !a.entries.contains e.1)
      ∧ (∀ l, q.behind ≠ [] → q.limit = some l → l < q.backs + 1 → ∃ m, s.moveProbe granted q = (m, granted) ∧ probeFails s m q.pkt 5)
      ∧ (q.behind = [] → q.pkt.sdev.toNat = s.device → q.plane = none →
        ∃ m, s.moveProbe granted q = (m, granted) ∧ probeFails s m q.pkt 5)
      ∧ (q.behind = [] → q.pkt.sdev.toNat ≠ s.device → ∃ m, s.moveProbe granted q = (m, granted) ∧ m.resv = s.resv
        ∧ m.probes = s.probes ∧ keepsContexts s m
        ∧ dispatched s m (s.circuitPacket 0x0F q.pkt.dtile.toNat q.pkt.sdev.toNat q.pkt.stile.toNat q.cid.toNat 0 0 0
            (q.pkt.payload.toNat / 2 ^ 24 % 256) 0))))
  -- a probe at its end within the module: its circuit is bound and answered READY, or FAIL where the slot is not one for it
  ∧ (∀ (s : State) (granted : List Nat) (q : Probing) (p : Packet) (u v : Nat) (c : Bool) (l : LandingSlot), s.circuitFrozen q.cid = false →
    q.ahead = [] → p = q.pkt → p.sdev.toNat = s.device → q.plane = none → u = p.stile.toNat → v = p.payload.toNat % 65536 % 1024 →
    v < 768 → c = p.label.getLsbD 15 → l = (s.ctx v c).slots.look {} p.lslot.toNat →
    (l.space = 0 → l.perm % 2 = 1 → (s.ctx v c).life = .running → ∃ m r, s.moveProbe granted q = (m, granted) ∧ m.resv = s.resv ∧ m.mem = s.mem
      ∧ bound m v q.cid r ∧ r.c = c ∧ r.slot = p.lslot.toNat ∧ r.label = p.label.toNat ∧ r.sdev = s.device ∧ r.stile = u
      ∧ r.torn = false ∧ r.pre = [] ∧ r.runUnit = p.payload.toNat / 2 ^ 48 % 2 ^ 28 ∧ r.wrap = p.payload.toNat / 2 ^ 32 % 65536
      ∧ dispatched s m (s.circuitPacket 0x10 (0x3FC + v / 192) s.device u q.cid.toNat 0
          (if dieOf u = dieOf v then 0 else max 1 (p.payload.toNat / 2 ^ 16 % 256)) 0xFF 0 (pathCycles u v + s.linkLatency q.cid)))
    ∧ (l.space ≠ 0 ∨ l.perm % 2 = 0 → ∃ m, s.moveProbe granted q = (m, granted) ∧ released s m q.cid ∧ keepsContexts s m
      ∧ dispatched s m (s.circuitPacket 0x11 (0x3FC + v / 192) s.device u q.cid.toNat 6 0 0 0 0)))
  -- BACK beyond the backtracks allowed
  ∧ (∀ (s : State) (p : Packet) (src : CircuitSource) (cid : BitVec 26), cid = BitVec.ofNat 26 (p.payload.toNat % 2 ^ 32) →
    src = circuitSource cid.toNat → (s.probeOf p.dtile.toNat src).payload.toNat / 2 ^ 80 = cid.toNat →
    (s.probeOf p.dtile.toNat src).payload.toNat % 2 ^ 80 < 2 ^ 79 →
    s.backsAllowed p.dtile.toNat src < p.payload.toNat / 2 ^ 56 % 256 + 1 → ∃ t q, exec (.back p) s = .next t ∧ released s t cid
      ∧ keepsContexts s t ∧ dispatched s t q ∧ q.type = 0x11 ∧ q.dtile = p.dtile ∧ q.payload.toNat % 2 ^ 32 = cid.toNat
      ∧ q.payload.toNat / 2 ^ 32 % 256 = 5)
  -- READY
  ∧ (∀ (s : State) (p : Packet) (u : Nat) (cid : BitVec 26), u = p.dtile.toNat → cid = BitVec.ofNat 26 (p.payload.toNat % 2 ^ 32) →
    (∀ k, circuitSource cid.toNat = .meter k → s.ended = false → exec (.ready p) s = .next { s with atEnd := s.atEnd ++ [.ready p] })
    ∧ (∀ k, circuitSource cid.toNat = .meter k → s.ended = true → (s.meter u k).state = 2 → ∃ t, exec (.ready p) s = .next t ∧ t.mem = s.mem
      ∧ (t.meter u k).state = 4 ∧ (t.meter u k).handoff = true ∧ (t.meter u k).timer = (s.tile u).param 4
      ∧ (t.meter u k).latency = p.payload.toNat / 2 ^ 64 % 2 ^ 32 + s.wayOut u cid ∧ (t.meter u k).count = (s.meter u k).count
      ∧ (∀ n r, t.resv.find n = some r → r.cid = cid → r.state = 2) ∧ ∀ n, (t.resv.find n).map (·.cid) = (s.resv.find n).map (·.cid))
    ∧ ∀ c h, circuitSource cid.toNat = .handle c h →
      ((s.handle u c h).state = 1 → ∃ t, exec (.ready p) s = .next t ∧ t.mem = s.mem ∧ (t.handle u c h).state = 2
        ∧ (t.handle u c h).nslot = p.payload.toNat / 2 ^ 40 % 256 ∧ (t.handle u c h).latency = p.payload.toNat / 2 ^ 64 % 2 ^ 32 + s.wayOut u cid
        ∧ (t.handle u c h).runUnit = (s.handle u c h).offset ∧ (t.handle u c h).lease = (s.handle u c h).lease
        ∧ (∀ n r, t.resv.find n = some r → r.cid = cid → r.state = 2))
      ∧ ((s.handle u c h).state ≠ 1 → ∃ t, exec (.ready p) s = .next t ∧ keepsContexts s t ∧ released s t cid
        ∧ dispatched s t (s.circuitPacket 0x15 u p.sdev.toNat p.stile.toNat cid.toNat 0 0 0 0 0)))
  -- FAIL
  ∧ (∀ (s : State) (p : Packet) (u : Nat) (cid : BitVec 26), u = p.dtile.toNat → cid = BitVec.ofNat 26 (p.payload.toNat % 2 ^ 32) →
    (∀ k, circuitSource cid.toNat = .meter k → s.ended = false → exec (.fail p) s = .next { s with atEnd := s.atEnd ++ [.fail p] })
    ∧ (∀ k, circuitSource cid.toNat = .meter k → s.ended = true → (s.meter u k).state = 2 →
      ∃ t, exec (.fail p) s = .next t ∧ t.mem = s.mem ∧ released s t cid ∧ (t.meter u k).state = 3 ∧ (t.meter u k).timer = (s.tile u).param 3)
    ∧ (∀ k cause, circuitSource cid.toNat = .meter k → s.ended = true → (s.meter u k).state = 4 → cause = p.payload.toNat / 2 ^ 32 % 256 →
      cause = 4 ∨ cause = 6 ∨ cause = 7 → ∃ t, exec (.fail p) s = .next t ∧ t.mem = s.mem
        ∧ released s t (circuitId s.device u (.meter k)) ∧ (t.meter u k).state = 3 ∧ (t.meter u k).timer = (s.tile u).param 3
        ∧ (t.meter u k).tearing = true)
    ∧ (∀ c h cause, circuitSource cid.toNat = .handle c h → (s.handle u c h).state = 2 → cause = p.payload.toNat / 2 ^ 32 % 256 →
      cause = 4 ∨ cause = 7 → ∃ t, exec (.fail p) s = .next t ∧ t.mem = s.mem ∧ released s t (circuitId s.device u (.handle c h))
        ∧ (t.handle u c h).state = 4 ∧ (t.handle u c h).cause = cause ∧ (t.handle u c h).tearing = true)
    ∧ ∀ c h, circuitSource cid.toNat = .handle c h → (s.handle u c h).state = 1 → ∃ t, exec (.fail p) s = .next t ∧ t.mem = s.mem
      ∧ released s t cid ∧ (t.handle u c h).state = 5 ∧ (t.handle u c h).cause = p.payload.toNat / 2 ^ 32 % 256)
  -- FREE
  ∧ (∀ (s : State) (p : Packet) (u : Nat) (cid : BitVec 26), u = p.dtile.toNat → u < 768 → cid = BitVec.ofNat 26 (p.payload.toNat % 2 ^ 32) →
    ∃ t, exec (.free p) s = .next t ∧ t.mem = s.mem ∧ released s t cid ∧ (∀ w d, t.ctx w d = s.ctx w d)
      ∧ (t.tile u).rxc = (s.tile u).rxc.map fun r => if r.cid = cid then { r with torn := true } else r)
  -- CIRCUIT_DEPARTURE of a beat, within the module
  ∧ (∀ (s : State) (u run : Nat) (r : TxRun) (v : BitVec 512) (bad : BitVec 8) (place : Nat × Nat), (s.tile u).runs.find run = some r →
    r.torn = false → (s.ctx u r.c).frozen = false → r.late = false → r.source = [] → r.data[r.sent]? = some (v, bad, place) → r.ddev = s.device →
    (∀ w, r.word = some w → r.sent ≠ 0 ∨ w ≤ (s.ctx u r.c).localCycle) →
    ∃ t r', exec (.circuitDeparture u run) s = .next t ∧ t.mem = s.mem ∧ (t.tile u).runs.find run = some r' ∧ r'.sent = r.sent + 1
      ∧ (s.cycle + 1 + s.circuitLatency u r.src, .circuitBeat r.dtile (circuitId s.device u r.src) r.number v bad false) ∈ t.agenda)
  -- a beat whose bytes may not be read deviates
  ∧ (∀ (s : State) (u run h : Nat) (r : TxRun) (ps : List (Nat × Nat)), (s.tile u).runs.find run = some r → r.torn = false →
    (s.ctx u r.c).frozen = false → r.late = false → r.source[r.sent]? = some ps → r.src = .handle r.c h → s.flips = [] →
    (∀ w, r.word = some w → r.sent ≠ 0 ∨ w ≤ (s.ctx u r.c).localCycle) → (∃ p ∈ ps, s.mayTransfer u r.c p.1 p.2 = false) →
    ∃ t q, exec (.circuitDeparture u run) s = .next t ∧ t.mem = s.mem ∧ (t.tile u).runs.find run = none
      ∧ (t.ctx u r.c).traps = (s.ctx u r.c).traps ++ [q] ∧ q.cause = 0x1A ∧ q.i0 = BitVec.ofNat 64 h ∧ q.i1 = BitVec.ofNat 64 r.sent
      ∧ q.i2 = 1)
  -- CIRCUIT_BEAT
  ∧ (∀ (s : State) (u n pa : Nat) (cid : BitVec 26) (v : BitVec 512) (r : RxCircuit) (l : LandingSlot), bound s u cid r →
    l = (s.ctx u r.c).slots.look {} r.slot → n ≤ r.number → r.anchored = true → r.pre = [] → r.reported = false → s.slotOpen u r.c r.slot 0 = true →
    l.space = 0 → r.runUnit < l.limit → s.mayLand u r.c (l.base + 64 * r.runUnit) 64 = true → r.uncounted = 0 →
    (s.ctx u r.c).landed.look 0 r.slot + 64 * (r.runBeats % 16) + 64 ≤ l.expect → (∀ q ∈ (s.tile u).rx, q.waiting = []) →
    pa = windowPA u (l.base + 64 * r.runUnit) →
    ∃ t r', exec (.circuitBeat u cid n v 0 false) s = .next t ∧ onlyBytes s t pa 64 v.toNat ∧ bound t u cid r' ∧ r'.runBeats = r.runBeats + 1
      ∧ r'.runUnit = (if r.wrap = 0 then r.runUnit + 1 else (r.runUnit + 1) % r.wrap)
      ∧ r'.groups = r.groups + (if (r.runBeats + 1) % 16 = 0 then 1 else 0)
      ∧ (t.ctx u r.c).landed.look 0 r.slot = (s.ctx u r.c).landed.look 0 r.slot + (if (r.runBeats + 1) % 16 = 0 then 1024 else 0)
      ∧ ((r.runBeats + 1) % 16 = 0 → posted s t u (s.planeAfter 71) { s.header 0x0C u r.sdev r.stile r.label with
          len := 1, payload := BitVec.ofNat 2048 (r.groups + 1 + cid.toNat * 2 ^ 32) }))
  ∧ (∀ (s : State) (u n : Nat) (cid : BitVec 26) (v : BitVec 512) (bad : BitVec 8) (r : RxCircuit), bound s u cid r →
    ((∃ t q, exec (.circuitBeat u cid n v bad true) s = .next t ∧ t.mem = s.mem ∧ (t.ctx u r.c).traps = (s.ctx u r.c).traps ++ [q]
      ∧ q.cause = 0x1A ∧ q.eng = 1 ∧ q.i0 = BitVec.ofNat 64 (r.sdev * 65536 + r.stile) ∧ q.i1 = cid.setWidth 64 ∧ q.i3 = 1)
    ∧ (r.number < n → r.pre.length < 256 → ((s.tile u).rxc.map fun q => q.pre.length).foldl (· + ·) 0 < 1024 →
      ∃ t r', exec (.circuitBeat u cid n v bad false) s = .next t ∧ t.mem = s.mem ∧ bound t u cid r' ∧ r'.pre = r.pre ++ [(n, v, bad)])
    ∧ (r.number < n → 256 ≤ r.pre.length → ∃ t r', exec (.circuitBeat u cid n v bad false) s = .next t ∧ t.mem = s.mem ∧ bound t u cid r'
      ∧ r'.pre = [] ∧ (if r.sdev = s.device then .fail (s.circuitPacket 0x11 u r.sdev r.stile cid.toNat 7 0 0 0 0) ∈ t.inbox
        else posted s t u (s.planeAfter 71) (s.circuitPacket 0x11 u r.sdev r.stile cid.toNat 7 0 0 0 0)))))
  -- CIRCUIT_TEARDOWN of a handle by its software, with no run outstanding; METER_IDLE_EXPIRY; LEASE_EXPIRY
  ∧ (∀ (s : State) (u h : Nat) (c : Bool) (cid : BitVec 26) (e : Handle) (q : Packet), (s.tile u).runsOf (.handle c h) = [] →
    cid = circuitId s.device u (.handle c h) → e = s.handle u c h →
    (e.state = 2 → q = s.circuitPacket 0x15 u e.ddev e.dtile cid.toNat 2 0 0 0 0 →
      ∃ t, exec (.circuitTeardown u (.handle c h) 2) s = .next t ∧ t.mem = s.mem
        ∧ t.handle u c h = { e with state := 3, cause := 2, tearing := true } ∧ released s t cid
        ∧ freed s t e.ddev cid q ∧ (t.ctx u c).traps = (s.ctx u c).traps ∧ lastMark s t u e.ddev e.dtile e.label 0 cid)
    ∧ (e.state = 2 → q = s.circuitPacket 0x15 u e.ddev e.dtile cid.toNat 1 0 0 0 0 →
      ∃ t, exec (.leaseExpiry u c h) s = .next t ∧ t.mem = s.mem ∧ t.handle u c h = { e with state := 4, cause := 1, tearing := true }
        ∧ released s t cid ∧ freed s t e.ddev cid q ∧ (t.ctx u c).traps = (s.ctx u c).traps
        ∧ lastMark s t u e.ddev e.dtile e.label 0 cid)
    ∧ (e.state = 1 → ∃ t, exec (.leaseExpiry u c h) s = .next t ∧ t.mem = s.mem ∧ t.handle u c h = { e with state := 5, cause := 1 }
        ∧ released s t cid ∧ (t.ctx u c).traps = (s.ctx u c).traps))
  ∧ (∀ (s : State) (u k : Nat) (cid : BitVec 26) (m : Meter) (q : Packet), (s.tile u).runsOf (.meter k) = [] → m = s.meter u k →
    m.state = 4 → cid = circuitId s.device u (.meter k) → q = s.circuitPacket 0x15 u m.ddev m.dtile cid.toNat 0 0 0 0 0 →
    ∃ t, exec (.meterIdleExpiry u k) s = .next t ∧ t.mem = s.mem ∧ t.meter u k = {} ∧ released s t cid
      ∧ freed s t m.ddev cid q ∧ lastMark s t u m.ddev m.dtile m.label 0 cid ∧ ∀ n, n ≠ k → t.meter u n = s.meter u n)
  -- a run that stands when its circuit is torn: its CMARK carries the beats sent
  ∧ (∀ (s : State) (u h run cause : Nat) (c : Bool) (cid : BitVec 26) (e : Handle) (r : TxRun), (s.tile u).runsOf (.handle c h) = [(run, r)] →
    cid = circuitId s.device u (.handle c h) → e = s.handle u c h → e.state = 2 → r.ended = false →
    ∃ t, exec (.circuitTeardown u (.handle c h) cause) s = .next t ∧ t.mem = s.mem ∧ released s t cid
      ∧ (t.handle u c h).tearing = true ∧ lastMark s t u e.ddev e.dtile r.label r.sent cid
      ∧ ∀ r', (t.tile u).runs.find run = some r' → (s.tile u).runs.find run = some r → r' = { r with torn := true, ended := true })
  -- CREPORT: the beats behind the committed groups go again as packets
  ∧ (∀ (s : State) (p : Packet) (u id g f h skip : Nat) (c : Bool) (r : TxRun) (v : BitVec 512) (place : Nat × Nat), u = p.dtile.toNat →
    g = p.payload.toNat / 2 ^ 32 % 2 ^ 32 → f = p.payload.toNat / 2 ^ 64 % 2 ^ 32 → circuitSource (p.payload.toNat % 2 ^ 32) = .handle c h →
    ((s.tile u).runsOf (.handle c h)).filter (·.2.torn) = [(id, r)] → (∀ ddev dtile label, s.canSend u ddev dtile label 1 = true) →
    r.source = [] → skip = (if r.number = f then 16 * g else 0) → r.data.length = skip + 1 → r.data[skip]? = some (v, 0, place) →
    r.wrap = 0 → r.unit + skip < 2 ^ 28 → r.dtile < 1024 → r.lslot < 16 →
    ∃ t, exec (.creport p) s = .next t ∧ t.mem = s.mem ∧ (t.tile u).runs = (s.tile u).runs.filter (·.1 != id)
      ∧ (r.number < f → (t.tile u).kept = (s.tile u).kept)
      ∧ (f ≤ r.number → keeps t u r.op fun q => q.type = 1 ∧ q.dtile.toNat = r.dtile ∧ q.lslot.toNat = r.lslot ∧ q.off.toNat = r.unit + skip
          ∧ q.payload = v.setWidth 2048))
  ∧ (∀ (s : State) (p : Packet) (u g h : Nat) (c : Bool) (e : Handle), u = p.dtile.toNat → g = p.payload.toNat / 2 ^ 32 % 2 ^ 32 →
    circuitSource (p.payload.toNat % 2 ^ 32) = .handle c h → ((s.tile u).runsOf (.handle c h)).filter (·.2.torn) = [] → e = s.handle u c h →
    ∃ t, exec (.creport p) s = .next t ∧ t.mem = s.mem ∧ t.handle u c h = (if e.state = 3 then {} else if e.tearing then
        { e with groups := g, tearing := false } else e)
      ∧ (e.tearing = false ∨ e.cause = 0 ∨ e.cause = 2 → (t.ctx u c).traps = (s.ctx u c).traps)
      ∧ (e.tearing = true → e.cause = 1 ∨ e.cause = 4 ∨ e.cause = 7 → ∃ z, (t.ctx u c).traps = (s.ctx u c).traps ++ [z] ∧ z.cause = 0x1C
        ∧ z.i0 = BitVec.ofNat 64 h ∧ z.i1 = BitVec.ofNat 64 g ∧ z.i2 = BitVec.ofNat 64 e.cause))
  -- timers
  ∧ (∀ (s : State) (u k : Nat),
    ((s.meter u k).state = 3 → exec (.holdoffExpiry u k) s = .next (s.modMeter u k fun m => { m with state := 1 }))
    ∧ ((s.meter u k).state ≠ 3 → exec (.holdoffExpiry u k) s = .next s)
    ∧ ((s.meter u k).state = 2 → exec (.meterProbeTimeout u k) s
        = .next (s.modMeter u k fun m => { m with state := 3, timer := (s.tile u).param 3 }))
    ∧ ((s.meter u k).state ≠ 2 → exec (.meterProbeTimeout u k) s = .next s))
  ∧ (∀ (s : State) (u h : Nat) (c : Bool), (s.handle u c h).state = 1 →
    exec (.handleProbeTimeout u c h) s = .next (s.modHandle u c h fun e => { e with state := 5, cause := 9 }))
  ∧ (∀ (s : State) (n : Nat) (r : Reservation), s.resv.find n = some r →
    (r.state = 1 → ∃ t, exec (.reservationTimeout n) s = .next t ∧ t.resv = s.resv.filter (·.1 != n) ∧ t.units = s.units ∧ t.mem = s.mem)
    ∧ (r.state ≠ 1 → exec (.reservationTimeout n) s = .next s))
  ∧ ∀ (s : State) (u : Nat), risingKeys (s.tile u).meters → ∃ t, exec (.meterDecay u) s = .next t ∧ t.mem = s.mem
    ∧ ∀ k m, (s.tile u).meters.find k = some m → ((s.tile u).ctx m.c).frozen = false →
      ((m.state = 1 ∨ m.state = 3) → 2 ≤ m.count → (t.tile u).meters.find k = some { m with count := m.count / 2 })
      ∧ (m.state = 1 → m.count < 2 → (t.tile u).meters.find k = none)
      ∧ (m.state = 2 ∨ m.state = 4 → (t.tile u).meters.find k = some m)

namespace Sys2Proof.Claims

/-! ### Phases and whistles -/

/-- The boundary unit of job slot `j` may work: the job is open, the unit is not frozen, no boundary is being completed. -/
def boundaryIdle (s : State) (j : Nat) : Prop := (s.job j).opened = true ∧ (s.job j).held = false ∧ (s.job j).sequence = false

/-- The steps of the boundary of job slot `j` are under way, to be made at cycle `at_`. -/
def inSequence (s t : State) (j at_ : Nat) : Prop :=
  (t.job j).sequence = true ∧ (t.job j).phase = (s.job j).phase ∧ (at_, .boundarySequence j) ∈ t.agenda ∧ t.mem = s.mem ∧ t.units = s.units

/-- A bank register after a boundary (07 R209): toward an exchange phase, or with EVERY where ROLE is not STAGE, ROLE takes NEXT and
with AUTO NEXT takes the old ROLE; nothing else changes. -/
def turned (w v : Word) (toExchange : Bool) : Prop :=
  (∀ k, ¬ (4 ≤ k ∧ k < 7) → ¬ (8 ≤ k ∧ k < 11) → v.getLsbD k = w.getLsbD k)
  ∧ (if toExchange = true ∨ (w.getLsbD 7 = true ∧ w.extractLsb' 4 3 ≠ 3) then
      v.extractLsb' 4 3 = w.extractLsb' 8 3 ∧ v.extractLsb' 8 3 = (if w.getLsbD 11 then w.extractLsb' 4 3 else w.extractLsb' 8 3)
    else v = w)

/-- A context of a tile has been caught by a freeze (04 R110): its queue stands in the saved registers, what they held in copies. -/
def caught (x y : Ctx) : Prop :=
  y.frozen = true ∧ y.epc = x.queue.f0.word ∧ y.enpc = x.queue.f1.word ∧ y.ennpc = x.queue.f2.word
  ∧ y.ebits = x.queue.annulBits ||| (x.ebits &&& 8) ||| BitVec.ofNat 64 (x.ust % 256 * 256)
  ∧ y.ustate0 = x.partial0 ∧ y.ustate1 = x.partial1 ∧ y.hidden = some {
      epc := x.epc, enpc := x.enpc, ennpc := x.ennpc, ebits := x.ebits, ustate0 := x.ustate0, ustate1 := x.ustate1 }
  ∧ (∀ n, y.readS n = x.readS n) ∧ y.p = x.p ∧ y.v = x.v ∧ y.m = x.m ∧ y.queue = x.queue

/-- The running context of tile `u` belongs to the job in slot `j`, takes part in its phases and is not frozen. -/
def takes (s : State) (j u : Nat) (x : Ctx) : Prop :=
  u < 768 ∧ x = s.ctx u (s.tile u).run ∧ x.takesPart = true ∧ x.jobId = (s.job j).id ∧ x.frozen = false ∧ x.hidden = none

/-- A whistle packet that this module has not yet acted on, for the job in slot `j`. -/
def firstSeen (s : State) (p : Packet) (j kind : Nat) : Prop :=
  s.jobSlot (BitVec.ofNat 32 (p.payload.toNat % 2 ^ 32)) = some j ∧ p.payload.toNat / 2 ^ 32 % 256 = kind
  ∧ p.payload.toNat / 2 ^ 144 % 1024 ≠ s.device
  ∧ (kind, p.payload.toNat / 2 ^ 144 % 1024, p.payload.toNat / 2 ^ 48 % 1024, p.payload.toNat / 2 ^ 64 % 2 ^ 64,
      p.payload.toNat / 2 ^ 128 % 65536) ∉ (s.job j).seen

end Sys2Proof.Claims

/-- 01 R23 to R28, R34, R36; 03 R93, R94; 04 R104; 07 R209; 11 R329; 13 R365, R383: a boundary whose conditions hold is
completed three cycles on, after the minimum pair, or on the switch's release; its steps rotate banks, commit flags
and count the phase; the start pulse begins the local phase; a straggler is whistled.

Where the rules leave a cycle open, the model's choices are those of log entries 13 and 32. -/
def Obligations.PhaseEventResults : Prop :=
  (∀ (s : State) (j : Nat), boundaryIdle s j →
    ((s.job j).conditionsAt = none → s.spansModules (s.job j).id = false →
      ((s.job j).phase % 2 = 0 ∨ (s.job j).lastStart + 3396 ≤ s.cycle → ∃ t, exec (.boundaryConditionsMet j) s = .next t
        ∧ inSequence s t j (s.cycle + 3) ∧ (t.job j).conditionsAt = some s.cycle)
      ∧ ((s.job j).phase % 2 = 1 → s.cycle < (s.job j).lastStart + 3396 → ∃ t, exec (.boundaryConditionsMet j) s = .next t
        ∧ (t.job j).sequence = false ∧ ((s.job j).lastStart + 3396, .minimumPairExpiry j) ∈ t.agenda ∧ t.units = s.units))
    ∧ ((s.job j).conditionsAt = none → s.spansModules (s.job j).id = true → (s.job j).released = false → (s.job j).flitSent = false →
      s.planeUp (s.job j).bplane = true → ∃ t p d, exec (.boundaryConditionsMet j) s = .next t ∧ (t.job j).flitSent = true
        ∧ (t.job j).sequence = false ∧ .packet d (s.job j).bplane p ∈ t.out ∧ p.type = 0x16 ∧ p.ddev = BitVec.ofNat 10 (s.job j).dgrp
        ∧ p.payload.toNat = (s.job j).id.toNat ∧ t.units = s.units)
    ∧ ((s.job j).conditionsAt.isSome = true → (s.job j).phase % 2 = 1 → ∃ t, exec (.minimumPairExpiry j) s = .next t
      ∧ inSequence s t j (s.cycle + 3))
    ∧ ((s.job j).conditionsAt.isSome = true → (s.conditionsHold j = true → ∃ t, exec (.timedBoundaryTime j) s = .next t
        ∧ inSequence s t j (s.cycle + 2))
      ∧ (s.conditionsHold j = false → exec (.timedBoundaryTime j) s = .next { s with inbox := s.inbox ++ [.stragglerFault j] })))
  ∧ (∀ (s : State) (p : Packet) (j : Nat), s.jobSlot (BitVec.ofNat 32 (p.payload.toNat % 2 ^ 32)) = some j → boundaryIdle s j →
    (s.job j).flitSent = true → (s.job j).released = false → (s.job j).begun = true → (s.job j).conditionsAt.isSome = true →
    (s.job j).phase % 2 = 0 → ∃ t, exec (.barrier p) s = .next t ∧ inSequence s t j (s.cycle + 3) ∧ (t.job j).released = true)
  -- the steps of a boundary
  ∧ (∀ (s : State) (j u : Nat) (x y : Ctx) (c : Bool), risingKeys s.units → (s.job j).opened = true → (s.job j).sequence = true →
    (s.job j).held = false → (s.job j).suspended = false → (s.job j).armed = none → (∀ v d, (s.ctx v d).tend = false) →
    (∀ e ∈ s.placed, e.2.tiles ≠ []) →
    u ∈ s.units.map (·.1) → takes s j u x → x.life = .running → c = (s.tile u).run →
    ∃ t, exec (.boundarySequence j) s = .next t ∧ t.mem = s.mem ∧ (t.job j).phase = (s.job j).phase + 1 ∧ (t.job j).sequence = false
      ∧ (y = t.ctx u c → y.fflags = x.fflags ||| x.fpend ∧ y.fpend = 0 ∧ y.slipCommitted = min (2 ^ 32 - 1) (x.slipCommitted + x.slipPending)
        ∧ y.slipPending = 0 ∧ y.nanCommitted = min (2 ^ 32 - 1) (x.nanCommitted + x.nanPending) ∧ y.nanPending = 0
        ∧ y.infCommitted = min (2 ^ 32 - 1) (x.infCommitted + x.infPending) ∧ y.infPending = 0
        ∧ y.satCommitted = min (2 ^ 32 - 1) (x.satCommitted + x.satPending) ∧ y.satPending = 0 ∧ y.phend = false ∧ y.arrived = false
        ∧ (∀ n, y.readS n = x.readS n) ∧ y.p = x.p ∧ y.v = x.v ∧ y.m = x.m ∧ y.queue = x.queue
        ∧ ((s.job j).phase % 2 = 1 → y.landed = []))
      ∧ (∀ b, b < 24 → (s.tile u).bankOwner b = c →
        turned ((s.tile u).banks.look 0 b) ((t.tile u).banks.look 0 b) (decide ((s.job j).phase % 2 = 0)))
      ∧ (s.cycle + 1 + pulseDelay u, .startPulseArrival j u) ∈ t.agenda)
  -- the start pulse
  ∧ (∀ (s : State) (j u : Nat) (x : Ctx) (c : Bool), (s.job j).opened = true → c = (s.tile u).run → x = s.ctx u c →
    x.jobId = (s.job j).id →
    (x.frozen = true → exec (.startPulseArrival j u) s = .next (s.modCtx u c fun x => { x with pulseLeft := some 0 }))
    ∧ (x.frozen = false → ∃ t y, exec (.startPulseArrival j u) s = .next t ∧ y = t.ctx u c ∧ t.mem = s.mem ∧ y.life = .running
      ∧ y.localCycle = 0 ∧ y.deadline = 0 ∧ y.pulseDue = false ∧ y.stall = 0 ∧ (∀ e, (y.strip e).stall = 0)
      ∧ (∀ n, y.readS n = x.readS n) ∧ y.p = x.p ∧ y.v = x.v ∧ y.m = x.m
      ∧ ((s.job j).phase % 2 = 0 → y.budgetNow = x.budget.toNat ∧ y.opening.isSome = true)
      ∧ ((s.job j).phase % 2 = 1 → y.budgetNow = x.budgetNow ∧ y.opening = x.opening)
      ∧ (x.life ≠ .waiting → x.tend = false → x.atPhend = true → y.queue.f0.pos = (s.refresh u c x.queue).f1.pos ∧ y.atPhend = false)
      ∧ (x.life ≠ .waiting → x.tend = false → x.atPhend = false → y.queue = x.queue ∧ y.released = true)
      ∧ (x.life = .waiting → y.queue = x.queue ∧ ((s.placement x.place).state = 3 → (t.placement x.place).state = 4))))
  -- a straggler
  ∧ (∀ (s : State) (j : Nat), (s.job j).valid = true → (s.job j).runState ≠ 2 → exec (.stragglerFault j) s = .next s)
  ∧ ∀ (s : State) (j u : Nat) (x : Ctx), risingKeys s.units → boundaryIdle s j → (s.job j).valid = false → (s.job j).begun = true →
    s.jobSlot (s.job j).id = some j → takes s j u x → u ∈ s.units.map (·.1) → x.arrived = false →
    (∀ v ∈ s.members j, v < u → (s.ctx v (s.tile v).run).arrived = true) →
    ∃ t w, exec (.stragglerFault j) s = .next t ∧ t.mem = s.mem ∧ (t.job j).winner = some w ∧ w.cause = 0x19 ∧ w.tile = u ∧ w.dev = s.device
      ∧ w.time = s.ns ∧ (t.job j).valid = true ∧ (t.job j).settled = false ∧ (t.ctx u (s.tile u).run).frozen = true
      ∧ ∀ v, v < 768 → (t.job j).missing.getLsbD v
          = decide (v ∈ s.members j ∧ (s.ctx v (s.tile v).run).arrived = false)

/-- 04 R110; 14 R397 to R407: a freeze catches the tile's context and boundary unit; the lesser whistle wins and is
settled after 3,400 cycles with each tile's offset; a release frees each tile at its offset; a job-step freezes it
again; a step that cannot go on ends.

Where the rules leave a point open, the model's choices are those of log entries 33 and 48. -/
def Obligations.WhistleEventResults : Prop :=
  -- the wave
  (∀ (s : State) (j u : Nat) (x : Ctx), (s.job j).opened = true → takes s j u x → u ≠ 0 → x.stopped = false →
    ∃ t, exec (.waveReachesTile j u) s = .next t ∧ t.mem = s.mem ∧ caught x (t.ctx u (s.tile u).run) ∧ t.jobs = s.jobs
      ∧ (t.tile u).freeze.look 0 0 = BitVec.ofNat 64 (2 ^ 63 + (s.tile u).run.toNat * 2 ^ 61 + 0x23 * 2 ^ 32)
      ∧ (t.tile u).freeze.look 0 1 = BitVec.ofNat 64 s.cycle ∧ ∀ v, v ≠ u → t.tile v = s.tile v)
  ∧ (∀ (s : State) (j : Nat), (s.job j).opened = true → (s.job j).held = false → ∃ t, exec (.waveReachesTile j 0) s = .next t
    ∧ t.mem = s.mem ∧ (t.job j).held = true ∧ (t.job j).heldAt = s.cycle ∧ (t.job j).phase = (s.job j).phase)
  -- a whistle from another module
  ∧ (∀ (s : State) (p : Packet) (j : Nat) (w : Whistle), firstSeen s p j 0 →
    w = { time := p.payload.toNat / 2 ^ 64 % 2 ^ 64, frac := p.payload.toNat / 2 ^ 128 % 65536, dev := p.payload.toNat / 2 ^ 144 % 1024
          tile := p.payload.toNat / 2 ^ 48 % 1024, eng := p.payload.toNat / 2 ^ 60 % 8, cause := p.payload.toNat / 2 ^ 40 % 256
          info0 := BitVec.ofNat 64 (p.payload.toNat / 2 ^ 256) } →
    ((s.job j).valid = false → ∃ t, exec (.whistleFreeze p) s = .next t ∧ t.mem = s.mem ∧ t.units = s.units ∧ (t.job j).winner = some w
      ∧ (t.job j).valid = true ∧ (t.job j).settled = false ∧ (t.job j).runState = 1 ∧ (t.job j).wphase = (s.job j).phase
      ∧ (s.cycle + 3400, .causeSettle j) ∈ t.agenda ∧ (s.cycle + waveDelay 0 0 0, .waveReachesTile j 0) ∈ t.agenda
      ∧ ∀ u x, takes s j u x → u ∈ s.units.map (·.1) → risingKeys s.units →
        (s.cycle + waveDelay 0 0 u, .waveReachesTile j u) ∈ t.agenda)
    ∧ (∀ v, (s.job j).valid = true → (s.job j).settled = false → (s.job j).winner = some v → ∃ t, exec (.whistleFreeze p) s = .next t
      ∧ t.mem = s.mem ∧ t.units = s.units ∧ (t.job j).nwh = min 255 ((s.job j).nwh + 1) ∧ (t.job j).winner
        = some (if w.time < v.time ∨ (w.time = v.time ∧ (w.frac < v.frac ∨ (w.frac = v.frac ∧ (w.dev < v.dev
            ∨ (w.dev = v.dev ∧ w.tile < v.tile))))) then w else v)))
  -- the cause settles
  ∧ (∀ (s : State) (j : Nat) (w : Whistle), (s.job j).winner = some w → (s.job j).opened = true → (s.job j).valid = true →
    (s.job j).settled = false → (s.job j).lcycle + 3400 = s.cycle → w.cause < 256 → s.servo.lock = false → ∃ t, exec (.causeSettle j) s = .next t ∧ t.mem = s.mem
      ∧ (t.job j).settled = true ∧ (t.job j).ref = s.cycle - (s.time - (w.time * 1114112 + w.frac * 17)) / 1310720
      ∧ (t.job j).since = w.time ∧ ∀ u, u ∈ s.frozenTiles j →
        ((t.tile u).freeze.look 0 0).toNat % 2 ^ 32 = (((s.tile u).freeze.look 0 1).toNat - (t.job j).ref) % 2 ^ 32
        ∧ ((t.tile u).freeze.look 0 0).getLsbD 62 = decide (w.dev = s.device ∧ w.tile = u)
        ∧ (((t.tile u).freeze.look 0 0).extractLsb' 32 8).toNat = (if w.dev = s.device ∧ w.tile = u then w.cause else 0x23))
  -- a release from another module, and a job-step
  ∧ (∀ (s : State) (p : Packet) (j u at_ n r : Nat), (s.job j).valid = true → (s.job j).settled = true → (s.job j).runState = 1 →
    at_ = p.payload.toNat / 2 ^ 192 % 2 ^ 64 → n = p.payload.toNat / 2 ^ 160 % 2 ^ 32 → r = s.cycleAt at_ → u ∈ s.frozenTiles j →
    (firstSeen s p j 1 → ∃ t, exec (.whistleResume p) s = .next t ∧ t.mem = s.mem ∧ t.units = s.units ∧ (t.job j).release = some r
      ∧ (t.job j).stepFor = none ∧ (t.job j).runState = 0 ∧ (t.job j).valid = false
      ∧ (t.job j).shift = (s.job j).shift + (at_ - (s.job j).since)
      ∧ (r + (((s.tile u).freeze.look 0 1).toNat - (s.job j).ref), .tileRelease j u) ∈ t.agenda)
    ∧ (firstSeen s p j 2 → ∃ t, exec (.whistleJobStep p) s = .next t ∧ t.mem = s.mem ∧ t.units = s.units ∧ (t.job j).release = some r
      ∧ (t.job j).stepFor = some n ∧ (t.job j).runState = 2 ∧ (t.job j).shift = (s.job j).shift + (at_ - (s.job j).since)
      ∧ (r + (((s.tile u).freeze.look 0 1).toNat - (s.job j).ref), .tileRelease j u) ∈ t.agenda
      ∧ (r + (((s.tile u).freeze.look 0 1).toNat - (s.job j).ref) + n, .stepRefreeze j u) ∈ t.agenda))
  -- a tile is released
  ∧ (∀ (s : State) (j u r : Nat) (x : Ctx) (h : Hidden) (c : Bool), (s.job j).release = some r → u ≠ 0 → c = (s.tile u).run → x = s.ctx u c →
    x.frozen = true → x.hidden = some h → x.jobId = (s.job j).id →
    s.cycle = r + (((s.tile u).freeze.look 0 1).toNat - (s.job j).ref) → ∃ t y, exec (.tileRelease j u) s = .next t ∧ y = t.ctx u c
      ∧ t.mem = s.mem ∧ y.frozen = false ∧ y.hidden = none ∧ y.stopped = false ∧ y.epc = h.epc ∧ y.enpc = h.enpc ∧ y.ennpc = h.ennpc
      ∧ y.ebits = h.ebits ∧ y.queue = s.reloadQueue u c x.epc x.enpc x.ennpc x.ebits ∧ y.ust = (x.ebits.extractLsb' 8 8).toNat
      ∧ y.partial0 = x.ustate0 ∧ y.partial1 = x.ustate1 ∧ (∀ n, y.readS n = x.readS n) ∧ y.p = x.p ∧ y.v = x.v ∧ y.m = x.m
      ∧ ((t.tile u).freeze.look 0 0).getLsbD 63 = false ∧ (t.tile u).heldOut = [] ∧ (t.job j).held = (s.job j).held)
  -- it freezes again
  ∧ (∀ (s : State) (j u r n : Nat) (x : Ctx), (s.job j).release = some r → (s.job j).stepFor = some n → takes s j u x → u ≠ 0 →
    ∃ t, exec (.stepRefreeze j u) s = .next t ∧ t.mem = s.mem ∧ caught x (t.ctx u (s.tile u).run)
      ∧ ((t.tile u).freeze.look 0 0).getLsbD 63 = true ∧ (t.tile u).freeze.look 0 1 = BitVec.ofNat 64 s.cycle
      ∧ (t.job j).phase = (s.job j).phase)
  ∧ ∀ (s : State) (u e : Nat) (st : Stepping), (s.tile u).stepping = some st →
    (st.eng ≠ e → exec (.stepTimeout u e) s = .next s)
    ∧ (st.eng = e → ∃ t, exec (.stepTimeout u e) s = .next t ∧ t.mem = s.mem ∧ (t.tile u).stepping = none
      ∧ (t.tile u).freeze.look 0 1 = (s.tile u).freeze.look 0 1
      ∧ ((s.ctx u (s.tile u).run).hidden = none → caught (s.ctx u (s.tile u).run) (t.ctx u (s.tile u).run))
      ∧ ((s.ctx u (s.tile u).run).hidden.isSome = true → t.ctx u (s.tile u).run = s.ctx u (s.tile u).run))

namespace Sys2Proof.Claims

/-! ### Stewards, links, time and power -/

/-- The line monitor of steward `u` takes `reason` as what wakes it, if it is armed and nothing woke it before; all else stays. -/
def woken (s t : State) (u reason : Nat) : Prop :=
  t.mem = s.mem ∧ (∀ v, v ≠ u → t.tile v = s.tile v)
  ∧ t.tile u = { s.tile u with lmon := if (s.tile u).lmon.line.isSome && (s.tile u).lmon.wake.isNone then
      { (s.tile u).lmon with wake := some reason } else (s.tile u).lmon }

/-- A counter of a steward gains one, if one is named. -/
def counterOf : Option (Nat × Nat) → List Event
  | none => []
  | some (u, k) => [.timelineIncrement u false k]

/-- Steward `u` is told of a fault at virtual address `va`. -/
def told (t : State) (u cause va : Nat) : Prop := ∃ q ∈ (t.ctx u false).traps, q.cause = cause ∧ q.i0 = BitVec.ofNat 64 va

/-- Placement `p` of `s` has ended: its contexts are free. -/
def ended (s t : State) (p : Nat) : Prop :=
  (t.placement p).state = 0 ∧ ∀ u ∈ (s.placement p).tiles, (t.ctx u (s.placement p).bank).life = .free

/-- A notice stands in the line of a die: word COUNT mod 7, then COUNT; a die whose line is not set writes none (10 R304). -/
def noticed (s t : State) (die w : Nat) : Prop :=
  (s.noticeAddr.look 0 die = 0 → t.mem = s.mem ∧ t.noticeCount = s.noticeCount)
  ∧ (s.noticeAddr.look 0 die ≠ 0 → s.noticeAddr.look 0 die < 2 ^ 40 →
    t.noticeCount.look 0 die = min (s.noticeCount.look 0 die + 1) (2 ^ 64 - 1)
    ∧ t.mem = writeBytes (writeBytes s.mem (s.noticeAddr.look 0 die + 8 * (s.noticeCount.look 0 die % 7)) 8 w)
        (s.noticeAddr.look 0 die + 56) 8 (min (s.noticeCount.look 0 die + 1) (2 ^ 64 - 1)))

/-- A measured offset `x`, in 2^-16 ns, disciplines device time (13 R368, R370). -/
def disciplined (s t : State) (x : Int) : Prop :=
  t.servo.offset = x / 256
  ∧ (-262144 ≤ x ∧ x ≤ 262144 → t.time = s.time ∧ t.mem = s.mem ∧ t.servo.good = min 16 (s.servo.good + 1)
    ∧ t.servo.lock = (s.servo.lock || decide (15 ≤ s.servo.good)) ∧ t.servo.hold = (s.servo.hold && decide (s.servo.good < 15)))
  ∧ (¬ (-262144 ≤ x ∧ x ≤ 262144) →
    t.servo.good = 0 ∧ t.servo.lock = false
    ∧ (s.servo.lock = true → t.time = s.time ∧ t.servo.hold = true ∧ noticed s t 0 2)
    ∧ (s.servo.lock = false → t.servo.hold = s.servo.hold ∧ t.mem = s.mem
        ∧ t.time = if s.servo.stepped then s.time else ((s.time : Int) - 17 * x).toNat))

/-- The lowest plane whose port here is UP or DEGRADED, if there is one: the one that carries time messages (13 R369). -/
def timePort (s : State) (p : Option Nat) : Prop :=
  let up := fun (q : Nat) => (s.links.look {} q).state = 1 ∨ (s.links.look {} q).state = 2
  (∀ q, p = some q → q < 72 ∧ up q ∧ ∀ r, r < q → ¬ up r) ∧ (p = none → ∀ q, q < 72 → ¬ up q)

/-- A Sync whose delay is known has been taken: the offset follows, and a Delay_Req leaves. -/
def syncTaken (s t : State) (seq : Nat) (delay : Int) : Prop :=
  disciplined s t (delay - s.servo.pathDelay) ∧ t.servo.masterToSlave = delay ∧ t.servo.pending = none
  ∧ t.servo.pathDelay = s.servo.pathDelay
  ∧ ∀ q, timePort s (some q) →
    .time q 1 { domain := s.servo.domain, seq := seq, origin := ((t.time / 17 / 4096 * 4096 : Nat) : Int), received := 0 } ∈ t.out

/-- Start-up has failed in its stage (15 R413). -/
def failsWith (s t : State) (detail : Nat) (unit : BitVec 16) : Prop :=
  t.power = false ∧ t.boot.failed = true ∧ t.boot.error = BitVec.ofNat 16 (s.boot.stage * 256 + detail) ∧ t.boot.unit = unit
  ∧ t.boot.stage = s.boot.stage ∧ t.mem = s.mem ∧ t.units = s.units

/-- The module as a reset leaves it with the auxiliary supply up (15 R413). -/
def restarted (s t : State) (images : List SignedImage) (helper : Bool) : Prop :=
  t.boot.images = images ∧ t.boot.helper = helper ∧ t.boot.aux = true ∧ t.boot.stage = 1 ∧ t.boot.failed = false ∧ t.boot.accepted = []
  ∧ t.boot.secret = none ∧ t.boot.aliasKey = none ∧ t.spdm = {} ∧ t.power = false ∧ t.units = [] ∧ t.jobs = [] ∧ t.queues = []
  ∧ t.placed = [] ∧ t.links = [] ∧ t.inbox = [] ∧ t.agenda = [] ∧ t.bench = 0 ∧ t.servo = {} ∧ t.cycle = 0 ∧ t.time = 0 ∧ t.device = 0
  ∧ ∀ a, readByte t.mem a = if 2 ^ 52 ≤ a ∧ a < 2 ^ 53 then readByte s.mem a else 0

end Sys2Proof.Claims

/-- 08 R240, R258; 11 R337, R339, R340; 12 R352: the events of a steward's engines: invalidation done, launch loaded, gang
saved, gang restored, the line monitor woken, a stamp swept; a faulting engine tells its steward.

What a save keeps and when a sweep comes are the model's choices (log entries 37, 45). -/
def Obligations.StewardEventResults : Prop :=
  -- invalidation
  (∀ (s : State) (k : Nat), (s.shadows.find k = none → exec (.tlbinvMarkersComplete k) s = .next s)
    ∧ ∀ h, s.shadows.find k = some h → (∀ i, h.sig = some i → i < 16) →
      (s.aheadOf k = true → exec (.tlbinvMarkersComplete k) s = .next s)
      ∧ (s.aheadOf k = false → ∃ t, exec (.tlbinvMarkersComplete k) s = .next t ∧ t.mem = s.mem ∧ t.units = s.units
        ∧ t.shadows.find k = none ∧ (∀ i, i ≠ k → t.shadows.find i = s.shadows.find i)
        ∧ t.inbox = s.inbox ++ counterOf (h.sig.map fun i => (h.steward, i))))
  -- launch
  ∧ (∀ (s m : State) (p : Nat) (e : Placement), risingKeys s.placed → e = s.placement p →
    (e.state ≠ 2 → exec (.launchLoadComplete p) s = .next s)
    ∧ (∀ cause va, e.state = 2 → s.imageLines e (recField e.header 0 4) 0 = (m, .inl (cause, va)) →
      ∃ t, exec (.launchLoadComplete p) s = .next t ∧ t.mem = m.mem ∧ ended s t p ∧ told t e.steward cause va)
    ∧ (∀ lines, e.state = 2 → s.imageLines e (recField e.header 0 4) 0 = (m, .inr lines) → lines.length ≤ 4096 →
      ∃ t, exec (.launchLoadComplete p) s = .next t ∧ (t.placement p).state = 3
        ∧ ∀ k u y, e.tiles[k]? = some u → (∀ k', e.tiles[k']? = some u → k' = k) → y = t.ctx u e.bank →
          y.life = .waiting ∧ y.place = p ∧ y.ordinal = k ∧ y.jobId = e.job
          ∧ y.gang = BitVec.ofNat 64 ((m.device * 64 + p) * 2 ^ 32 + k)
          ∧ y.queue.f0.pos = some (BitVec.ofNat 23 (recField e.header 4 4)) ∧ y.queue.f0.annul = false
          ∧ (∀ i, i < 8 → y.readS (4 + i) = BitVec.ofNat 64 (recField e.task (64 + 8 * i) 8))
          ∧ y.readS 2 = BitVec.ofNat 64 (recField e.header 24 4) ∧ y.readS 30 = BitVec.ofNat 64 (recField e.task 8 8)
          ∧ y.readS 31 = BitVec.ofNat 64 (recField e.header 80 4 + k * recField e.header 84 4)
          ∧ (t.tile u).dual = decide (taskMode e.task ≠ 0)
          ∧ (∀ i, i < (if taskMode e.task ≠ 0 then 12 else 24) →
            (t.tile u).banks.look 0 ((if taskMode e.task ≠ 0 ∧ e.bank = true then 12 else 0) + i) = BitVec.ofNat 64 (headerBank e.header i))
          ∧ ∀ i v bad, lines[i]? = some (v, bad) → (t.tile u).tags.look none i = some (e.bank, i)
            ∧ (Memory.wf m.mem = true → ∀ b, b < 64 → readByte t.mem (windowPA u (0x200000 + 64 * i) + b) = byteOf v b)))
  -- a gang is saved
  ∧ (∀ (s m : State) (p base : Nat) (e : Placement) (pieces : List (Nat × Nat × Nat × Nat)), risingKeys s.placed →
    e = s.placement p → 3 ≤ e.state → e.saving = true →
    e.saveAs = some base → pieces = s.saveHead e base ++ (e.tiles.zip (List.range e.tiles.length)).flatMap
      (fun q => s.memberPieces q.1 e.bank (base + 0x1000 + q.2 * 0x200000)) →
    ((∃ u ∈ e.tiles, ∃ q ∈ (s.ctx u e.bank).streams, q.1 < 16) →
      exec (.ctxsaveComplete p) s = .next (s.schedule (s.cycle + 1) (.ctxsaveComplete p)))
    ∧ ((∀ u ∈ e.tiles, ∀ q ∈ (s.ctx u e.bank).streams, 16 ≤ q.1) →
      (∀ cause va, s.savePieces e pieces = (m, some (cause, va)) → ∃ t, exec (.ctxsaveComplete p) s = .next t ∧ t.mem = m.mem
        ∧ (t.placement p).saving = false ∧ (t.placement p).saveAs = none ∧ told t e.steward cause va)
      ∧ (s.savePieces e pieces = (m, none) → ∃ t, exec (.ctxsaveComplete p) s = .next t ∧ t.mem = m.mem
        ∧ (e.frees = true → ended s t p ∧ ∃ k ∈ t.saved, k.at_ = base ∧ k.job = e.job)
        ∧ (e.frees = false → (t.placement p).saving = false ∧ (t.placement p).saveAs = none ∧ (t.placement p).state = (m.placement p).state)
        ∧ (∀ k, e.sig_ = some k → .timelineIncrement (k / 16) false (k % 16) ∈ t.inbox))))
  ∧ (∀ (s : State) (p : Nat), (s.placement p).saving = false ∨ (s.placement p).saveAs = none → exec (.ctxsaveComplete p) s = .next s)
  -- a gang is restored
  ∧ (∀ (s m n r : State) (p base : Nat) (e f : Placement) (h : BitVec 1024) (q : Trap) (lines : List (Nat × Nat)),
    risingKeys s.placed → e = s.placement p → f = { e with header := h } →
    (e.saveAs = none ∨ e.state ≠ 2 → exec (.ctxloadComplete p) s = .next s)
    ∧ (e.saveAs = some base → e.state = 2 →
      (s.readHeader e = (m, .inl q) → ∃ t, exec (.ctxloadComplete p) s = .next t ∧ t.mem = m.mem ∧ ended s t p
        ∧ told t e.steward q.cause q.i0.toNat)
      ∧ (s.readHeader e = (m, .inr h) → m.imageLines f (recField h 0 4) 0 = (n, .inr lines) →
        n.restoreAll p f base 0 e.tiles = (r, none) → lines.length ≤ 4096 →
        ∃ t, exec (.ctxloadComplete p) s = .next t ∧ (t.placement p).state = 5 ∧ (t.placement p).header = h ∧ (∀ k ∈ t.saved, k.at_ ≠ base)
          ∧ t.inbox = r.inbox ++ counterOf (e.sig_.map fun k => (k / 16, k % 16))
          ∧ ∀ u ∈ e.tiles, (∀ v, (t.ctx u v).s = (r.ctx u v).s ∧ (t.ctx u v).life = (r.ctx u v).life)
            ∧ ∀ i, i < lines.length → (t.tile u).tags.look none i = some (e.bank, i))))
  -- the line monitor
  ∧ (∀ (s : State) (u : Nat), (∃ t, exec (.monitorWake u) s = .next t ∧ woken s t u 0) ∧ (∃ t, exec (.monitorLoss u) s = .next t ∧ woken s t u 3)
    ∧ ((s.tile u).lmon.asleep = true → ∃ t, exec (.mwaitTimeout u) s = .next t ∧ woken s t u 1)
    ∧ ((s.tile u).lmon.asleep = false → exec (.mwaitTimeout u) s = .next s))
  -- the sweeper
  ∧ ∀ (s : State) (line j : Nat),
    ((∀ i, i < 8 → (s.job i).opened = true → (s.job i).tracks line = false) → ∃ t, exec (.sweeperVisit line) s = .next t ∧ t.mem = s.mem
      ∧ t.units = s.units ∧ t.stamp line = 0xFFD ∧ ∀ l, l ≠ line → t.stamp l = s.stamp l)
    ∧ (j < 8 → (s.job j).opened = true → (s.job j).tracks line = true → (∀ i, i < j → (s.job i).opened = true → (s.job i).tracks line = false) →
      (2 ^ 19 ≤ ((s.job j).phase % 2 ^ 20 + 2 ^ 20 - (s.stamp line).toNat / 4096) % 2 ^ 20 →
        ∃ t, exec (.sweeperVisit line) s = .next t ∧ t.mem = s.mem ∧ t.units = s.units ∧ t.stamp line = 0xFFD
          ∧ ∀ l, l ≠ line → t.stamp l = s.stamp l)
      ∧ (((s.job j).phase % 2 ^ 20 + 2 ^ 20 - (s.stamp line).toNat / 4096) % 2 ^ 20 < 2 ^ 19 → exec (.sweeperVisit line) s = .next s))

/-- 10 R323, R324; 12 R363; 13 R368 to R370; 15 R420: links train, fail, are quarantined and retrained; time messages
discipline device time, and the grandmaster answers them.

Where the rules leave a point open, the model's choices are those of log entries 11, 40 and 42. -/
def Obligations.LinkAndTimeResults : Prop :=
  -- links
  (∀ (s : State) (l lat : Nat) (a b : Word) (k : Link), k = s.links.look {} l →
    (k.state ≠ 0 → exec (.linkTrained l a b lat) s = .next s)
    ∧ (k.state = 0 → a = b → ∃ t, exec (.linkTrained l a b lat) s = .next t ∧ (l < 72 → .digest l a ∈ t.out) ∧ t.mem = s.mem ∧ t.units = s.units
      ∧ t.links.look {} l = { k with ldig := a, rdig := b, lat := lat % 65536, state := (if a.toNat % 256 < 4 then 2 else 1), tries := 0 }
      ∧ ∀ i, i ≠ l → t.links.look {} i = s.links.look {} i)
    ∧ (k.state = 0 → a ≠ b → ∃ t, exec (.linkTrained l a b lat) s = .next t ∧ (l < 72 → .digest l a ∈ t.out) ∧ t.mem = s.mem ∧ (t.links.look {} l).state = 3
      ∧ (t.links.look {} l).qcnt = min (2 ^ 32 - 1) (k.qcnt + 1) ∧ (∀ i, i ≠ l → t.links.look {} i = s.links.look {} i)
      ∧ (s.cycle + 850000, .quarantineRetrain l) ∈ t.agenda
      ∧ t.resv = s.resv
      ∧ ∃ q ∈ (t.ctx (768 + 4 * dieOfLink l) false).traps, q.cause = 0x31 ∧ q.i0 = BitVec.ofNat 64 l ∧ q.i1 = a ∧ q.i2 = b)
    ∧ (k.state ≠ 3 → exec (.quarantineRetrain l) s = .next s)
    ∧ (k.state = 3 → ∃ t, exec (.quarantineRetrain l) s = .next t ∧ t.mem = s.mem ∧ t.units = s.units
      ∧ t.links.look {} l = (if k.tries < 3 then { k with state := 0, tries := k.tries + 1 } else { k with state := 4 })
      ∧ ∀ i, i ≠ l → t.links.look {} i = s.links.look {} i)
    ∧ (∃ t, exec (.linkFailure l) s = .next t ∧ t.mem = s.mem ∧ t.links.look {} l = { k with state := 0 }
      ∧ (∀ i, i ≠ l → t.links.look {} i = s.links.look {} i) ∧ ((k.state = 1 ∨ k.state = 2) → ∀ e ∈ t.resv, ofLink l e.1 = false))
    ∧ (∀ agent, l < 312 → stewardAgent agent = true → ∃ t, exec (.retrainWrite agent l) s = .next t ∧ t.mem = s.mem
      ∧ t.links.look {} l = { k with state := 0 } ∧ ∀ i, i ≠ l → t.links.look {} i = s.links.look {} i))
  ∧ (∀ (s : State) (w : Nat), ∃ t, exec (.nutonRetrain w) s = .next t ∧ t.nutonWidth = w ∧ noticed s t 0 (5 + w % 64 * 256)
    ∧ ∀ e ∈ s.units, e.2.lmon.line.isSome = true → .monitorLoss e.1 ∈ t.inbox)
  -- the grandmaster
  ∧ (∀ (s : State) (m : TimeMessage) (port : Option Nat), timePort s port → exec (.announce m) s = .next s
    ∧ (s.servo.isMaster = true →
      exec (.sync m) s = .next s ∧ exec (.followUp m) s = .next s ∧ exec (.delayResp m) s = .next s
      ∧ (m.domain = s.servo.domain → exec (.delayReq m) s
          = .next { s with out := s.out ++ (port.map fun q =>
              .time q 2 { m with received := ((s.time / 17 / 4096 * 4096 : Nat) : Int) }).toList })
      ∧ (m.domain ≠ s.servo.domain → exec (.delayReq m) s = .next s)
      ∧ (s.power = true → ∃ t, exec .syncInterval s = .next t ∧ t.mem = s.mem ∧ t.units = s.units ∧ t.time = s.time
        ∧ t.servo.syncSeq = (s.servo.syncSeq + 1) % 65536
        ∧ (∀ n, n = ({ domain := s.servo.domain, seq := s.servo.syncSeq, origin := ((s.time / 17 / 4096 * 4096 : Nat) : Int)
                       received := 0 } : TimeMessage) →
          t.out = s.out ++ (port.map fun q => .time q 3 n).toList ++ (port.map fun q => .time q 0 n).toList)
        ∧ (s.cycle + 850000000 / 2 ^ (7 + s.servo.config.toNat / 512 % 8), .syncInterval) ∈ t.agenda))
    ∧ (s.servo.isMaster = false → exec .syncInterval s = .next s ∧ exec (.delayReq m) s = .next s))
  -- the others
  ∧ ∀ (s : State) (m : TimeMessage), s.servo.isMaster = false →
    (m.domain ≠ s.servo.domain → exec (.sync m) s = .next s ∧ exec (.followUp m) s = .next s ∧ exec (.delayResp m) s = .next s)
    ∧ (m.domain = s.servo.domain →
      (m.twoStep = true → ∃ t, exec (.sync m) s = .next t ∧ t.mem = s.mem ∧ t.time = s.time ∧ t.out = s.out
        ∧ t.servo = { s.servo with syncSeq := m.seq, pending := some { m with received := ((s.time / 17 / 4096 * 4096 : Nat) : Int) } })
      ∧ (m.twoStep = false → ∃ t, exec (.sync m) s = .next t
        ∧ syncTaken s t m.seq (((s.time / 17 / 4096 * 4096 : Nat) : Int) - m.origin - m.correction))
      ∧ (∀ p, s.servo.pending = some p → p.seq = m.seq → ∃ t, exec (.followUp m) s = .next t
        ∧ syncTaken s t s.servo.syncSeq (p.received - m.origin - p.correction - m.correction))
      ∧ (∀ p, s.servo.pending = some p → p.seq ≠ m.seq → exec (.followUp m) s = .next s)
      ∧ (s.servo.pending = none → exec (.followUp m) s = .next s)
      ∧ exec (.delayResp m) s = .next { s with servo := { s.servo with
          pathDelay := (s.servo.masterToSlave + (m.received - m.origin - m.correction)) / 2 } })

/-- 15 R413 to R418, R423, R426: start-up goes through its stages or fails with the code of the stage; a reset starts it
anew; a temperature at its limit is noticed, and at the critical limit every job is whistled and the rails go.

Where the rules leave a point open, the model's choices are those of log entry 41. -/
def Obligations.PowerEventResults : Prop :=
  (∀ (s : State) (images : List SignedImage) (helper : Bool),
    (s.boot.aux = true → exec (.auxPowerOn images helper) s = .next s
      ∧ ∃ t, exec .moduleReset s = .next t ∧ restarted s t s.boot.images s.boot.helper)
    ∧ (s.boot.aux = false → exec .moduleReset s = .next s ∧ ∃ t, exec (.auxPowerOn images helper) s = .next t ∧ restarted s t images helper))
  ∧ (∀ (s : State) (r : StageResult), s.boot.aux = true → s.boot.failed = false →
    ∃ t, exec (.startupStageComplete r) s = .next t
      ∧ (s.boot.stage = 1 →
        (s.boot.image 1 = none → failsWith s t 1 0)
        ∧ ∀ i, s.boot.image 1 = some i → (imageCheck i 1 ≠ 0 → failsWith s t (imageCheck i 1) 0)
          ∧ (imageCheck i 1 = 0 → t.boot.stage = 2 ∧ t.boot.failed = false
            ∧ t.boot.accepted = s.boot.accepted ++ [(i.kind, i.digest, i.svn)] ∧ t.power = s.power))
      ∧ (s.boot.stage = 2 →
        (s.boot.helper = false → failsWith s t 1 0) ∧ (s.boot.helper = true → Config.pufSecret s.fresh = none → failsWith s t 2 0)
        ∧ ∀ k, s.boot.helper = true → Config.pufSecret s.fresh = some k → t.boot.stage = 3 ∧ t.boot.secret = some k
          ∧ t.boot.devId = some (Config.deriveKey k 0) ∧ t.boot.aliasKey = some (Config.deriveKey k (1 + s.boot.layer)))
      ∧ (s.boot.stage = 3 → (∀ d, s.configure s.boot.images = .inr d → failsWith s t d 0)
        ∧ ∀ m, s.configure s.boot.images = .inl m → t.boot.stage = 4 ∧ t.power = true ∧ t.device = m.device ∧ t.units = s.units ∧ t.mem = s.mem)
      ∧ (s.boot.stage = 4 → (∀ u, r.badUnit = some u → failsWith s t 1 u)
        ∧ (r.badUnit = none → t.boot.stage = 5
          ∧ ∀ v, v < 768 → t.bench.getLsbD v = (s.bench.getLsbD v || r.benched.contains v)))
      ∧ (s.boot.stage = 5 → (r.badStack = true → failsWith s t 1 0)
        ∧ (r.badStack = false → r.badSublink = true → failsWith s t 2 0)
        ∧ (r.badStack = false → r.badSublink = false → t.boot.stage = 6 ∧ ∀ l, 72 ≤ l → l < 312 → (t.links.look {} l).state = 1))
      ∧ (s.boot.stage = 6 → (r.nuton < 8 → failsWith s t 1 0)
        ∧ (8 ≤ r.nuton → t.boot.stage = 7 ∧ t.nutonWidth = r.nuton
          ∧ ∀ p, p < 72 → (t.links.look {} p).state = if p ∈ r.portsUp then
              (if (r.narrow.find? (·.1 == p)).elim 4 (·.2) < 4 then 2 else 1) else 4))
      ∧ (s.boot.stage = 7 → (s.tile 768).started = false →
        (s.boot.image 2 = none → failsWith s t 1 0)
        ∧ ∀ i, s.boot.image 2 = some i → (imageCheck i 2 ≠ 0 → failsWith s t (imageCheck i 2) 0)
          ∧ (imageCheck i 2 = 0 → t.boot.failed = false ∧ ∀ k, k < 16 → (t.tile (768 + k)).started = true
            ∧ (t.ctx (768 + k) false).life = .running ∧ (t.ctx (768 + k) false).queue.f0.pos = some 0
            ∧ (Memory.wf s.mem = true → ∀ a, a < 262144 → a < i.length → a < i.body.length →
              readByte t.mem (windowPA (768 + k) 0x200000 + a) = i.body[a]?.getD 0))))
  ∧ (∀ (s : State) (r : StageResult), s.boot.aux = false → exec (.startupStageComplete r) s = .next s)
  -- what the sideband hears: the module's state, each port's, the Nuton width
  ∧ (∀ (s t : State) (r : StageResult), exec (.startupStageComplete r) s = .next t → s.boot.aux = true → t.sensors.told = t.stateSensors)
  -- temperature and power
  ∧ (∀ (s : State) (die sensor q : Nat), ∃ t, exec (.temperatureWarning die sensor q) s = .next t
    ∧ t.sensors.die.look 0 (8 * die + sensor) = q
    ∧ (q < s.sensors.warn → t.mem = s.mem ∧ t.units = s.units)
    ∧ (s.sensors.warn ≤ q → noticed s t die (4 + sensor % 8 * 256 + q % 65536 * 65536)
      ∧ .sideband [BitVec.ofNat 8 die, BitVec.ofNat 8 q, BitVec.ofNat 8 (q / 256)] ∈ t.out)
    ∧ (s.sensors.critical ≤ q → s.sensors.hot.find (8 * die + sensor) = none →
      t.sensors.hot.find (8 * die + sensor) = some s.cycle ∧ (s.cycle + 850000, .criticalTemperature die sensor) ∈ t.agenda)
    ∧ (q < s.sensors.critical → t.sensors.hot.find (8 * die + sensor) = none ∧ ∀ e ∈ t.agenda, e.2 ≠ .criticalTemperature die sensor))
  ∧ (∀ (s : State) (die sensor : Nat), ∃ t, exec (.criticalTemperature die sensor) s = .next t ∧ t.mem = s.mem ∧ t.units = s.units
    ∧ (s.cycle + 8500000, .railRemoval) ∈ t.agenda
    ∧ ∀ j, j < 8 → (s.job j).opened = true → (s.job j).valid = false → (t.job j).valid = true ∧ (t.job j).settled = false
      ∧ (t.job j).winner = some { time := s.ns, frac := s.frac, dev := s.device, tile := 0x3FF, eng := 0, cause := 0x22, info0 := 0x7E }
      ∧ (s.cycle + waveDelay 0 0 0, .waveReachesTile j 0) ∈ t.agenda)
  ∧ ∀ (s : State), ∃ t, exec .railRemoval s = .next t ∧ t.power = false ∧ t.ready = [] ∧ t.agenda = [] ∧ t.boot.failed = true
    ∧ t.boot.error = 0x0F01 ∧ t.mem = s.mem ∧ t.units = s.units

namespace Sys2Proof.Claims

/-! ### Writes by an agent, the host, the sideband -/

/-- A write by `agent` is refused: a unit of this module takes the permission trap, a host's is reported to it (07 R218, 08 R230). -/
def refusedWrite (s t : State) (agent pa info1 : Nat) : Prop :=
  (∀ v d, agentPlace agent = some (v, d) → 768 ≤ v → t = s.takePrecise v d
      { cause := 0x11, i0 := BitVec.ofNat 64 pa, i1 := BitVec.ofNat 64 info1, pos := (s.ctx v d).pc })
  ∧ (∀ v d, agentPlace agent = some (v, d) → v < 768 → t.mem = s.mem ∧ (∀ w, w ≠ v → t.tile w = s.tile w) ∧ ∃ q,
      (t.ctx v d).traps = (s.ctx v d).traps ++ [q] ∧ q.cause = 0x11 ∧ q.eng = 1 ∧ q.i0 = BitVec.ofNat 64 pa ∧ q.i1 = BitVec.ofNat 64 info1
      ∧ q.pos = (s.ctx v d).access.pos ∧ q.ust = (s.ctx v d).access.ust
      ∧ (t.ctx v d).access = { (s.ctx v d).access with state := 5, stall := 0, wait := 0 })
  ∧ (agent = 0xFFF → t = { s with out := s.out ++ [.hostUnsupported pa] })

/-- Every word that a write of [off, off + n) of unit `u`'s window touches is accepted, or one of them is refused (07 R218). -/
def allAccepted (s : State) (u off n : Nat) (steward : Bool) : Prop :=
  ∀ w, off / 8 ≤ w → 8 * w < off + n → s.acceptance u (8 * w) steward = .accepted
/-- See `allAccepted`. -/
def someRefused (s : State) (u off n : Nat) (steward : Bool) : Prop :=
  ∃ w, off / 8 ≤ w ∧ 8 * w < off + n ∧ s.acceptance u (8 * w) steward = .refused

/-- A write to the scratchpad of unit `u` that stands for nothing else: no matrix state in it, no status word of a steward. -/
def plainPad (s : State) (u off n : Nat) : Prop :=
  0 < n ∧ off + n ≤ scratchSize u ∧ (s.ctx u false).spill = none ∧ (s.ctx u true).spill = none ∧ (768 ≤ u → off + n ≤ 0x7FFB8)

/-- Events that write one word of control space, with its offset. -/
def controlEvent : Instr → Option (Nat × Nat)
  | .barrierPlaneWrite a j _ => if j < 8 then some (a, 0x50800 + 8 * j) else none
  | .noticeLineSet a d _ => some (a, 0x31000 + 8 * (d % 4))
  | .monitorConfigWrite a true d k _ => some (a, 0xC0000 + 0x1000 * (d % 4) + 0x200 * (k % 8) + 0x118)
  | .routeUnitJobWrite a d _ => some (a, 0x78000 + 0x1000 * (d % 4))
  | .retrainWrite a l => if l < 72 then some (a, 0x30000 + 0x20 * l) else none
  | _ => none

/-- Every context but `(u, c)` stays, and so do memory and the other fields of unit `u` that programs reach. -/
def onlyContext (s t : State) (u : Nat) (c : Bool) : Prop := t.mem = s.mem ∧ ∀ v d, (v, d) ≠ (u, c) → t.ctx v d = s.ctx v d

/-- Messages of the SPDM responder, the sensors and the debug port. -/
def debugMessage : Instr → Bool
  | .debugWindowAccess _ => true
  | .debugWhistle _ => true
  | .debugRelease _ _ => true
  | .debugStep _ _ _ => true
  | .debugHaltSteward _ => true
  | .debugRestartSteward _ => true
  | .debugReset => true
  | _ => false

/-- Requests of the responder, with the request's bytes. -/
def attestRequest : Instr → Option (List Byte)
  | .getVersion r => some r
  | .getCapabilities r => some r
  | .negotiateAlgorithms r => some r
  | .getDigests r => some r
  | .getCertificate r => some r
  | .challenge r => some r
  | .getMeasurements r => some r
  | .keyExchange r => some r
  | .finish r => some r
  | .endSession r => some r
  | .spdmUnsupportedRequest r => some r
  | _ => none

/-- The module answers over the sideband and nothing else happens. -/
def replies (i : Instr) (s : State) (bytes : List Byte) : Prop := exec i s = .next { s with out := s.out ++ [.sideband bytes] }

/-- The module answers over the sideband, and the responder is as `p`. -/
def repliesWith (i : Instr) (s : State) (p : Spdm) (bytes : List Byte) : Prop :=
  exec i s = .next { s with spdm := p, out := s.out ++ [.sideband bytes] }

/-- A release or job-step of the job in slot `j` at device time `at_` has taken hold. -/
def releasedAt (s t : State) (j at_ : Nat) (n : Option Nat) : Prop :=
  t.mem = s.mem ∧ t.units = s.units ∧ (t.job j).release = some (s.cycleAt at_) ∧ (t.job j).stepFor = n
  ∧ (t.job j).runState = (if n.isSome then 2 else 0) ∧ (t.job j).valid = n.isSome
  ∧ (t.job j).shift = (s.job j).shift + (at_ - (s.job j).since)
  ∧ ∀ u ∈ s.frozenTiles j,
    (s.cycleAt at_ + (((s.tile u).freeze.look 0 1).toNat - (s.job j).ref), .tileRelease j u) ∈ t.agenda
    ∧ ∀ k, n = some k → (s.cycleAt at_ + (((s.tile u).freeze.look 0 1).toNat - (s.job j).ref) + k, .stepRefreeze j u) ∈ t.agenda

end Sys2Proof.Claims

/-- 01 R36; 07 R218, R221; 08 R230; 09 R265, R282; 10 R303, R304; 13 R373, R377, R385; 14 R409: what a write of a window
or of control space by an agent does to the word written, and which writes are refused.

08 R234; 15 R421: the host reads and writes device memory, reads windows and control space, writes quiet windows, and
gets ones where nothing answers.

Where the rules leave a point open, the model's choices are those of log entries 19, 43 and 47. -/
def Obligations.AgentAndHostResults : Prop :=
  (
  -- control space is open to stewards alone
  (∀ (s : State) (i : Instr) (agent off : Nat), controlEvent i = some (agent, off) → stewardAgent agent = false →
    (agent = 0xFFF → exec i s = .next s)
    ∧ ∀ v d, agentPlace agent = some (v, d) → ∃ t, exec i s = .next t ∧ refusedWrite s t agent (0xF * 2 ^ 52 + off) 3)
  ∧ (∀ (s : State) (agent d : Nat) (v : Word), stewardAgent agent = true →
    (∀ j, 8 ≤ j → exec (.barrierPlaneWrite agent j v) s = .next s)
    ∧ (∀ j b, j < 8 → b = s.job j → ∃ t, exec (.barrierPlaneWrite agent j v) s = .next t ∧ t.mem = s.mem ∧ t.units = s.units
      ∧ t.job j = (if b.opened = true ∧ b.valid = true ∧ b.runState = 1 ∧ v.toNat ≤ 71 then
          { b with bplane := v.toNat, moved := b.moved || v.toNat != b.bplane } else b)
      ∧ ∀ k, k ≠ j → t.job k = s.job k)
    ∧ (∃ t, exec (.noticeLineSet agent d v) s = .next t ∧ t.mem = s.mem ∧ t.units = s.units
      ∧ t.noticeAddr.look 0 (d % 4) = (v &&& 0xFFFFFFFFC0).toNat ∧ t.noticeCount.look 0 (d % 4) = 0
      ∧ ∀ k, k ≠ d % 4 → t.noticeAddr.look 0 k = s.noticeAddr.look 0 k ∧ t.noticeCount.look 0 k = s.noticeCount.look 0 k)
    ∧ (∀ k, ∃ t, exec (.monitorConfigWrite agent true d k v) s = .next t ∧ t.mem = s.mem ∧ t.units = s.units
      ∧ t.dieMon.look {} (8 * (d % 4) + k % 8)
          = { bins := [], count := 0, min := 0xFFFFFFFF, max := 0, config := v &&& 0xFFFFFFFF00F0FF0F }
      ∧ ∀ n, n ≠ 8 * (d % 4) + k % 8 → t.dieMon.look {} n = s.dieMon.look {} n)
    ∧ (∃ t, exec (.routeUnitJobWrite agent d v) s = .next t ∧ t.mem = s.mem ∧ t.units = s.units
      ∧ t.routeUnit.look {} (d % 4) = { job := v.extractLsb' 32 32, granted := (s.routeUnit.look {} (d % 4)).granted
                                        waiting := (s.routeUnit.look {} (d % 4)).waiting }
      ∧ ∀ k, k ≠ d % 4 → t.routeUnit.look {} k = s.routeUnit.look {} k))
  -- words that a steward may write at any time
  ∧ (∀ (s : State) (agent u k : Nat) (c : Bool), stewardAgent agent = true → u < 768 →
    (∃ t, exec (.rfqServed agent u c k) s = .next t ∧ onlyContext s t u c
      ∧ ∀ n, (t.ctx u c).rfq.find n
          = if n = k % 64 then ((s.ctx u c).rfq.find n).map (fun r => { r with served := true }) else (s.ctx u c).rfq.find n)
    ∧ (∃ t, exec (.rfqDead agent u c k) s = .next t ∧ onlyContext s t u c
      ∧ ∀ n, (t.ctx u c).rfq.find n
          = if n = k % 64 then ((s.ctx u c).rfq.find n).map (fun r => { r with dead := true }) else (s.ctx u c).rfq.find n)
    ∧ (∃ t, exec (.streamRetry agent u c k) s = .next t ∧ onlyContext s t u c
      ∧ ∀ n, (t.ctx u c).streams.find n = if n = k % 16 then
            ((s.ctx u c).streams.find n).map (fun q => if q.state = 1 then { q with state := 0, cause := 0 } else q)
          else (s.ctx u c).streams.find n))
  -- words of a quiet context
  ∧ (∀ (s : State) (agent u e : Nat) (c : Bool) (v : Word) (x : Strip), u < 768 → x = (s.ctx u c).strip e →
    (e = 0 ∨ 4 < e → exec (.stripStatusWrite agent u c e v) s = .next s)
    ∧ (1 ≤ e → e ≤ 4 → s.quiet u c = false → ∃ t, exec (.stripStatusWrite agent u c e v) s = .next t
      ∧ refusedWrite s t agent (windowPA u ((if c then 0x2C7000 else 0x2B7000) + 8 * e)) 0)
    ∧ (1 ≤ e → e ≤ 4 → s.quiet u c = true → ∃ t y, exec (.stripStatusWrite agent u c e v) s = .next t ∧ y = (t.ctx u c).strip e
      ∧ onlyContext s t u c ∧ y.state = x.state ∧ y.pos = v.extractLsb' 0 23 ∧ y.el = v.getLsbD 23
      ∧ y.guards = x.guards
      ∧ (v.extractLsb' 0 23 ≠ x.pos ∨ v.extractLsb' 40 16 = 0 → y.ust = 0 ∧ y.held = [] ∧ y.done = [] ∧ y.op = none ∧ y.spent = 0)
      ∧ (v.extractLsb' 0 23 = x.pos → v.extractLsb' 40 16 ≠ 0 →
        y.ust = (v.extractLsb' 40 16).toNat ∧ y.loose = (x.loose || (v.extractLsb' 40 16).toNat != x.ust) ∧ y.held = x.held ∧ y.done = x.done ∧ y.op = x.op)
      ∧ ∀ k, 1 ≤ k → k ≤ 4 → k ≠ e → (t.ctx u c).strip k = (s.ctx u c).strip k))
  ∧ (∀ (s : State) (agent u k : Nat) (c : Bool) (v : Word), u < 768 ∨ (u < 784 ∧ c = false) →
    (u < 768 → 4 ≤ k % 16 → exec (.timelineWindowWrite agent u c k v) s = .next s)
    ∧ (768 ≤ u ∨ k % 16 < 4 → s.quiet u c = false → ∃ t, exec (.timelineWindowWrite agent u c k v) s = .next t
      ∧ refusedWrite s t agent (windowPA u ((if c then 0x2C6400 else 0x2B6400) + 8 * (k % 16))) 0)
    ∧ (s.quiet u c = true → ∃ t, exec (.timelineWindowWrite agent u c k v) s = .next t ∧ onlyContext s t u c
      ∧ ∀ n, (t.ctx u c).tl.look 0 n = if n = k % 16 ∧ (768 ≤ u ∨ k % 16 < 4) then max ((s.ctx u c).tl.look 0 n) v.toNat
          else (s.ctx u c).tl.look 0 n))
  -- words of the unit's records
  ∧ (∀ (s : State) (agent u a : Nat) (v : Word),
    (∃ t, exec (.errorLogClear agent u a) s = .next t ∧ t.mem = s.mem ∧ (∀ w d, t.ctx w d = s.ctx w d)
      ∧ (t.tile u).elog.look {} (a % 8) = { (s.tile u).elog.look {} (a % 8) with valid := false, ue := false, ovf := false, inj := false }
      ∧ (∀ k, k ≠ a % 8 → (t.tile u).elog.look {} k = (s.tile u).elog.look {} k)
      ∧ (t.tile u).hang.look 0 0 = (if a % 8 = 6 then (s.tile u).hang.look 0 0 &&& 0x3FFFFFFFFFFFFFFF else (s.tile u).hang.look 0 0))
    ∧ (u < 768 → (∃ t, exec (.traceControlWrite agent u v) s = .next t ∧ t.mem = s.mem ∧ (∀ w d, t.ctx w d = s.ctx w d)
        ∧ (t.tile u).trace = { (s.tile u).trace with ctl := v &&& 0x9FFF0F00FFFFFFFE, drop := 0, head := 0, tidx := 0, post := none })
      ∧ ∃ t, exec (.monitorConfigWrite agent false u a v) s = .next t ∧ t.mem = s.mem ∧ (∀ w d, t.ctx w d = s.ctx w d)
        ∧ (t.tile u).mon.look {} (a % 2)
            = { bins := [], count := 0, min := 0xFFFFFFFF, max := 0, config := v &&& 0xFFFFFFFF00F0FF0F }
        ∧ ∀ k, k ≠ a % 2 → (t.tile u).mon.look {} k = (s.tile u).mon.look {} k))
  -- any window write
  ∧ ∀ (s : State) (agent : Nat) (a : ByteAccess),
    (∀ i, s.badPA (stewardAgent agent) a.addr = some i → ∃ t, exec (.windowWrite agent a) s = .next t ∧ refusedWrite s t agent a.addr i)
    ∧ (s.badPA (stewardAgent agent) a.addr = none → a.addr / 2 ^ 52 ≠ 0xE → a.addr / 2 ^ 52 ≠ 0xF →
      ∃ t, exec (.windowWrite agent a) s = .next t ∧ refusedWrite s t agent a.addr 1)
    ∧ ∀ u off n, u < 784 → a.addr = windowPA u off → n = min a.size 64 → plainPad s u off n →
      (someRefused s u off n (stewardAgent agent) → ∃ t, exec (.windowWrite agent a) s = .next t ∧ refusedWrite s t agent a.addr 0)
      ∧ (allAccepted s u off n (stewardAgent agent) → ∃ t, exec (.windowWrite agent a) s = .next t
        ∧ onlyBytes s t a.addr n a.data.toNat ∧ (∀ w d, t.ctx w d = s.ctx w d))
  ) ∧ (
  (∀ (s : State) (a : ByteAccess) (n : Nat), n = min a.size 64 → s.power = true → s.flips = [] → a.addr + n ≤ 2 ^ 40 →
    (a.write = true → ∃ t, exec (.hostApertureAccess a) s = .next t ∧ t.mem = writeBytes s.mem a.addr n a.data.toNat ∧ t.units = s.units
      ∧ t.out = s.out
      ∧ (∀ l ∈ linesOf a.addr n, ((∃ j, j < 8 ∧ (s.job j).opened = true ∧ (s.job j).tracks l = true) → t.stamp l = 0xFFF)
        ∧ ((∀ j, j < 8 → (s.job j).opened = true → (s.job j).tracks l = false) → t.stamp l = 0xFFD))
      ∧ ∀ l, l ∉ linesOf a.addr n → t.stamp l = s.stamp l)
    ∧ (a.write = false → ∃ t, exec (.hostApertureAccess a) s = .next t ∧ t.mem = s.mem
      ∧ t.out = s.out ++ [.host (bytesOf (readBytes s.mem a.addr n) n)]))
  ∧ (∀ (s : State) (a : ByteAccess) (n u off : Nat), n = min a.size 64 → 0 < n → s.power = true → s.flips = [] → u < 784 → off + n ≤ 2 ^ 22 →
    a.addr = 2 ^ 40 + u * 2 ^ 22 + off →
    (a.write = false → exec (.hostApertureAccess a) s = .next { s with out := s.out ++ [.host (bytesOf (s.windowRead u off n) n)] })
    ∧ (a.write = true → plainPad s u off n →
      (allAccepted s u off n false → ∃ t, exec (.hostApertureAccess a) s = .next t
        ∧ onlyBytes s t (windowPA u off) n a.data.toNat ∧ t.out = s.out)
      ∧ (someRefused s u off n false → exec (.hostApertureAccess a) s
          = .next { s with out := s.out ++ [.hostUnsupported (windowPA u off)] })))
  ∧ (∀ (s : State) (a : ByteAccess) (n off : Nat), n = min a.size 64 → s.power = true → off + n ≤ 2 ^ 32 → a.addr = 0x11000000000 + off →
    (a.write = true → exec (.hostApertureAccess a) s = .next s)
    ∧ (a.write = false → exec (.hostApertureAccess a) s = .next { s with out := s.out ++ [.host (bytesOf (s.controlRead off n) n)] }))
  ∧ ∀ (s : State) (a : ByteAccess) (n : Nat), n = min a.size 64 → (s.power = false ∨ 0x11100000000 < a.addr) →
    exec (.hostApertureAccess a) s = .next { s with out := s.out ++ .hostUnsupported a.addr
      :: (if a.write then [] else [.host (List.replicate n 0xFF)]) }
  )

/-- 15 R417, R419, R423: what the responder answers to each request, in which state, and what a sensor read answers;
without auxiliary power nothing is answered. The codes are those of log entry 9.

14 R398, R405, R406; 15 R422: debug messages act only inside a session: they read and write windows and control space
with steward rights, whistle, release and step jobs, step engines, halt and restart stewards, and reset the module.

A debugger's whistle is that of log entry 33. -/
def Obligations.SidebandResults : Prop :=
  (
  (∀ (s : State) (i : Instr) (r : List Byte), (attestRequest i = some r ∨ ∃ k, i = .pldmGetSensor k) → s.boot.aux = false →
    exec i s = .next s)
  ∧ ∀ (s : State) (r : List Byte), s.boot.aux = true →
    repliesWith (.getVersion r) s { versionDone := true } [0x10, 0x04, 0, 0, 0, 1, 0x00, 0x12]
    ∧ (s.spdm.versionDone = true → repliesWith (.getCapabilities r) s { s.spdm with capsDone := true }
        [0x12, 0x61, 0, 0, 0, 0, 0, 0, 0xD6, 0x02, 0, 0, 0, 0x10, 0, 0, 0, 0x10, 0, 0])
    ∧ (s.spdm.versionDone = false → replies (.getCapabilities r) s [0x12, 0x7F, 4, 0])
    ∧ (s.spdm.capsDone = true → repliesWith (.negotiateAlgorithms r) s { s.spdm with algorithmsDone := true }
        [0x12, 0x63, 0, 0, 0x80, 0, 0, 0, 0x02, 0, 0, 0])
    ∧ (s.spdm.capsDone = false → replies (.negotiateAlgorithms r) s [0x12, 0x7F, 4, 0])
    ∧ (∀ i, (i = .getDigests r ∨ i = .getCertificate r ∨ i = .challenge r ∨ i = .getMeasurements r ∨ i = .keyExchange r ∨ i = .finish r) →
      (s.boot.aliasKey = none ∨ s.spdm.algorithmsDone = false) → replies i s [0x12, 0x7F, 4, 0])
    ∧ (∀ key, s.boot.aliasKey = some key → s.spdm.algorithmsDone = true →
      replies (.getDigests r) s ([0x12, 0x01, 0, 1] ++ digestBytes (Config.sha384 (Config.certificate 0)))
      ∧ ((reqByte r 2 % 16 ≠ 0 → replies (.getCertificate r) s [0x12, 0x7F, 1, 0])
        ∧ ∀ part rest, reqByte r 2 % 16 = 0 → rest = (Config.certificate 0).drop (reqByte r 4 + 256 * reqByte r 5) →
          part = rest.take (reqByte r 6 + 256 * reqByte r 7) →
          replies (.getCertificate r) s
            ([0x12, 0x02, 0, 0] ++ bytesOf part.length 2 ++ bytesOf (rest.length - part.length) 2 ++ part))
      ∧ (reqByte r 2 ≠ 0 → replies (.challenge r) s [0x12, 0x7F, 1, 0])
      ∧ (reqByte r 2 = 0 → replies (.challenge r) s ([0x12, 0x03, 0, 1] ++ digestBytes (Config.sha384 (Config.certificate 0))
          ++ Config.sign key (r ++ digestBytes (Config.sha384 (Config.certificate 0)))))
      ∧ (5 < reqByte r 3 → reqByte r 3 ≠ 0xFF → replies (.getMeasurements r) s [0x12, 0x7F, 1, 0])
      ∧ (∀ one body, 1 ≤ reqByte r 3 → reqByte r 3 ≤ 5 → one = s.measurement (reqByte r 3) →
        body = [(1 : Byte)] ++ bytesOf (one.length + 4) 3 ++ ([BitVec.ofNat 8 (reqByte r 3), 1] ++ bytesOf one.length 2 ++ one) →
        replies (.getMeasurements r) s ([0x12, 0x60, 0, 0] ++ (if reqByte r 2 % 2 = 1 then body ++ Config.sign key (r ++ body) else body)))
      ∧ (reqByte r 3 = 0 → replies (.getMeasurements r) s ([0x12, 0x60, 5, 0]
          ++ (if reqByte r 2 % 2 = 1 then [0, 0, 0, 0] ++ Config.sign key (r ++ [0, 0, 0, 0]) else [0, 0, 0, 0])))
      ∧ (reqByte r 3 ≠ 0 → replies (.keyExchange r) s [0x12, 0x7F, 1, 0])
      ∧ (reqByte r 3 = 0 → repliesWith (.keyExchange r) s { s.spdm with exchange := some (Config.sharedSecret key r) }
          ([0x12, 0x64, 0, 0] ++ Config.sign key r))
      ∧ (s.spdm.exchange = none → replies (.finish r) s [0x12, 0x7F, 4, 0])
      ∧ ∀ k, s.spdm.exchange = some k →
        (Config.finishOk k r = true → repliesWith (.finish r) s { s.spdm with session := true } [0x12, 0x65, 0, 0])
        ∧ (Config.finishOk k r = false → replies (.finish r) s [0x12, 0x7F, 6, 0]))
    ∧ (s.spdm.session = true → repliesWith (.endSession r) s { s.spdm with session := false, exchange := none } [0x12, 0x6C, 0, 0])
    ∧ (s.spdm.session = false → replies (.endSession r) s [0x12, 0x7F, 4, 0])
    ∧ replies (.spdmUnsupportedRequest r) s [0x12, 0x7F, 7, BitVec.ofNat 8 (reqByte r 1)]
    ∧ ∀ k v, (s.sensorReading k = none → replies (.pldmGetSensor k) s [0x80])
      ∧ (s.sensorReading k = some v → replies (.pldmGetSensor k) s (0 :: bytesOf v 4))
  ) ∧ (
  (∀ (s : State) (i : Instr), debugMessage i = true → s.spdm.session = false → exec i s = .next s)
  ∧ ∀ (s : State), s.spdm.session = true →
    (∀ (a : ByteAccess) (n : Nat), n = min a.size 64 →
      ((s.badPA true a.addr).isSome = true → exec (.debugWindowAccess a) s = .next s)
      ∧ (s.badPA true a.addr = none → a.addr / 2 ^ 52 = 0xE →
        (a.write = false → s.flips = [] → replies (.debugWindowAccess a) s (bytesOf (s.windowRead (a.addr / 2 ^ 22 % 1024) (a.addr % 2 ^ 22) n) n))
        ∧ ∀ u off, a.addr = windowPA u off → u < 784 → plainPad s u off n → a.write = true →
          (allAccepted s u off n true → ∃ t, exec (.debugWindowAccess a) s = .next t ∧ onlyBytes s t a.addr n a.data.toNat)
          ∧ (someRefused s u off n true → exec (.debugWindowAccess a) s = .next s))
      ∧ (s.badPA true a.addr = none → a.addr / 2 ^ 52 = 0xF →
        (a.write = false → replies (.debugWindowAccess a) s (bytesOf (s.controlRead (a.addr % 2 ^ 32) n) n))
        ∧ (a.write = true → a.addr % 2 ^ 32 < 0xE0000 ∨ 0xE0200 ≤ a.addr % 2 ^ 32 →
          ∃ t, exec (.debugWindowAccess a) s = .next t ∧ t = s.controlWrite (a.addr % 2 ^ 32) n a.data.toNat)
        ∧ (∀ j, a.write = true → n = 8 → a.addr % 2 ^ 32 = 0xE0000 + 0x40 * j → j < 8 → (s.job j).valid = false ∨ (s.job j).settled = true →
          exec (.debugWindowAccess a) s = .next s)))
    ∧ (∀ (id : BitVec 32), (s.jobSlot id = none → exec (.debugWhistle id) s = .next s)
      ∧ ∀ j, s.jobSlot id = some j → (s.job j).valid = false → ∃ t, exec (.debugWhistle id) s = .next t ∧ t.mem = s.mem ∧ t.units = s.units
        ∧ (t.job j).valid = true ∧ (t.job j).settled = false ∧ (t.job j).runState = 1
        ∧ (t.job j).winner = some { time := s.ns, frac := s.frac, dev := s.device, tile := 0x3FF, eng := 0, cause := 0x22, info0 := 0 }
        ∧ (s.cycle + waveDelay 0 0 0, .waveReachesTile j 0) ∈ t.agenda)
    ∧ (∀ (id : BitVec 32) (v : Word), (s.jobSlot id = none → exec (.debugRelease id v) s = .next s)
      ∧ ∀ j, s.jobSlot id = some j →
        (s.mayRelease j = true → s.ns + 4000 ≤ v.toNat → v.toNat ≤ s.ns + 2 ^ 32 → ∃ t, exec (.debugRelease id v) s = .next t
          ∧ releasedAt s t j v.toNat none)
        ∧ (s.mayRelease j = false ∨ v.toNat < s.ns + 4000 ∨ s.ns + 2 ^ 32 < v.toNat → exec (.debugRelease id v) s = .next s))
    ∧ (∀ (a b : Word) (j : Nat), s.jobSlot (a.extractLsb' 0 32) = some j →
      (a.toNat < 2 ^ 32 → 0 < b.toNat → b.toNat < 2 ^ 32 → s.mayRelease j = true → ∃ t, exec (.debugStep 0 a b) s = .next t
        ∧ releasedAt s t j (s.ns + 4096) (some b.toNat))
      ∧ (2 ^ 32 ≤ a.toNat ∨ b.toNat = 0 ∨ 2 ^ 32 ≤ b.toNat ∨ s.mayRelease j = false → exec (.debugStep 0 a b) s = .next s))
    ∧ (∀ (a b : Word) (k : Nat), 0 < k →
      (k ≤ 2 → s.mayStep a.toNat = true → ∃ t, exec (.debugStep k a b) s = .next t ∧ t.mem = s.mem
        ∧ (t.tile (a.toNat % 1024)).stepping = some
            { eng := a.toNat / 4096 % 8, whole := decide (k = 2) || decide (a.toNat / 4096 % 8 = 0), since := s.cycle }
        ∧ ∀ v, v ≠ a.toNat % 1024 → t.tile v = s.tile v)
      ∧ (2 < k ∨ s.mayStep a.toNat = false → exec (.debugStep k a b) s = .next s))
    ∧ (∀ k, (16 ≤ k → exec (.debugHaltSteward k) s = .next s ∧ exec (.debugRestartSteward k) s = .next s)
      ∧ (k < 16 → (∃ t, exec (.debugHaltSteward k) s = .next t ∧ t.mem = s.mem ∧ (t.tile (768 + k)).halted = true
          ∧ (∀ w d, t.ctx w d = s.ctx w d) ∧ ∀ v, v ≠ 768 + k → t.tile v = s.tile v)
        ∧ ∃ t, exec (.debugRestartSteward k) s = .next t ∧ t.mem = s.mem ∧ (t.tile (768 + k)).halted = false
          ∧ (t.ctx (768 + k) false).stopped = false ∧ (t.ctx (768 + k) false).queue = (s.ctx (768 + k) false).queue
          ∧ ∀ v, v ≠ 768 + k → t.tile v = s.tile v))
    ∧ ∃ t, exec .debugReset s = .next t ∧ restarted s t s.boot.images s.boot.helper
  )

namespace Sys2Proof.Claims

/-! ### The step, the decoder and the invariant -/

/-- Instruction `i` is the row of the opcode table that event `e` is. -/
def isRow (e : Event) (i : Instr) : Prop :=
  match e with
  | .microStep u e => i = .microStep u e
  | .pipelinedResultWrite u c r v fl sat => i = .pipelinedResultWrite u c r v fl sat
  | .vectorResultLands u c r on v bad fl sat => i = .vectorResultLands u c r on v bad fl sat
  | .accumulatorEntry u row v => i = .accumulatorEntry u row v
  | .wloadEntry u => i = .wloadEntry u
  | .latchValid u w => i = .latchValid u w
  | .latchRestoreComplete u => i = .latchRestoreComplete u
  | .rowBufferDrain u bank => i = .rowBufferDrain u bank
  | .eccWriteback pa => i = .eccWriteback pa
  | .asyncTrapDelivery u c => i = .asyncTrapDelivery u c
  | .boundaryConditionsMet j => i = .boundaryConditionsMet j
  | .minimumPairExpiry j => i = .minimumPairExpiry j
  | .timedBoundaryTime j => i = .timedBoundaryTime j
  | .boundarySequence j => i = .boundarySequence j
  | .startPulseArrival j u => i = .startPulseArrival j u
  | .stragglerFault j => i = .stragglerFault j
  | .deadlineFault u c => i = .deadlineFault u c
  | .hangFault u c e => i = .hangFault u c e
  | .waveReachesTile j u => i = .waveReachesTile j u
  | .causeSettle j => i = .causeSettle j
  | .tileRelease j u => i = .tileRelease j u
  | .stepRefreeze j u => i = .stepRefreeze j u
  | .stepTimeout u e => i = .stepTimeout u e
  | .write p => i = .write p
  | .writem p => i = .writem p
  | .read p => i = .read p
  | .rreply p => i = .rreply p
  | .cread p => i = .cread p
  | .creply p => i = .creply p
  | .rcount p => i = .rcount p
  | .rslot p => i = .rslot p
  | .atom p => i = .atom p
  | .ares p => i = .ares p
  | .red p => i = .red p
  | .reductionDelivery w => i = .reductionDelivery w
  | .ack p => i = .ack p
  | .nack p => i = .nack p
  | .probe p => i = .probe p
  | .back p => i = .back p
  | .ready p => i = .ready p
  | .fail p => i = .fail p
  | .cmark p => i = .cmark p
  | .creport p => i = .creport p
  | .fault p => i = .fault p
  | .free p => i = .free p
  | .barrier p => i = .barrier p
  | .whistleFreeze p => i = .whistleFreeze p
  | .whistleResume p => i = .whistleResume p
  | .whistleJobStep p => i = .whistleJobStep p
  | .circuitBeat u cid n v bad late => i = .circuitBeat u cid n v bad late
  | .circuitTeardown u src cause => i = .circuitTeardown u src cause
  | .leaseExpiry u c h => i = .leaseExpiry u c h
  | .meterIdleExpiry u k => i = .meterIdleExpiry u k
  | .holdoffExpiry u k => i = .holdoffExpiry u k
  | .meterDecay u => i = .meterDecay u
  | .meterProbeTimeout u k => i = .meterProbeTimeout u k
  | .handleProbeTimeout u c h => i = .handleProbeTimeout u c h
  | .reservationTimeout entry => i = .reservationTimeout entry
  | .retransmitTimeout u ddev dtile label => i = .retransmitTimeout u ddev dtile label
  | .ackTimer u sdev stile label => i = .ackTimer u sdev stile label
  | .nackRetry u ddev dtile label seq => i = .nackRetry u ddev dtile label seq
  | .hostAccessTimeout u c elem => i = .hostAccessTimeout u c elem
  | .streamGranule u => i = .streamGranule u
  | .streamComplete u c k => i = .streamComplete u c k
  | .timelineIncrement u c k => i = .timelineIncrement u c k
  | .pageWalkComplete u c w => i = .pageWalkComplete u c w
  | .tlbinvMarkersComplete shadow => i = .tlbinvMarkersComplete shadow
  | .launchLoadComplete p => i = .launchLoadComplete p
  | .ctxsaveComplete p => i = .ctxsaveComplete p
  | .ctxloadComplete p => i = .ctxloadComplete p
  | .monitorWake u => i = .monitorWake u
  | .mwaitTimeout u => i = .mwaitTimeout u
  | .monitorLoss u => i = .monitorLoss u
  | .sweeperVisit line => i = .sweeperVisit line
  | .hostApertureAccess a => i = .hostApertureAccess a
  | .linkTrained link ldig rdig lat => i = .linkTrained link ldig rdig lat
  | .quarantineRetrain link => i = .quarantineRetrain link
  | .linkFailure link => i = .linkFailure link
  | .retrainWrite agent link => i = .retrainWrite agent link
  | .nutonRetrain width => i = .nutonRetrain width
  | .syncInterval => i = .syncInterval
  | .sync m => i = .sync m
  | .followUp m => i = .followUp m
  | .delayReq m => i = .delayReq m
  | .delayResp m => i = .delayResp m
  | .announce m => i = .announce m
  | .auxPowerOn images helper => i = .auxPowerOn images helper
  | .startupStageComplete r => i = .startupStageComplete r
  | .moduleReset => i = .moduleReset
  | .temperatureWarning die sensor reading => i = .temperatureWarning die sensor reading
  | .criticalTemperature die sensor => i = .criticalTemperature die sensor
  | .railRemoval => i = .railRemoval
  | .getVersion req => i = .getVersion req
  | .getCapabilities req => i = .getCapabilities req
  | .negotiateAlgorithms req => i = .negotiateAlgorithms req
  | .getDigests req => i = .getDigests req
  | .getCertificate req => i = .getCertificate req
  | .challenge req => i = .challenge req
  | .getMeasurements req => i = .getMeasurements req
  | .keyExchange req => i = .keyExchange req
  | .finish req => i = .finish req
  | .endSession req => i = .endSession req
  | .spdmUnsupportedRequest req => i = .spdmUnsupportedRequest req
  | .pldmGetSensor sensor => i = .pldmGetSensor sensor
  | .debugWindowAccess a => i = .debugWindowAccess a
  | .debugWhistle job => i = .debugWhistle job
  | .debugRelease job t => i = .debugRelease job t
  | .debugStep kind a b => i = .debugStep kind a b
  | .debugHaltSteward k => i = .debugHaltSteward k
  | .debugRestartSteward k => i = .debugRestartSteward k
  | .debugReset => i = .debugReset
  | .barrierPlaneWrite agent j v => i = .barrierPlaneWrite agent j v
  | .rfqServed agent u c k => i = .rfqServed agent u c k
  | .rfqDead agent u c k => i = .rfqDead agent u c k
  | .streamRetry agent u c k => i = .streamRetry agent u c k
  | .stripStatusWrite agent u c e v => i = .stripStatusWrite agent u c e v
  | .timelineWindowWrite agent u c k v => i = .timelineWindowWrite agent u c k v
  | .noticeLineSet agent die v => i = .noticeLineSet agent die v
  | .errorLogClear agent u a => i = .errorLogClear agent u a
  | .traceControlWrite agent u v => i = .traceControlWrite agent u v
  | .monitorConfigWrite agent die inst k v => i = .monitorConfigWrite agent die inst k v
  | .routeUnitJobWrite agent die v => i = .routeUnitJobWrite agent die v
  | .windowWrite agent a => i = .windowWrite agent a
  | .circuitDeparture u run => i = .circuitDeparture u run
  | .reservedTypePacket link p => i = .reservedTypePacket link p
  | .healthMonitorSample die inst src sel value => i = .healthMonitorSample die inst src sel value
  | .outside _ => False

/-- The words of a line that the slot at `p` and the link word, fetched as `link`, stand in are sound, and the line is one that engine
`e` may issue from: its ENG is `e`, its reserved bits are 0, and the slot is valid (02 R41, R63, R65). -/
def lineReady (s : State) (e : Nat) (w : Slot) (p : Pos) (link : BitVec 32) : Prop :=
  s.linePresent s.cur.unit s.bank (posLine p) = true
  ∧ (∀ i ∈ issueWords (linkNvs link) (posSlot p) (isTwoSlot e w), ∀ a, a = windowPA s.cur.unit (lineOffset (posLine p)) + 8 * i →
      s.flips.find a = none ∧ s.poisoned a = false)
  ∧ linkEng link = e ∧ link.extractLsb' 0 5 = 0 ∧ posSlot p ≤ linkNvs link

/-- What the turn of a strip leaves of what its instruction left: a timed strip that waits in a compute phase makes a slip, which holds
all four strips for one cycle (01 R30). -/
def afterTurn (m : State) : State :=
  if m.strip.wait ≠ 0 ∧ m.strip.state = 2 ∧ m.strip.el = false ∧ m.inExchange = false ∧ m.me.frozen = false ∧ m.here.slipped = false then
    m.countSlip.holdStrips [1, 2, 3, 4] else m

/-- `r` is a next state, changed by `f`. -/
def follows (r : Host.Outcome State Fault Refusal) (f : State → State) : Host.Outcome State Fault Refusal :=
  match r with
  | .next m => .next (f m)
  | r => r

/-- The control core of unit `u` has the turn in the state `m`, and may act. -/
def coreActing (s m : State) (u : Nat) : Prop :=
  s.inbox = [] ∧ s.power = true ∧ (s.tile u).stepping = none
  ∧ ∃ rest, s.ready = { unit := u, eng := 0 } :: rest ∧ m = { s with ready := rest, cur := { unit := u, eng := 0 } }
    ∧ m.here.coreActs u = true

/-- The control core of unit `u`, with the turn in `m` and no result outstanding that s2 waits for, stands before its instruction as
`n`: its queue refreshed. -/
def coreStands (s m n : State) (u : Nat) : Prop :=
  coreActing s m u ∧ m.me.late = none
  ∧ n = m.modMe (fun x => { x with queue := m.refresh u m.bank x.queue, unchecked := false })

end Sys2Proof.Claims

/-- 01 R12, R15, R29; 02 R43 to R46; 04 R107, R108: a step serves the first due event as its row of the opcode table; with
none due, the unit whose turn it is runs the instruction that the words at its position decode to, as `exec` gives it,
or goes on with the micro-step of one it stands in; with no turn left the cycle ends and the next begins. A strip goes
on with the slot it holds (02 R72); a core whose queue was loaded again checks its line before it goes on (02 R71).

The order of engines and events in a step is the model's (log entry 1). -/
def Obligations.StepRunsDecodedInstruction : Prop :=
  (∀ (s : State) (e : Event) (rest : List Event) (i : Instr), s.inbox = e :: rest → isRow e i →
    step s = exec i { s with inbox := rest })
  ∧ (∀ (s : State) (o : Outside) (rest : List Event), s.inbox = .outside o :: rest → step s = execOutside o { s with inbox := rest })
  ∧ (∀ s : State, s.inbox = [] → s.power = false → step s = .fault .poweredOff)
  -- the control core
  ∧ (∀ (s m n : State) (u : Nat), coreStands s m n u →
    (∀ p w nxt link i, n.me.queue.f0 = { pos := some p, slot := some (w, nxt), annul := false, link := link } →
      (m.me.ust = 0 ∨ m.me.unchecked = true ∨ n.multiHere = none) → lineReady n 0 w p link →
      decodeSlot (isSteward u) 0 w nxt = .instr i → step s = exec i n)
    ∧ (∀ p w link, n.me.queue.f0 = { pos := some p, slot := w, annul := false, link := link } →
      m.me.ust ≠ 0 → m.me.unchecked = false → n.multiHere.isSome = true → step s = exec (.microStep u 0) n))
  -- the strips
  ∧ (∀ (s n : State) (u e a : Nat) (p : Pos) (w : Slot) (nxt : Option Slot) (rest : List Agent), s.inbox = [] → s.power = true →
    (s.tile u).stepping = none → s.ready = { unit := u, eng := a } :: rest → 1 ≤ e → e ≤ 4 → (a = e ∨ (a = 6 ∧ e = 1)) →
    n = { s with ready := rest, cur := { unit := u, eng := e } } → n.here.stripActs e n.cycle = true →
    (e = 1 → n.usesCast = decide (a = 6)) → n.strip.pos = p → p ≠ 0x7FFFFF →
    (∀ i, (n.strip.slot = none ∨ n.multiHere = none) → n.fetch u n.bank p = some (w, nxt) →
      lineReady n e w p (n.linkWord u (posLine p)) → decodeSlot (isSteward u) e w nxt = .instr i →
      step s = follows (exec i n) afterTurn)
    ∧ (n.strip.slot.isSome = true → n.multiHere.isSome = true → step s = follows (exec (.microStep u e) n) afterTurn))
  -- the cycles
  ∧ ∀ s : State, s.inbox = [] → s.power = true → s.ready = [] →
    (s.ended = false → ∃ t, step s = .next t ∧ t.ended = true ∧ t.cycle = s.cycle ∧ t.time = s.time)
    ∧ (s.ended = true → ∃ t, step s = .next t ∧ t.ended = false ∧ t.cycle = s.cycle + 1
      ∧ (s.servo.lock = false → t.time = s.time + 1310720) ∧ s.time + 1310655 ≤ t.time ∧ t.time ≤ s.time + 1310785)

/-- 04 R102: a result of more than one cycle of latency whose destination is s2 holds its instruction until it is ready; then the stack
limit is checked: a result below it is refused with the stack-limit trap and s2 keeps its value, any other enters s2 with the dead
marks of its instruction, which is complete. -/
def Obligations.LateResultsReachS2 : Prop :=
  ∀ (s m : State) (u : Nat) (r : Late), coreActing s m u → m.me.late = some r →
    (r.at_ = none ∨ (∃ at_, r.at_ = some at_ ∧ s.cycle < at_) → step s = .next (m.stalled 6))
    ∧ ∀ at_, r.at_ = some at_ → at_ ≤ s.cycle →
      (m.me.belowLimit 2 r.v = false → ∃ t, step s = .next t ∧ t.me.readS 2 = r.v ∧ (∀ v, r.second = some v → t.me.readS 3 = v)
        ∧ t.me.late = none ∧ t.me.queue.f0.pos = (m.refresh u m.bank m.me.queue).f1.pos
        ∧ ∀ n, n < 256 → n ≠ 2 → n ≠ 3 → t.me.readS n = m.me.readS n)
      ∧ (m.me.belowLimit 2 r.v = true → m.reports 0x06 = false →
        step s = .next ((m.modMe fun x => { x with late := none }).takePrecise u m.bank
          { cause := 0x06, i0 := r.v, i1 := m.me.slim, pos := m.me.pc }))

/-- 04 R108: an entry of the fetch queue whose annul bit is set takes its issue cycle as a no-op: it reads and writes nothing, marks
nothing dead and raises no trap, whatever its slot holds, and the queue moves past it. -/
def Obligations.AnnulledEntriesPass : Prop :=
  ∀ (s m n : State) (u : Nat), coreStands s m n u → n.me.queue.f0.annul = true →
    ∃ t, step s = .next t ∧ t.sansIssue = n.sansIssue ∧ t.me.queue.f0 = n.me.queue.f1 ∧ t.me.queue.f1 = n.me.queue.f2
      ∧ t.me.ust = 0

/-- 02 R50, R53, R57 to R61: words written out from the encodings of the spec decode to the instructions they stand for. -/
def Obligations.SpecWordsDecode : Prop :=
  decodeSlot false 0 0x200000000000000 none = .instr (.addi { imm := 0 })
  ∧ decodeSlot false 0 0x6000A3004FFFFE8 none = .instr (.ld { d := 5, a := 3, x := 4, imm := 0xFFFFE8 })
  ∧ decodeSlot true 0 0x920004280000000 none = .instr (.stepJob { a := 4, b := 5 })
  ∧ decodeSlot false 1 0x10000380000C00 none
      = .instr (.sdesc { pl := false } { ds := 0, port := 7, cnt := 0, aux := 0, imm := 0x0C00 })
  ∧ decodeSlot false 3 0x6100005000A0000 (some 0xFF000003FC00000) = .instr (.vli {} { d := 5, t := 2, imm := 0x20000 } (some 0x3FC00000))
  ∧ decodeSlot false 2 0xA000004F000000 none = .instr (.mscan {} { row := 0, cnt := 79 })
  ∧ decodeSlot false 4 0x40000800000480 none = .instr (.wdsc {} { ds := 2, imm := 0x480 })

/-- 02 R47, R48, R50, R53, R57 to R61: every well-formed instruction decodes from its own encoding, with every operand at every value
its fields admit, on the engine it belongs to (any strip, for the common strip forms). -/
def Obligations.EncodingsDecodeBack : Prop :=
  ∀ (i : Instr) (w : Slot) (x nxt : Option Slot) (st : Bool) (e : Nat), WellFormed i → encode i = some (w, x) →
    (engineOf i = some e ∨ (engineOf i = none ∧ 1 ≤ e ∧ e ≤ 4)) → (privilegedOp e w.op = true → st = true) →
    (x.isSome = true → nxt = x) → decodeSlot st e w nxt = .instr i

/-- 07 R203, 08 R229: every step keeps memory in its one canonical form (addresses strictly rising, no byte listed that an
unlisted address reads as), so that equal memories are equal data.

What an unlisted byte reads as is the model's choice (log entry 4). -/
def Obligations.StepsKeepMemoryCanonical : Prop :=
  ∀ s t : State, Memory.wf s.mem = true → step s = .next t → Memory.wf t.mem = true

/-- 04 R103, R104, R106; 05 R131; 07 R208; 09 R260; 10 R324; 12 R356, R357; 13 R368: the module right after reset: no
power, no job, no placement, every context free with its registers at the reset values of the spec's tables, every
strip idle, memory in canonical form.

That scalar registers and timelines hold 0 before a launch, and what empty memory is, are the model's choices (log
entries 4, 5). -/
def Obligations.ResetHoldsSpecValues : Prop :=
  Memory.wf State.reset.mem = true ∧ State.reset.power = false ∧ State.reset.bench = 0 ∧ State.reset.threshold = 0x0010000000000004
  ∧ State.reset.servo.config = 0x600 ∧ (∀ j, (State.reset.job j).opened = false) ∧ (∀ p, (State.reset.placement p).state = 0)
  ∧ (∀ l, (State.reset.links.look {} l).state = 0) ∧ (∀ u, (State.reset.tile u).banks = [] ∧ (State.reset.tile u).tags = [])
  ∧ ∀ u c x, x = State.reset.ctx u c → x.life = .free ∧ x.disp = 0x5555555555555555 ∧ x.disphi = 0x5555555555555555 ∧ x.tvec = 0
    ∧ x.ebits = 0 ∧ x.mode = 0 ∧ x.frm = 0 ∧ x.fflags = 0 ∧ x.fpend = 0 ∧ x.slim = 0 ∧ x.budget = 0 ∧ x.bind = 0x00430021
    ∧ (∀ n, x.readS n = 0) ∧ (∀ k, (x.strip k).state = 0 ∧ (x.strip k).pos = 0 ∧ (x.strip k).guards = 1) ∧ (∀ k, x.tl.look 0 k = 0)
end

