-- ==== Sys2Proof/Laws/Maps.lean ====
section
/-!
SUPPORT. Laws of tables and of byte memory: a read after a write, the canonical form.
-/
namespace Sys2Proof.Machine

/-! ### Tables -/

@[simp] theorem Tab.look_put_same {α : Type} (d : α) (t : Tab α) (k : Nat) (v : α) : (t.put k v).look d k = v := by
  induction t with
  | nil => simp [Tab.put, Tab.look]
  | cons e t ih =>
    obtain ⟨k', v'⟩ := e
    simp only [Tab.put]
    split
    · simp [Tab.look]
    · split
      · simp [Tab.look]
      · rw [Tab.look, if_neg (by omega)]; exact ih

@[simp] theorem Tab.look_put_other {α : Type} (d : α) (t : Tab α) {k n : Nat} (v : α) (h : n ≠ k) :
    (t.put k v).look d n = t.look d n := by
  induction t with
  | nil => simp [Tab.put, Tab.look]; omega
  | cons e t ih =>
    obtain ⟨k', v'⟩ := e
    simp only [Tab.put]
    split
    · rw [Tab.look, if_neg (by omega)]
    · split
      · next h1 => subst h1; simp only [Tab.look]; rw [if_neg (by omega), if_neg (by omega)]
      · simp only [Tab.look]; split
        · rfl
        · exact ih

/-- A read after a write, whichever the two numbers. -/
theorem Tab.look_put {α : Type} (d : α) (t : Tab α) (k n : Nat) (v : α) :
    (t.put k v).look d n = if n = k then v else t.look d n := by
  split
  · next h => subst h; simp
  · next h => simp [h]

@[simp] theorem Tab.put_put {α : Type} (t : Tab α) (k : Nat) (v w : α) : (t.put k v).put k w = t.put k w := by
  induction t with
  | nil => simp [Tab.put]
  | cons e t ih =>
    obtain ⟨k', v'⟩ := e
    simp only [Tab.put]
    split
    · simp [Tab.put]
    · split
      · simp [Tab.put]
      · next h1 h2 => simp only [Tab.put]; rw [if_neg h1, if_neg h2, ih]

/-! ### Byte memory -/

theorem readByte_writeByte (m : List Host.Cell) (a b : Nat) (v : Byte) (h : Memory.wf m = true) :
    readByte (writeByte m a v) b = if b = a then v else readByte m b := by
  suffices H : ∀ lo, Memory.wfFrom lo m = true → readByte (writeByte m a v) b = if b = a then v else readByte m b from
    H none h
  clear h
  -- an address below every listed one reads 0
  have low : ∀ (t : List Host.Cell) (k : Nat), Memory.wfFrom (some k) t = true → ∀ b, b ≤ k → readByte t b = 0 := by
    intro t
    induction t with
    | nil => intros; rfl
    | cons e t ih =>
      obtain ⟨c, w⟩ := e
      intro k hk b hb
      simp only [Memory.wfFrom, Bool.and_eq_true, decide_eq_true_eq] at hk
      obtain ⟨⟨hk, -⟩, ht⟩ := hk
      simp only [readByte]
      rw [if_neg (by omega)]
      exact ih c ht b (by omega)
  induction m with
  | nil =>
    intro lo _
    simp only [writeByte]
    by_cases hv : v = 0
    · subst hv; simp [readByte]
    · simp only [hv, if_false, readByte]
      by_cases hb : a = b
      · simp [hb]
      · simp [hb, Ne.symm hb]
  | cons e t ih =>
    obtain ⟨c, w⟩ := e
    intro lo h
    simp only [Memory.wfFrom, Bool.and_eq_true] at h
    obtain ⟨⟨-, -⟩, ht⟩ := h
    simp only [writeByte]
    split
    · next hac =>
      by_cases hv : v = 0
      · subst hv
        simp only [if_true]
        by_cases hb : b = a
        · subst hb
          simp only [if_true, readByte]
          rw [if_neg (by omega)]
          exact low t c ht b (by omega)
        · simp [hb]
      · simp only [hv, if_false, readByte]
        by_cases hb : a = b
        · simp [hb]
        · simp [hb, Ne.symm hb]
    · split
      · next h1 h2 =>
        subst h2
        by_cases hv : v = 0
        · subst hv
          simp only [if_true, readByte]
          by_cases hb : b = a
          · subst hb; simp [low t b ht b (by omega)]
          · rw [if_neg hb, if_neg (by omega)]
        · simp only [hv, if_false, readByte]
          by_cases hb : a = b
          · simp [hb]
          · simp [hb, Ne.symm hb]
      · next h1 h2 =>
        simp only [readByte]
        by_cases hb : c = b
        · subst hb; simp; omega
        · simp only [hb, if_false]
          exact ih (some c) ht

theorem Memory.wfFrom_writeByte (m : List Host.Cell) (a : Nat) (v : Byte) :
    ∀ lo, Memory.wfFrom lo m = true → (∀ k, lo = some k → k < a) → Memory.wfFrom lo (writeByte m a v) = true := by
  induction m with
  | nil =>
    intro lo _ hlo
    simp only [writeByte]
    split
    · rfl
    · next hv =>
      cases lo with
      | none => simpa [Memory.wfFrom] using hv
      | some k => simpa [Memory.wfFrom, hlo k rfl] using hv
  | cons e t ih =>
    obtain ⟨c, w⟩ := e
    intro lo h hlo
    simp only [writeByte]
    have h' := h
    simp only [Memory.wfFrom, Bool.and_eq_true] at h'
    obtain ⟨⟨h1, h2⟩, h3⟩ := h'
    split
    · next hac =>
      split
      · exact h
      · next hv =>
        simp only [Memory.wfFrom, Bool.and_eq_true, decide_eq_true_eq]
        refine ⟨⟨?_, by simpa using hv⟩, ⟨hac, h2⟩, h3⟩
        cases lo with
        | none => rfl
        | some k => simp [hlo k rfl]
    · split
      · next h4 h5 =>
        subst h5
        split
        · cases lo with
          | none =>
            cases t with
            | nil => rfl
            | cons e t =>
              simp only [Memory.wfFrom, Bool.and_eq_true] at h3 ⊢
              exact ⟨⟨trivial, h3.1.2⟩, h3.2⟩
          | some k =>
            cases t with
            | nil => rfl
            | cons e t =>
              have := hlo k rfl
              simp only [Memory.wfFrom, Bool.and_eq_true, decide_eq_true_eq] at h3 ⊢
              exact ⟨⟨by omega, h3.1.2⟩, h3.2⟩
        · next hv =>
          simp only [Memory.wfFrom, Bool.and_eq_true]
          exact ⟨⟨h1, by simpa using hv⟩, h3⟩
      · next h4 h5 =>
        simp only [Memory.wfFrom, Bool.and_eq_true]
        refine ⟨⟨h1, h2⟩, ih (some c) h3 ?_⟩
        intro k hk
        injection hk with hk
        omega

theorem Memory.wf_writeByte {m : List Host.Cell} (a : Nat) (v : Byte) (h : Memory.wf m = true) :
    Memory.wf (writeByte m a v) = true := Memory.wfFrom_writeByte m a v none h (by simp)

theorem Memory.wf_writeBytes (n : Nat) : ∀ (m : List Host.Cell) (a v : Nat),
    Memory.wf m = true → Memory.wf (writeBytes m a n v) = true := by
  induction n with
  | zero => intro m a v h; exact h
  | succ n ih => intro m a v h; exact ih _ _ _ (Memory.wf_writeByte _ _ h)

/-- Each byte after a write of `n` bytes. -/
theorem readByte_writeBytes (n : Nat) : ∀ (m : List Host.Cell) (a v b : Nat), Memory.wf m = true →
    readByte (writeBytes m a n v) b
      = if a ≤ b ∧ b < a + n then BitVec.ofNat 8 (v / 256 ^ (b - a)) else readByte m b := by
  induction n with
  | zero => intro m a v b _; rw [writeBytes, if_neg (by omega)]
  | succ n ih =>
    intro m a v b h
    rw [writeBytes, ih _ _ _ _ (Memory.wf_writeByte _ _ h), readByte_writeByte _ _ _ _ h]
    by_cases h1 : b = a
    · subst h1
      rw [if_neg (by omega), if_pos rfl, if_pos (by omega)]
      simp
    · by_cases h2 : a + 1 ≤ b ∧ b < a + 1 + n
      · rw [if_pos h2, if_pos (by omega)]
        obtain ⟨k, rfl⟩ : ∃ k, b = a + 1 + k := ⟨b - (a + 1), by omega⟩
        rw [show a + 1 + k - (a + 1) = k by omega, show a + 1 + k - a = k + 1 by omega, Nat.pow_succ,
          Nat.mul_comm (256 ^ k), Nat.div_div_eq_div_mul]
      · rw [if_neg h2, if_neg h1, if_neg (by omega)]

end Sys2Proof.Machine
end

