-- ==== Sys2Proof/Laws/State.lean ====
section
/-!
SUPPORT. Laws of the accessors of State: what each update leaves, one lemma per field, and what a read of the updated part
gives.
-/
namespace Sys2Proof.Machine

/-! ### `State.setTile` -/

@[simp] theorem State.setTile_inbox (s : State) (u : Nat) (t : Tile) : (s.setTile u t).inbox = s.inbox := rfl
@[simp] theorem State.setTile_agenda (s : State) (u : Nat) (t : Tile) : (s.setTile u t).agenda = s.agenda := rfl
@[simp] theorem State.setTile_ready (s : State) (u : Nat) (t : Tile) : (s.setTile u t).ready = s.ready := rfl
@[simp] theorem State.setTile_cur (s : State) (u : Nat) (t : Tile) : (s.setTile u t).cur = s.cur := rfl
@[simp] theorem State.setTile_ended (s : State) (u : Nat) (t : Tile) : (s.setTile u t).ended = s.ended := rfl
@[simp] theorem State.setTile_fresh (s : State) (u : Nat) (t : Tile) : (s.setTile u t).fresh = s.fresh := rfl
@[simp] theorem State.setTile_cycle (s : State) (u : Nat) (t : Tile) : (s.setTile u t).cycle = s.cycle := rfl
@[simp] theorem State.setTile_time (s : State) (u : Nat) (t : Tile) : (s.setTile u t).time = s.time := rfl
@[simp] theorem State.setTile_servo (s : State) (u : Nat) (t : Tile) : (s.setTile u t).servo = s.servo := rfl
@[simp] theorem State.setTile_power (s : State) (u : Nat) (t : Tile) : (s.setTile u t).power = s.power := rfl
@[simp] theorem State.setTile_device (s : State) (u : Nat) (t : Tile) : (s.setTile u t).device = s.device := rfl
@[simp] theorem State.setTile_mem (s : State) (u : Nat) (t : Tile) : (s.setTile u t).mem = s.mem := rfl
@[simp] theorem State.setTile_stamps (s : State) (u : Nat) (t : Tile) : (s.setTile u t).stamps = s.stamps := rfl
@[simp] theorem State.setTile_poison (s : State) (u : Nat) (t : Tile) : (s.setTile u t).poison = s.poison := rfl
@[simp] theorem State.setTile_badLines (s : State) (u : Nat) (t : Tile) : (s.setTile u t).badLines = s.badLines := rfl
@[simp] theorem State.setTile_flips (s : State) (u : Nat) (t : Tile) : (s.setTile u t).flips = s.flips := rfl
@[simp] theorem State.setTile_jobs (s : State) (u : Nat) (t : Tile) : (s.setTile u t).jobs = s.jobs := rfl
@[simp] theorem State.setTile_nuton (s : State) (u : Nat) (t : Tile) : (s.setTile u t).nuton = s.nuton := rfl
@[simp] theorem State.setTile_nutonWidth (s : State) (u : Nat) (t : Tile) : (s.setTile u t).nutonWidth = s.nutonWidth := rfl
@[simp] theorem State.setTile_redwin (s : State) (u : Nat) (t : Tile) : (s.setTile u t).redwin = s.redwin := rfl
@[simp] theorem State.setTile_merged (s : State) (u : Nat) (t : Tile) : (s.setTile u t).merged = s.merged := rfl
@[simp] theorem State.setTile_flushes (s : State) (u : Nat) (t : Tile) : (s.setTile u t).flushes = s.flushes := rfl
@[simp] theorem State.setTile_delivered (s : State) (u : Nat) (t : Tile) : (s.setTile u t).delivered = s.delivered := rfl
@[simp] theorem State.setTile_portWait (s : State) (u : Nat) (t : Tile) : (s.setTile u t).portWait = s.portWait := rfl
@[simp] theorem State.setTile_hbmLog (s : State) (u : Nat) (t : Tile) : (s.setTile u t).hbmLog = s.hbmLog := rfl
@[simp] theorem State.setTile_links (s : State) (u : Nat) (t : Tile) : (s.setTile u t).links = s.links := rfl
@[simp] theorem State.setTile_noticeAddr (s : State) (u : Nat) (t : Tile) : (s.setTile u t).noticeAddr = s.noticeAddr := rfl
@[simp] theorem State.setTile_noticeCount (s : State) (u : Nat) (t : Tile) : (s.setTile u t).noticeCount = s.noticeCount := rfl
@[simp] theorem State.setTile_queues (s : State) (u : Nat) (t : Tile) : (s.setTile u t).queues = s.queues := rfl
@[simp] theorem State.setTile_reserving (s : State) (u : Nat) (t : Tile) : (s.setTile u t).reserving = s.reserving := rfl
@[simp] theorem State.setTile_reservedMarks (s : State) (u : Nat) (t : Tile) : (s.setTile u t).reservedMarks = s.reservedMarks := rfl
@[simp] theorem State.setTile_placed (s : State) (u : Nat) (t : Tile) : (s.setTile u t).placed = s.placed := rfl
@[simp] theorem State.setTile_saved (s : State) (u : Nat) (t : Tile) : (s.setTile u t).saved = s.saved := rfl
@[simp] theorem State.setTile_bench (s : State) (u : Nat) (t : Tile) : (s.setTile u t).bench = s.bench := rfl
@[simp] theorem State.setTile_threshold (s : State) (u : Nat) (t : Tile) : (s.setTile u t).threshold = s.threshold := rfl
@[simp] theorem State.setTile_route (s : State) (u : Nat) (t : Tile) : (s.setTile u t).route = s.route := rfl
@[simp] theorem State.setTile_group (s : State) (u : Nat) (t : Tile) : (s.setTile u t).group = s.group := rfl
@[simp] theorem State.setTile_routeUnit (s : State) (u : Nat) (t : Tile) : (s.setTile u t).routeUnit = s.routeUnit := rfl
@[simp] theorem State.setTile_resv (s : State) (u : Nat) (t : Tile) : (s.setTile u t).resv = s.resv := rfl
@[simp] theorem State.setTile_probes (s : State) (u : Nat) (t : Tile) : (s.setTile u t).probes = s.probes := rfl
@[simp] theorem State.setTile_atEnd (s : State) (u : Nat) (t : Tile) : (s.setTile u t).atEnd = s.atEnd := rfl
@[simp] theorem State.setTile_dieMon (s : State) (u : Nat) (t : Tile) : (s.setTile u t).dieMon = s.dieMon := rfl
@[simp] theorem State.setTile_contention (s : State) (u : Nat) (t : Tile) : (s.setTile u t).contention = s.contention := rfl
@[simp] theorem State.setTile_walkCache (s : State) (u : Nat) (t : Tile) : (s.setTile u t).walkCache = s.walkCache := rfl
@[simp] theorem State.setTile_shadows (s : State) (u : Nat) (t : Tile) : (s.setTile u t).shadows = s.shadows := rfl
@[simp] theorem State.setTile_boot (s : State) (u : Nat) (t : Tile) : (s.setTile u t).boot = s.boot := rfl
@[simp] theorem State.setTile_spdm (s : State) (u : Nat) (t : Tile) : (s.setTile u t).spdm = s.spdm := rfl
@[simp] theorem State.setTile_sensors (s : State) (u : Nat) (t : Tile) : (s.setTile u t).sensors = s.sensors := rfl
@[simp] theorem State.setTile_out (s : State) (u : Nat) (t : Tile) : (s.setTile u t).out = s.out := rfl

/-! ### `State.mod` -/

@[simp] theorem State.mod_inbox (s : State) (u : Nat) (f : Tile → Tile) : (s.mod u f).inbox = s.inbox := rfl
@[simp] theorem State.mod_agenda (s : State) (u : Nat) (f : Tile → Tile) : (s.mod u f).agenda = s.agenda := rfl
@[simp] theorem State.mod_ready (s : State) (u : Nat) (f : Tile → Tile) : (s.mod u f).ready = s.ready := rfl
@[simp] theorem State.mod_cur (s : State) (u : Nat) (f : Tile → Tile) : (s.mod u f).cur = s.cur := rfl
@[simp] theorem State.mod_ended (s : State) (u : Nat) (f : Tile → Tile) : (s.mod u f).ended = s.ended := rfl
@[simp] theorem State.mod_fresh (s : State) (u : Nat) (f : Tile → Tile) : (s.mod u f).fresh = s.fresh := rfl
@[simp] theorem State.mod_cycle (s : State) (u : Nat) (f : Tile → Tile) : (s.mod u f).cycle = s.cycle := rfl
@[simp] theorem State.mod_time (s : State) (u : Nat) (f : Tile → Tile) : (s.mod u f).time = s.time := rfl
@[simp] theorem State.mod_servo (s : State) (u : Nat) (f : Tile → Tile) : (s.mod u f).servo = s.servo := rfl
@[simp] theorem State.mod_power (s : State) (u : Nat) (f : Tile → Tile) : (s.mod u f).power = s.power := rfl
@[simp] theorem State.mod_device (s : State) (u : Nat) (f : Tile → Tile) : (s.mod u f).device = s.device := rfl
@[simp] theorem State.mod_mem (s : State) (u : Nat) (f : Tile → Tile) : (s.mod u f).mem = s.mem := rfl
@[simp] theorem State.mod_stamps (s : State) (u : Nat) (f : Tile → Tile) : (s.mod u f).stamps = s.stamps := rfl
@[simp] theorem State.mod_poison (s : State) (u : Nat) (f : Tile → Tile) : (s.mod u f).poison = s.poison := rfl
@[simp] theorem State.mod_badLines (s : State) (u : Nat) (f : Tile → Tile) : (s.mod u f).badLines = s.badLines := rfl
@[simp] theorem State.mod_flips (s : State) (u : Nat) (f : Tile → Tile) : (s.mod u f).flips = s.flips := rfl
@[simp] theorem State.mod_jobs (s : State) (u : Nat) (f : Tile → Tile) : (s.mod u f).jobs = s.jobs := rfl
@[simp] theorem State.mod_nuton (s : State) (u : Nat) (f : Tile → Tile) : (s.mod u f).nuton = s.nuton := rfl
@[simp] theorem State.mod_nutonWidth (s : State) (u : Nat) (f : Tile → Tile) : (s.mod u f).nutonWidth = s.nutonWidth := rfl
@[simp] theorem State.mod_redwin (s : State) (u : Nat) (f : Tile → Tile) : (s.mod u f).redwin = s.redwin := rfl
@[simp] theorem State.mod_merged (s : State) (u : Nat) (f : Tile → Tile) : (s.mod u f).merged = s.merged := rfl
@[simp] theorem State.mod_flushes (s : State) (u : Nat) (f : Tile → Tile) : (s.mod u f).flushes = s.flushes := rfl
@[simp] theorem State.mod_delivered (s : State) (u : Nat) (f : Tile → Tile) : (s.mod u f).delivered = s.delivered := rfl
@[simp] theorem State.mod_portWait (s : State) (u : Nat) (f : Tile → Tile) : (s.mod u f).portWait = s.portWait := rfl
@[simp] theorem State.mod_hbmLog (s : State) (u : Nat) (f : Tile → Tile) : (s.mod u f).hbmLog = s.hbmLog := rfl
@[simp] theorem State.mod_links (s : State) (u : Nat) (f : Tile → Tile) : (s.mod u f).links = s.links := rfl
@[simp] theorem State.mod_noticeAddr (s : State) (u : Nat) (f : Tile → Tile) : (s.mod u f).noticeAddr = s.noticeAddr := rfl
@[simp] theorem State.mod_noticeCount (s : State) (u : Nat) (f : Tile → Tile) : (s.mod u f).noticeCount = s.noticeCount := rfl
@[simp] theorem State.mod_queues (s : State) (u : Nat) (f : Tile → Tile) : (s.mod u f).queues = s.queues := rfl
@[simp] theorem State.mod_reserving (s : State) (u : Nat) (f : Tile → Tile) : (s.mod u f).reserving = s.reserving := rfl
@[simp] theorem State.mod_reservedMarks (s : State) (u : Nat) (f : Tile → Tile) : (s.mod u f).reservedMarks = s.reservedMarks := rfl
@[simp] theorem State.mod_placed (s : State) (u : Nat) (f : Tile → Tile) : (s.mod u f).placed = s.placed := rfl
@[simp] theorem State.mod_saved (s : State) (u : Nat) (f : Tile → Tile) : (s.mod u f).saved = s.saved := rfl
@[simp] theorem State.mod_bench (s : State) (u : Nat) (f : Tile → Tile) : (s.mod u f).bench = s.bench := rfl
@[simp] theorem State.mod_threshold (s : State) (u : Nat) (f : Tile → Tile) : (s.mod u f).threshold = s.threshold := rfl
@[simp] theorem State.mod_route (s : State) (u : Nat) (f : Tile → Tile) : (s.mod u f).route = s.route := rfl
@[simp] theorem State.mod_group (s : State) (u : Nat) (f : Tile → Tile) : (s.mod u f).group = s.group := rfl
@[simp] theorem State.mod_routeUnit (s : State) (u : Nat) (f : Tile → Tile) : (s.mod u f).routeUnit = s.routeUnit := rfl
@[simp] theorem State.mod_resv (s : State) (u : Nat) (f : Tile → Tile) : (s.mod u f).resv = s.resv := rfl
@[simp] theorem State.mod_probes (s : State) (u : Nat) (f : Tile → Tile) : (s.mod u f).probes = s.probes := rfl
@[simp] theorem State.mod_atEnd (s : State) (u : Nat) (f : Tile → Tile) : (s.mod u f).atEnd = s.atEnd := rfl
@[simp] theorem State.mod_dieMon (s : State) (u : Nat) (f : Tile → Tile) : (s.mod u f).dieMon = s.dieMon := rfl
@[simp] theorem State.mod_contention (s : State) (u : Nat) (f : Tile → Tile) : (s.mod u f).contention = s.contention := rfl
@[simp] theorem State.mod_walkCache (s : State) (u : Nat) (f : Tile → Tile) : (s.mod u f).walkCache = s.walkCache := rfl
@[simp] theorem State.mod_shadows (s : State) (u : Nat) (f : Tile → Tile) : (s.mod u f).shadows = s.shadows := rfl
@[simp] theorem State.mod_boot (s : State) (u : Nat) (f : Tile → Tile) : (s.mod u f).boot = s.boot := rfl
@[simp] theorem State.mod_spdm (s : State) (u : Nat) (f : Tile → Tile) : (s.mod u f).spdm = s.spdm := rfl
@[simp] theorem State.mod_sensors (s : State) (u : Nat) (f : Tile → Tile) : (s.mod u f).sensors = s.sensors := rfl
@[simp] theorem State.mod_out (s : State) (u : Nat) (f : Tile → Tile) : (s.mod u f).out = s.out := rfl

/-! ### `State.modCtx` -/

@[simp] theorem State.modCtx_inbox (s : State) (u : Nat) (c : Bool) (f : Ctx → Ctx) : (s.modCtx u c f).inbox = s.inbox := rfl
@[simp] theorem State.modCtx_agenda (s : State) (u : Nat) (c : Bool) (f : Ctx → Ctx) : (s.modCtx u c f).agenda = s.agenda := rfl
@[simp] theorem State.modCtx_ready (s : State) (u : Nat) (c : Bool) (f : Ctx → Ctx) : (s.modCtx u c f).ready = s.ready := rfl
@[simp] theorem State.modCtx_cur (s : State) (u : Nat) (c : Bool) (f : Ctx → Ctx) : (s.modCtx u c f).cur = s.cur := rfl
@[simp] theorem State.modCtx_ended (s : State) (u : Nat) (c : Bool) (f : Ctx → Ctx) : (s.modCtx u c f).ended = s.ended := rfl
@[simp] theorem State.modCtx_fresh (s : State) (u : Nat) (c : Bool) (f : Ctx → Ctx) : (s.modCtx u c f).fresh = s.fresh := rfl
@[simp] theorem State.modCtx_cycle (s : State) (u : Nat) (c : Bool) (f : Ctx → Ctx) : (s.modCtx u c f).cycle = s.cycle := rfl
@[simp] theorem State.modCtx_time (s : State) (u : Nat) (c : Bool) (f : Ctx → Ctx) : (s.modCtx u c f).time = s.time := rfl
@[simp] theorem State.modCtx_servo (s : State) (u : Nat) (c : Bool) (f : Ctx → Ctx) : (s.modCtx u c f).servo = s.servo := rfl
@[simp] theorem State.modCtx_power (s : State) (u : Nat) (c : Bool) (f : Ctx → Ctx) : (s.modCtx u c f).power = s.power := rfl
@[simp] theorem State.modCtx_device (s : State) (u : Nat) (c : Bool) (f : Ctx → Ctx) : (s.modCtx u c f).device = s.device := rfl
@[simp] theorem State.modCtx_mem (s : State) (u : Nat) (c : Bool) (f : Ctx → Ctx) : (s.modCtx u c f).mem = s.mem := rfl
@[simp] theorem State.modCtx_stamps (s : State) (u : Nat) (c : Bool) (f : Ctx → Ctx) : (s.modCtx u c f).stamps = s.stamps := rfl
@[simp] theorem State.modCtx_poison (s : State) (u : Nat) (c : Bool) (f : Ctx → Ctx) : (s.modCtx u c f).poison = s.poison := rfl
@[simp] theorem State.modCtx_badLines (s : State) (u : Nat) (c : Bool) (f : Ctx → Ctx) : (s.modCtx u c f).badLines = s.badLines := rfl
@[simp] theorem State.modCtx_flips (s : State) (u : Nat) (c : Bool) (f : Ctx → Ctx) : (s.modCtx u c f).flips = s.flips := rfl
@[simp] theorem State.modCtx_jobs (s : State) (u : Nat) (c : Bool) (f : Ctx → Ctx) : (s.modCtx u c f).jobs = s.jobs := rfl
@[simp] theorem State.modCtx_nuton (s : State) (u : Nat) (c : Bool) (f : Ctx → Ctx) : (s.modCtx u c f).nuton = s.nuton := rfl
@[simp] theorem State.modCtx_nutonWidth (s : State) (u : Nat) (c : Bool) (f : Ctx → Ctx) : (s.modCtx u c f).nutonWidth = s.nutonWidth := rfl
@[simp] theorem State.modCtx_redwin (s : State) (u : Nat) (c : Bool) (f : Ctx → Ctx) : (s.modCtx u c f).redwin = s.redwin := rfl
@[simp] theorem State.modCtx_merged (s : State) (u : Nat) (c : Bool) (f : Ctx → Ctx) : (s.modCtx u c f).merged = s.merged := rfl
@[simp] theorem State.modCtx_flushes (s : State) (u : Nat) (c : Bool) (f : Ctx → Ctx) : (s.modCtx u c f).flushes = s.flushes := rfl
@[simp] theorem State.modCtx_delivered (s : State) (u : Nat) (c : Bool) (f : Ctx → Ctx) : (s.modCtx u c f).delivered = s.delivered := rfl
@[simp] theorem State.modCtx_portWait (s : State) (u : Nat) (c : Bool) (f : Ctx → Ctx) : (s.modCtx u c f).portWait = s.portWait := rfl
@[simp] theorem State.modCtx_hbmLog (s : State) (u : Nat) (c : Bool) (f : Ctx → Ctx) : (s.modCtx u c f).hbmLog = s.hbmLog := rfl
@[simp] theorem State.modCtx_links (s : State) (u : Nat) (c : Bool) (f : Ctx → Ctx) : (s.modCtx u c f).links = s.links := rfl
@[simp] theorem State.modCtx_noticeAddr (s : State) (u : Nat) (c : Bool) (f : Ctx → Ctx) : (s.modCtx u c f).noticeAddr = s.noticeAddr := rfl
@[simp] theorem State.modCtx_noticeCount (s : State) (u : Nat) (c : Bool) (f : Ctx → Ctx) : (s.modCtx u c f).noticeCount = s.noticeCount := rfl
@[simp] theorem State.modCtx_queues (s : State) (u : Nat) (c : Bool) (f : Ctx → Ctx) : (s.modCtx u c f).queues = s.queues := rfl
@[simp] theorem State.modCtx_reserving (s : State) (u : Nat) (c : Bool) (f : Ctx → Ctx) : (s.modCtx u c f).reserving = s.reserving := rfl
@[simp] theorem State.modCtx_reservedMarks (s : State) (u : Nat) (c : Bool) (f : Ctx → Ctx) : (s.modCtx u c f).reservedMarks = s.reservedMarks := rfl
@[simp] theorem State.modCtx_placed (s : State) (u : Nat) (c : Bool) (f : Ctx → Ctx) : (s.modCtx u c f).placed = s.placed := rfl
@[simp] theorem State.modCtx_saved (s : State) (u : Nat) (c : Bool) (f : Ctx → Ctx) : (s.modCtx u c f).saved = s.saved := rfl
@[simp] theorem State.modCtx_bench (s : State) (u : Nat) (c : Bool) (f : Ctx → Ctx) : (s.modCtx u c f).bench = s.bench := rfl
@[simp] theorem State.modCtx_threshold (s : State) (u : Nat) (c : Bool) (f : Ctx → Ctx) : (s.modCtx u c f).threshold = s.threshold := rfl
@[simp] theorem State.modCtx_route (s : State) (u : Nat) (c : Bool) (f : Ctx → Ctx) : (s.modCtx u c f).route = s.route := rfl
@[simp] theorem State.modCtx_group (s : State) (u : Nat) (c : Bool) (f : Ctx → Ctx) : (s.modCtx u c f).group = s.group := rfl
@[simp] theorem State.modCtx_routeUnit (s : State) (u : Nat) (c : Bool) (f : Ctx → Ctx) : (s.modCtx u c f).routeUnit = s.routeUnit := rfl
@[simp] theorem State.modCtx_resv (s : State) (u : Nat) (c : Bool) (f : Ctx → Ctx) : (s.modCtx u c f).resv = s.resv := rfl
@[simp] theorem State.modCtx_probes (s : State) (u : Nat) (c : Bool) (f : Ctx → Ctx) : (s.modCtx u c f).probes = s.probes := rfl
@[simp] theorem State.modCtx_atEnd (s : State) (u : Nat) (c : Bool) (f : Ctx → Ctx) : (s.modCtx u c f).atEnd = s.atEnd := rfl
@[simp] theorem State.modCtx_dieMon (s : State) (u : Nat) (c : Bool) (f : Ctx → Ctx) : (s.modCtx u c f).dieMon = s.dieMon := rfl
@[simp] theorem State.modCtx_contention (s : State) (u : Nat) (c : Bool) (f : Ctx → Ctx) : (s.modCtx u c f).contention = s.contention := rfl
@[simp] theorem State.modCtx_walkCache (s : State) (u : Nat) (c : Bool) (f : Ctx → Ctx) : (s.modCtx u c f).walkCache = s.walkCache := rfl
@[simp] theorem State.modCtx_shadows (s : State) (u : Nat) (c : Bool) (f : Ctx → Ctx) : (s.modCtx u c f).shadows = s.shadows := rfl
@[simp] theorem State.modCtx_boot (s : State) (u : Nat) (c : Bool) (f : Ctx → Ctx) : (s.modCtx u c f).boot = s.boot := rfl
@[simp] theorem State.modCtx_spdm (s : State) (u : Nat) (c : Bool) (f : Ctx → Ctx) : (s.modCtx u c f).spdm = s.spdm := rfl
@[simp] theorem State.modCtx_sensors (s : State) (u : Nat) (c : Bool) (f : Ctx → Ctx) : (s.modCtx u c f).sensors = s.sensors := rfl
@[simp] theorem State.modCtx_out (s : State) (u : Nat) (c : Bool) (f : Ctx → Ctx) : (s.modCtx u c f).out = s.out := rfl

/-! ### `State.modMe` -/

@[simp] theorem State.modMe_inbox (s : State) (f : Ctx → Ctx) : (s.modMe f).inbox = s.inbox := rfl
@[simp] theorem State.modMe_agenda (s : State) (f : Ctx → Ctx) : (s.modMe f).agenda = s.agenda := rfl
@[simp] theorem State.modMe_ready (s : State) (f : Ctx → Ctx) : (s.modMe f).ready = s.ready := rfl
@[simp] theorem State.modMe_cur (s : State) (f : Ctx → Ctx) : (s.modMe f).cur = s.cur := rfl
@[simp] theorem State.modMe_ended (s : State) (f : Ctx → Ctx) : (s.modMe f).ended = s.ended := rfl
@[simp] theorem State.modMe_fresh (s : State) (f : Ctx → Ctx) : (s.modMe f).fresh = s.fresh := rfl
@[simp] theorem State.modMe_cycle (s : State) (f : Ctx → Ctx) : (s.modMe f).cycle = s.cycle := rfl
@[simp] theorem State.modMe_time (s : State) (f : Ctx → Ctx) : (s.modMe f).time = s.time := rfl
@[simp] theorem State.modMe_servo (s : State) (f : Ctx → Ctx) : (s.modMe f).servo = s.servo := rfl
@[simp] theorem State.modMe_power (s : State) (f : Ctx → Ctx) : (s.modMe f).power = s.power := rfl
@[simp] theorem State.modMe_device (s : State) (f : Ctx → Ctx) : (s.modMe f).device = s.device := rfl
@[simp] theorem State.modMe_mem (s : State) (f : Ctx → Ctx) : (s.modMe f).mem = s.mem := rfl
@[simp] theorem State.modMe_stamps (s : State) (f : Ctx → Ctx) : (s.modMe f).stamps = s.stamps := rfl
@[simp] theorem State.modMe_poison (s : State) (f : Ctx → Ctx) : (s.modMe f).poison = s.poison := rfl
@[simp] theorem State.modMe_badLines (s : State) (f : Ctx → Ctx) : (s.modMe f).badLines = s.badLines := rfl
@[simp] theorem State.modMe_flips (s : State) (f : Ctx → Ctx) : (s.modMe f).flips = s.flips := rfl
@[simp] theorem State.modMe_jobs (s : State) (f : Ctx → Ctx) : (s.modMe f).jobs = s.jobs := rfl
@[simp] theorem State.modMe_nuton (s : State) (f : Ctx → Ctx) : (s.modMe f).nuton = s.nuton := rfl
@[simp] theorem State.modMe_nutonWidth (s : State) (f : Ctx → Ctx) : (s.modMe f).nutonWidth = s.nutonWidth := rfl
@[simp] theorem State.modMe_redwin (s : State) (f : Ctx → Ctx) : (s.modMe f).redwin = s.redwin := rfl
@[simp] theorem State.modMe_merged (s : State) (f : Ctx → Ctx) : (s.modMe f).merged = s.merged := rfl
@[simp] theorem State.modMe_flushes (s : State) (f : Ctx → Ctx) : (s.modMe f).flushes = s.flushes := rfl
@[simp] theorem State.modMe_delivered (s : State) (f : Ctx → Ctx) : (s.modMe f).delivered = s.delivered := rfl
@[simp] theorem State.modMe_portWait (s : State) (f : Ctx → Ctx) : (s.modMe f).portWait = s.portWait := rfl
@[simp] theorem State.modMe_hbmLog (s : State) (f : Ctx → Ctx) : (s.modMe f).hbmLog = s.hbmLog := rfl
@[simp] theorem State.modMe_links (s : State) (f : Ctx → Ctx) : (s.modMe f).links = s.links := rfl
@[simp] theorem State.modMe_noticeAddr (s : State) (f : Ctx → Ctx) : (s.modMe f).noticeAddr = s.noticeAddr := rfl
@[simp] theorem State.modMe_noticeCount (s : State) (f : Ctx → Ctx) : (s.modMe f).noticeCount = s.noticeCount := rfl
@[simp] theorem State.modMe_queues (s : State) (f : Ctx → Ctx) : (s.modMe f).queues = s.queues := rfl
@[simp] theorem State.modMe_reserving (s : State) (f : Ctx → Ctx) : (s.modMe f).reserving = s.reserving := rfl
@[simp] theorem State.modMe_reservedMarks (s : State) (f : Ctx → Ctx) : (s.modMe f).reservedMarks = s.reservedMarks := rfl
@[simp] theorem State.modMe_placed (s : State) (f : Ctx → Ctx) : (s.modMe f).placed = s.placed := rfl
@[simp] theorem State.modMe_saved (s : State) (f : Ctx → Ctx) : (s.modMe f).saved = s.saved := rfl
@[simp] theorem State.modMe_bench (s : State) (f : Ctx → Ctx) : (s.modMe f).bench = s.bench := rfl
@[simp] theorem State.modMe_threshold (s : State) (f : Ctx → Ctx) : (s.modMe f).threshold = s.threshold := rfl
@[simp] theorem State.modMe_route (s : State) (f : Ctx → Ctx) : (s.modMe f).route = s.route := rfl
@[simp] theorem State.modMe_group (s : State) (f : Ctx → Ctx) : (s.modMe f).group = s.group := rfl
@[simp] theorem State.modMe_routeUnit (s : State) (f : Ctx → Ctx) : (s.modMe f).routeUnit = s.routeUnit := rfl
@[simp] theorem State.modMe_resv (s : State) (f : Ctx → Ctx) : (s.modMe f).resv = s.resv := rfl
@[simp] theorem State.modMe_probes (s : State) (f : Ctx → Ctx) : (s.modMe f).probes = s.probes := rfl
@[simp] theorem State.modMe_atEnd (s : State) (f : Ctx → Ctx) : (s.modMe f).atEnd = s.atEnd := rfl
@[simp] theorem State.modMe_dieMon (s : State) (f : Ctx → Ctx) : (s.modMe f).dieMon = s.dieMon := rfl
@[simp] theorem State.modMe_contention (s : State) (f : Ctx → Ctx) : (s.modMe f).contention = s.contention := rfl
@[simp] theorem State.modMe_walkCache (s : State) (f : Ctx → Ctx) : (s.modMe f).walkCache = s.walkCache := rfl
@[simp] theorem State.modMe_shadows (s : State) (f : Ctx → Ctx) : (s.modMe f).shadows = s.shadows := rfl
@[simp] theorem State.modMe_boot (s : State) (f : Ctx → Ctx) : (s.modMe f).boot = s.boot := rfl
@[simp] theorem State.modMe_spdm (s : State) (f : Ctx → Ctx) : (s.modMe f).spdm = s.spdm := rfl
@[simp] theorem State.modMe_sensors (s : State) (f : Ctx → Ctx) : (s.modMe f).sensors = s.sensors := rfl
@[simp] theorem State.modMe_out (s : State) (f : Ctx → Ctx) : (s.modMe f).out = s.out := rfl

/-! ### `State.modHere` -/

@[simp] theorem State.modHere_inbox (s : State) (f : Tile → Tile) : (s.modHere f).inbox = s.inbox := rfl
@[simp] theorem State.modHere_agenda (s : State) (f : Tile → Tile) : (s.modHere f).agenda = s.agenda := rfl
@[simp] theorem State.modHere_ready (s : State) (f : Tile → Tile) : (s.modHere f).ready = s.ready := rfl
@[simp] theorem State.modHere_cur (s : State) (f : Tile → Tile) : (s.modHere f).cur = s.cur := rfl
@[simp] theorem State.modHere_ended (s : State) (f : Tile → Tile) : (s.modHere f).ended = s.ended := rfl
@[simp] theorem State.modHere_fresh (s : State) (f : Tile → Tile) : (s.modHere f).fresh = s.fresh := rfl
@[simp] theorem State.modHere_cycle (s : State) (f : Tile → Tile) : (s.modHere f).cycle = s.cycle := rfl
@[simp] theorem State.modHere_time (s : State) (f : Tile → Tile) : (s.modHere f).time = s.time := rfl
@[simp] theorem State.modHere_servo (s : State) (f : Tile → Tile) : (s.modHere f).servo = s.servo := rfl
@[simp] theorem State.modHere_power (s : State) (f : Tile → Tile) : (s.modHere f).power = s.power := rfl
@[simp] theorem State.modHere_device (s : State) (f : Tile → Tile) : (s.modHere f).device = s.device := rfl
@[simp] theorem State.modHere_mem (s : State) (f : Tile → Tile) : (s.modHere f).mem = s.mem := rfl
@[simp] theorem State.modHere_stamps (s : State) (f : Tile → Tile) : (s.modHere f).stamps = s.stamps := rfl
@[simp] theorem State.modHere_poison (s : State) (f : Tile → Tile) : (s.modHere f).poison = s.poison := rfl
@[simp] theorem State.modHere_badLines (s : State) (f : Tile → Tile) : (s.modHere f).badLines = s.badLines := rfl
@[simp] theorem State.modHere_flips (s : State) (f : Tile → Tile) : (s.modHere f).flips = s.flips := rfl
@[simp] theorem State.modHere_jobs (s : State) (f : Tile → Tile) : (s.modHere f).jobs = s.jobs := rfl
@[simp] theorem State.modHere_nuton (s : State) (f : Tile → Tile) : (s.modHere f).nuton = s.nuton := rfl
@[simp] theorem State.modHere_nutonWidth (s : State) (f : Tile → Tile) : (s.modHere f).nutonWidth = s.nutonWidth := rfl
@[simp] theorem State.modHere_redwin (s : State) (f : Tile → Tile) : (s.modHere f).redwin = s.redwin := rfl
@[simp] theorem State.modHere_merged (s : State) (f : Tile → Tile) : (s.modHere f).merged = s.merged := rfl
@[simp] theorem State.modHere_flushes (s : State) (f : Tile → Tile) : (s.modHere f).flushes = s.flushes := rfl
@[simp] theorem State.modHere_delivered (s : State) (f : Tile → Tile) : (s.modHere f).delivered = s.delivered := rfl
@[simp] theorem State.modHere_portWait (s : State) (f : Tile → Tile) : (s.modHere f).portWait = s.portWait := rfl
@[simp] theorem State.modHere_hbmLog (s : State) (f : Tile → Tile) : (s.modHere f).hbmLog = s.hbmLog := rfl
@[simp] theorem State.modHere_links (s : State) (f : Tile → Tile) : (s.modHere f).links = s.links := rfl
@[simp] theorem State.modHere_noticeAddr (s : State) (f : Tile → Tile) : (s.modHere f).noticeAddr = s.noticeAddr := rfl
@[simp] theorem State.modHere_noticeCount (s : State) (f : Tile → Tile) : (s.modHere f).noticeCount = s.noticeCount := rfl
@[simp] theorem State.modHere_queues (s : State) (f : Tile → Tile) : (s.modHere f).queues = s.queues := rfl
@[simp] theorem State.modHere_reserving (s : State) (f : Tile → Tile) : (s.modHere f).reserving = s.reserving := rfl
@[simp] theorem State.modHere_reservedMarks (s : State) (f : Tile → Tile) : (s.modHere f).reservedMarks = s.reservedMarks := rfl
@[simp] theorem State.modHere_placed (s : State) (f : Tile → Tile) : (s.modHere f).placed = s.placed := rfl
@[simp] theorem State.modHere_saved (s : State) (f : Tile → Tile) : (s.modHere f).saved = s.saved := rfl
@[simp] theorem State.modHere_bench (s : State) (f : Tile → Tile) : (s.modHere f).bench = s.bench := rfl
@[simp] theorem State.modHere_threshold (s : State) (f : Tile → Tile) : (s.modHere f).threshold = s.threshold := rfl
@[simp] theorem State.modHere_route (s : State) (f : Tile → Tile) : (s.modHere f).route = s.route := rfl
@[simp] theorem State.modHere_group (s : State) (f : Tile → Tile) : (s.modHere f).group = s.group := rfl
@[simp] theorem State.modHere_routeUnit (s : State) (f : Tile → Tile) : (s.modHere f).routeUnit = s.routeUnit := rfl
@[simp] theorem State.modHere_resv (s : State) (f : Tile → Tile) : (s.modHere f).resv = s.resv := rfl
@[simp] theorem State.modHere_probes (s : State) (f : Tile → Tile) : (s.modHere f).probes = s.probes := rfl
@[simp] theorem State.modHere_atEnd (s : State) (f : Tile → Tile) : (s.modHere f).atEnd = s.atEnd := rfl
@[simp] theorem State.modHere_dieMon (s : State) (f : Tile → Tile) : (s.modHere f).dieMon = s.dieMon := rfl
@[simp] theorem State.modHere_contention (s : State) (f : Tile → Tile) : (s.modHere f).contention = s.contention := rfl
@[simp] theorem State.modHere_walkCache (s : State) (f : Tile → Tile) : (s.modHere f).walkCache = s.walkCache := rfl
@[simp] theorem State.modHere_shadows (s : State) (f : Tile → Tile) : (s.modHere f).shadows = s.shadows := rfl
@[simp] theorem State.modHere_boot (s : State) (f : Tile → Tile) : (s.modHere f).boot = s.boot := rfl
@[simp] theorem State.modHere_spdm (s : State) (f : Tile → Tile) : (s.modHere f).spdm = s.spdm := rfl
@[simp] theorem State.modHere_sensors (s : State) (f : Tile → Tile) : (s.modHere f).sensors = s.sensors := rfl
@[simp] theorem State.modHere_out (s : State) (f : Tile → Tile) : (s.modHere f).out = s.out := rfl

/-! ### `State.modStrip` -/

@[simp] theorem State.modStrip_inbox (s : State) (u : Nat) (c : Bool) (e : Nat) (f : Strip → Strip) : (s.modStrip u c e f).inbox = s.inbox := rfl
@[simp] theorem State.modStrip_agenda (s : State) (u : Nat) (c : Bool) (e : Nat) (f : Strip → Strip) : (s.modStrip u c e f).agenda = s.agenda := rfl
@[simp] theorem State.modStrip_ready (s : State) (u : Nat) (c : Bool) (e : Nat) (f : Strip → Strip) : (s.modStrip u c e f).ready = s.ready := rfl
@[simp] theorem State.modStrip_cur (s : State) (u : Nat) (c : Bool) (e : Nat) (f : Strip → Strip) : (s.modStrip u c e f).cur = s.cur := rfl
@[simp] theorem State.modStrip_ended (s : State) (u : Nat) (c : Bool) (e : Nat) (f : Strip → Strip) : (s.modStrip u c e f).ended = s.ended := rfl
@[simp] theorem State.modStrip_fresh (s : State) (u : Nat) (c : Bool) (e : Nat) (f : Strip → Strip) : (s.modStrip u c e f).fresh = s.fresh := rfl
@[simp] theorem State.modStrip_cycle (s : State) (u : Nat) (c : Bool) (e : Nat) (f : Strip → Strip) : (s.modStrip u c e f).cycle = s.cycle := rfl
@[simp] theorem State.modStrip_time (s : State) (u : Nat) (c : Bool) (e : Nat) (f : Strip → Strip) : (s.modStrip u c e f).time = s.time := rfl
@[simp] theorem State.modStrip_servo (s : State) (u : Nat) (c : Bool) (e : Nat) (f : Strip → Strip) : (s.modStrip u c e f).servo = s.servo := rfl
@[simp] theorem State.modStrip_power (s : State) (u : Nat) (c : Bool) (e : Nat) (f : Strip → Strip) : (s.modStrip u c e f).power = s.power := rfl
@[simp] theorem State.modStrip_device (s : State) (u : Nat) (c : Bool) (e : Nat) (f : Strip → Strip) : (s.modStrip u c e f).device = s.device := rfl
@[simp] theorem State.modStrip_mem (s : State) (u : Nat) (c : Bool) (e : Nat) (f : Strip → Strip) : (s.modStrip u c e f).mem = s.mem := rfl
@[simp] theorem State.modStrip_stamps (s : State) (u : Nat) (c : Bool) (e : Nat) (f : Strip → Strip) : (s.modStrip u c e f).stamps = s.stamps := rfl
@[simp] theorem State.modStrip_poison (s : State) (u : Nat) (c : Bool) (e : Nat) (f : Strip → Strip) : (s.modStrip u c e f).poison = s.poison := rfl
@[simp] theorem State.modStrip_badLines (s : State) (u : Nat) (c : Bool) (e : Nat) (f : Strip → Strip) : (s.modStrip u c e f).badLines = s.badLines := rfl
@[simp] theorem State.modStrip_flips (s : State) (u : Nat) (c : Bool) (e : Nat) (f : Strip → Strip) : (s.modStrip u c e f).flips = s.flips := rfl
@[simp] theorem State.modStrip_jobs (s : State) (u : Nat) (c : Bool) (e : Nat) (f : Strip → Strip) : (s.modStrip u c e f).jobs = s.jobs := rfl
@[simp] theorem State.modStrip_nuton (s : State) (u : Nat) (c : Bool) (e : Nat) (f : Strip → Strip) : (s.modStrip u c e f).nuton = s.nuton := rfl
@[simp] theorem State.modStrip_nutonWidth (s : State) (u : Nat) (c : Bool) (e : Nat) (f : Strip → Strip) : (s.modStrip u c e f).nutonWidth = s.nutonWidth := rfl
@[simp] theorem State.modStrip_redwin (s : State) (u : Nat) (c : Bool) (e : Nat) (f : Strip → Strip) : (s.modStrip u c e f).redwin = s.redwin := rfl
@[simp] theorem State.modStrip_merged (s : State) (u : Nat) (c : Bool) (e : Nat) (f : Strip → Strip) : (s.modStrip u c e f).merged = s.merged := rfl
@[simp] theorem State.modStrip_flushes (s : State) (u : Nat) (c : Bool) (e : Nat) (f : Strip → Strip) : (s.modStrip u c e f).flushes = s.flushes := rfl
@[simp] theorem State.modStrip_delivered (s : State) (u : Nat) (c : Bool) (e : Nat) (f : Strip → Strip) : (s.modStrip u c e f).delivered = s.delivered := rfl
@[simp] theorem State.modStrip_portWait (s : State) (u : Nat) (c : Bool) (e : Nat) (f : Strip → Strip) : (s.modStrip u c e f).portWait = s.portWait := rfl
@[simp] theorem State.modStrip_hbmLog (s : State) (u : Nat) (c : Bool) (e : Nat) (f : Strip → Strip) : (s.modStrip u c e f).hbmLog = s.hbmLog := rfl
@[simp] theorem State.modStrip_links (s : State) (u : Nat) (c : Bool) (e : Nat) (f : Strip → Strip) : (s.modStrip u c e f).links = s.links := rfl
@[simp] theorem State.modStrip_noticeAddr (s : State) (u : Nat) (c : Bool) (e : Nat) (f : Strip → Strip) : (s.modStrip u c e f).noticeAddr = s.noticeAddr := rfl
@[simp] theorem State.modStrip_noticeCount (s : State) (u : Nat) (c : Bool) (e : Nat) (f : Strip → Strip) : (s.modStrip u c e f).noticeCount = s.noticeCount := rfl
@[simp] theorem State.modStrip_queues (s : State) (u : Nat) (c : Bool) (e : Nat) (f : Strip → Strip) : (s.modStrip u c e f).queues = s.queues := rfl
@[simp] theorem State.modStrip_reserving (s : State) (u : Nat) (c : Bool) (e : Nat) (f : Strip → Strip) : (s.modStrip u c e f).reserving = s.reserving := rfl
@[simp] theorem State.modStrip_reservedMarks (s : State) (u : Nat) (c : Bool) (e : Nat) (f : Strip → Strip) : (s.modStrip u c e f).reservedMarks = s.reservedMarks := rfl
@[simp] theorem State.modStrip_placed (s : State) (u : Nat) (c : Bool) (e : Nat) (f : Strip → Strip) : (s.modStrip u c e f).placed = s.placed := rfl
@[simp] theorem State.modStrip_saved (s : State) (u : Nat) (c : Bool) (e : Nat) (f : Strip → Strip) : (s.modStrip u c e f).saved = s.saved := rfl
@[simp] theorem State.modStrip_bench (s : State) (u : Nat) (c : Bool) (e : Nat) (f : Strip → Strip) : (s.modStrip u c e f).bench = s.bench := rfl
@[simp] theorem State.modStrip_threshold (s : State) (u : Nat) (c : Bool) (e : Nat) (f : Strip → Strip) : (s.modStrip u c e f).threshold = s.threshold := rfl
@[simp] theorem State.modStrip_route (s : State) (u : Nat) (c : Bool) (e : Nat) (f : Strip → Strip) : (s.modStrip u c e f).route = s.route := rfl
@[simp] theorem State.modStrip_group (s : State) (u : Nat) (c : Bool) (e : Nat) (f : Strip → Strip) : (s.modStrip u c e f).group = s.group := rfl
@[simp] theorem State.modStrip_routeUnit (s : State) (u : Nat) (c : Bool) (e : Nat) (f : Strip → Strip) : (s.modStrip u c e f).routeUnit = s.routeUnit := rfl
@[simp] theorem State.modStrip_resv (s : State) (u : Nat) (c : Bool) (e : Nat) (f : Strip → Strip) : (s.modStrip u c e f).resv = s.resv := rfl
@[simp] theorem State.modStrip_probes (s : State) (u : Nat) (c : Bool) (e : Nat) (f : Strip → Strip) : (s.modStrip u c e f).probes = s.probes := rfl
@[simp] theorem State.modStrip_atEnd (s : State) (u : Nat) (c : Bool) (e : Nat) (f : Strip → Strip) : (s.modStrip u c e f).atEnd = s.atEnd := rfl
@[simp] theorem State.modStrip_dieMon (s : State) (u : Nat) (c : Bool) (e : Nat) (f : Strip → Strip) : (s.modStrip u c e f).dieMon = s.dieMon := rfl
@[simp] theorem State.modStrip_contention (s : State) (u : Nat) (c : Bool) (e : Nat) (f : Strip → Strip) : (s.modStrip u c e f).contention = s.contention := rfl
@[simp] theorem State.modStrip_walkCache (s : State) (u : Nat) (c : Bool) (e : Nat) (f : Strip → Strip) : (s.modStrip u c e f).walkCache = s.walkCache := rfl
@[simp] theorem State.modStrip_shadows (s : State) (u : Nat) (c : Bool) (e : Nat) (f : Strip → Strip) : (s.modStrip u c e f).shadows = s.shadows := rfl
@[simp] theorem State.modStrip_boot (s : State) (u : Nat) (c : Bool) (e : Nat) (f : Strip → Strip) : (s.modStrip u c e f).boot = s.boot := rfl
@[simp] theorem State.modStrip_spdm (s : State) (u : Nat) (c : Bool) (e : Nat) (f : Strip → Strip) : (s.modStrip u c e f).spdm = s.spdm := rfl
@[simp] theorem State.modStrip_sensors (s : State) (u : Nat) (c : Bool) (e : Nat) (f : Strip → Strip) : (s.modStrip u c e f).sensors = s.sensors := rfl
@[simp] theorem State.modStrip_out (s : State) (u : Nat) (c : Bool) (e : Nat) (f : Strip → Strip) : (s.modStrip u c e f).out = s.out := rfl

/-! ### `State.modJob` -/

@[simp] theorem State.modJob_inbox (s : State) (j : Nat) (f : Job → Job) : (s.modJob j f).inbox = s.inbox := rfl
@[simp] theorem State.modJob_agenda (s : State) (j : Nat) (f : Job → Job) : (s.modJob j f).agenda = s.agenda := rfl
@[simp] theorem State.modJob_ready (s : State) (j : Nat) (f : Job → Job) : (s.modJob j f).ready = s.ready := rfl
@[simp] theorem State.modJob_cur (s : State) (j : Nat) (f : Job → Job) : (s.modJob j f).cur = s.cur := rfl
@[simp] theorem State.modJob_ended (s : State) (j : Nat) (f : Job → Job) : (s.modJob j f).ended = s.ended := rfl
@[simp] theorem State.modJob_fresh (s : State) (j : Nat) (f : Job → Job) : (s.modJob j f).fresh = s.fresh := rfl
@[simp] theorem State.modJob_cycle (s : State) (j : Nat) (f : Job → Job) : (s.modJob j f).cycle = s.cycle := rfl
@[simp] theorem State.modJob_time (s : State) (j : Nat) (f : Job → Job) : (s.modJob j f).time = s.time := rfl
@[simp] theorem State.modJob_servo (s : State) (j : Nat) (f : Job → Job) : (s.modJob j f).servo = s.servo := rfl
@[simp] theorem State.modJob_power (s : State) (j : Nat) (f : Job → Job) : (s.modJob j f).power = s.power := rfl
@[simp] theorem State.modJob_device (s : State) (j : Nat) (f : Job → Job) : (s.modJob j f).device = s.device := rfl
@[simp] theorem State.modJob_mem (s : State) (j : Nat) (f : Job → Job) : (s.modJob j f).mem = s.mem := rfl
@[simp] theorem State.modJob_stamps (s : State) (j : Nat) (f : Job → Job) : (s.modJob j f).stamps = s.stamps := rfl
@[simp] theorem State.modJob_poison (s : State) (j : Nat) (f : Job → Job) : (s.modJob j f).poison = s.poison := rfl
@[simp] theorem State.modJob_badLines (s : State) (j : Nat) (f : Job → Job) : (s.modJob j f).badLines = s.badLines := rfl
@[simp] theorem State.modJob_flips (s : State) (j : Nat) (f : Job → Job) : (s.modJob j f).flips = s.flips := rfl
@[simp] theorem State.modJob_units (s : State) (j : Nat) (f : Job → Job) : (s.modJob j f).units = s.units := rfl
@[simp] theorem State.modJob_nuton (s : State) (j : Nat) (f : Job → Job) : (s.modJob j f).nuton = s.nuton := rfl
@[simp] theorem State.modJob_nutonWidth (s : State) (j : Nat) (f : Job → Job) : (s.modJob j f).nutonWidth = s.nutonWidth := rfl
@[simp] theorem State.modJob_redwin (s : State) (j : Nat) (f : Job → Job) : (s.modJob j f).redwin = s.redwin := rfl
@[simp] theorem State.modJob_merged (s : State) (j : Nat) (f : Job → Job) : (s.modJob j f).merged = s.merged := rfl
@[simp] theorem State.modJob_flushes (s : State) (j : Nat) (f : Job → Job) : (s.modJob j f).flushes = s.flushes := rfl
@[simp] theorem State.modJob_delivered (s : State) (j : Nat) (f : Job → Job) : (s.modJob j f).delivered = s.delivered := rfl
@[simp] theorem State.modJob_portWait (s : State) (j : Nat) (f : Job → Job) : (s.modJob j f).portWait = s.portWait := rfl
@[simp] theorem State.modJob_hbmLog (s : State) (j : Nat) (f : Job → Job) : (s.modJob j f).hbmLog = s.hbmLog := rfl
@[simp] theorem State.modJob_links (s : State) (j : Nat) (f : Job → Job) : (s.modJob j f).links = s.links := rfl
@[simp] theorem State.modJob_noticeAddr (s : State) (j : Nat) (f : Job → Job) : (s.modJob j f).noticeAddr = s.noticeAddr := rfl
@[simp] theorem State.modJob_noticeCount (s : State) (j : Nat) (f : Job → Job) : (s.modJob j f).noticeCount = s.noticeCount := rfl
@[simp] theorem State.modJob_queues (s : State) (j : Nat) (f : Job → Job) : (s.modJob j f).queues = s.queues := rfl
@[simp] theorem State.modJob_reserving (s : State) (j : Nat) (f : Job → Job) : (s.modJob j f).reserving = s.reserving := rfl
@[simp] theorem State.modJob_reservedMarks (s : State) (j : Nat) (f : Job → Job) : (s.modJob j f).reservedMarks = s.reservedMarks := rfl
@[simp] theorem State.modJob_placed (s : State) (j : Nat) (f : Job → Job) : (s.modJob j f).placed = s.placed := rfl
@[simp] theorem State.modJob_saved (s : State) (j : Nat) (f : Job → Job) : (s.modJob j f).saved = s.saved := rfl
@[simp] theorem State.modJob_bench (s : State) (j : Nat) (f : Job → Job) : (s.modJob j f).bench = s.bench := rfl
@[simp] theorem State.modJob_threshold (s : State) (j : Nat) (f : Job → Job) : (s.modJob j f).threshold = s.threshold := rfl
@[simp] theorem State.modJob_route (s : State) (j : Nat) (f : Job → Job) : (s.modJob j f).route = s.route := rfl
@[simp] theorem State.modJob_group (s : State) (j : Nat) (f : Job → Job) : (s.modJob j f).group = s.group := rfl
@[simp] theorem State.modJob_routeUnit (s : State) (j : Nat) (f : Job → Job) : (s.modJob j f).routeUnit = s.routeUnit := rfl
@[simp] theorem State.modJob_resv (s : State) (j : Nat) (f : Job → Job) : (s.modJob j f).resv = s.resv := rfl
@[simp] theorem State.modJob_probes (s : State) (j : Nat) (f : Job → Job) : (s.modJob j f).probes = s.probes := rfl
@[simp] theorem State.modJob_atEnd (s : State) (j : Nat) (f : Job → Job) : (s.modJob j f).atEnd = s.atEnd := rfl
@[simp] theorem State.modJob_dieMon (s : State) (j : Nat) (f : Job → Job) : (s.modJob j f).dieMon = s.dieMon := rfl
@[simp] theorem State.modJob_contention (s : State) (j : Nat) (f : Job → Job) : (s.modJob j f).contention = s.contention := rfl
@[simp] theorem State.modJob_walkCache (s : State) (j : Nat) (f : Job → Job) : (s.modJob j f).walkCache = s.walkCache := rfl
@[simp] theorem State.modJob_shadows (s : State) (j : Nat) (f : Job → Job) : (s.modJob j f).shadows = s.shadows := rfl
@[simp] theorem State.modJob_boot (s : State) (j : Nat) (f : Job → Job) : (s.modJob j f).boot = s.boot := rfl
@[simp] theorem State.modJob_spdm (s : State) (j : Nat) (f : Job → Job) : (s.modJob j f).spdm = s.spdm := rfl
@[simp] theorem State.modJob_sensors (s : State) (j : Nat) (f : Job → Job) : (s.modJob j f).sensors = s.sensors := rfl
@[simp] theorem State.modJob_out (s : State) (j : Nat) (f : Job → Job) : (s.modJob j f).out = s.out := rfl

/-! ### `State.schedule` -/

@[simp] theorem State.schedule_inbox (s : State) (at_ : Nat) (e : Event) : (s.schedule at_ e).inbox = s.inbox := rfl
@[simp] theorem State.schedule_ready (s : State) (at_ : Nat) (e : Event) : (s.schedule at_ e).ready = s.ready := rfl
@[simp] theorem State.schedule_cur (s : State) (at_ : Nat) (e : Event) : (s.schedule at_ e).cur = s.cur := rfl
@[simp] theorem State.schedule_ended (s : State) (at_ : Nat) (e : Event) : (s.schedule at_ e).ended = s.ended := rfl
@[simp] theorem State.schedule_fresh (s : State) (at_ : Nat) (e : Event) : (s.schedule at_ e).fresh = s.fresh := rfl
@[simp] theorem State.schedule_cycle (s : State) (at_ : Nat) (e : Event) : (s.schedule at_ e).cycle = s.cycle := rfl
@[simp] theorem State.schedule_time (s : State) (at_ : Nat) (e : Event) : (s.schedule at_ e).time = s.time := rfl
@[simp] theorem State.schedule_servo (s : State) (at_ : Nat) (e : Event) : (s.schedule at_ e).servo = s.servo := rfl
@[simp] theorem State.schedule_power (s : State) (at_ : Nat) (e : Event) : (s.schedule at_ e).power = s.power := rfl
@[simp] theorem State.schedule_device (s : State) (at_ : Nat) (e : Event) : (s.schedule at_ e).device = s.device := rfl
@[simp] theorem State.schedule_mem (s : State) (at_ : Nat) (e : Event) : (s.schedule at_ e).mem = s.mem := rfl
@[simp] theorem State.schedule_stamps (s : State) (at_ : Nat) (e : Event) : (s.schedule at_ e).stamps = s.stamps := rfl
@[simp] theorem State.schedule_poison (s : State) (at_ : Nat) (e : Event) : (s.schedule at_ e).poison = s.poison := rfl
@[simp] theorem State.schedule_badLines (s : State) (at_ : Nat) (e : Event) : (s.schedule at_ e).badLines = s.badLines := rfl
@[simp] theorem State.schedule_flips (s : State) (at_ : Nat) (e : Event) : (s.schedule at_ e).flips = s.flips := rfl
@[simp] theorem State.schedule_units (s : State) (at_ : Nat) (e : Event) : (s.schedule at_ e).units = s.units := rfl
@[simp] theorem State.schedule_jobs (s : State) (at_ : Nat) (e : Event) : (s.schedule at_ e).jobs = s.jobs := rfl
@[simp] theorem State.schedule_nuton (s : State) (at_ : Nat) (e : Event) : (s.schedule at_ e).nuton = s.nuton := rfl
@[simp] theorem State.schedule_nutonWidth (s : State) (at_ : Nat) (e : Event) : (s.schedule at_ e).nutonWidth = s.nutonWidth := rfl
@[simp] theorem State.schedule_redwin (s : State) (at_ : Nat) (e : Event) : (s.schedule at_ e).redwin = s.redwin := rfl
@[simp] theorem State.schedule_merged (s : State) (at_ : Nat) (e : Event) : (s.schedule at_ e).merged = s.merged := rfl
@[simp] theorem State.schedule_flushes (s : State) (at_ : Nat) (e : Event) : (s.schedule at_ e).flushes = s.flushes := rfl
@[simp] theorem State.schedule_delivered (s : State) (at_ : Nat) (e : Event) : (s.schedule at_ e).delivered = s.delivered := rfl
@[simp] theorem State.schedule_portWait (s : State) (at_ : Nat) (e : Event) : (s.schedule at_ e).portWait = s.portWait := rfl
@[simp] theorem State.schedule_hbmLog (s : State) (at_ : Nat) (e : Event) : (s.schedule at_ e).hbmLog = s.hbmLog := rfl
@[simp] theorem State.schedule_links (s : State) (at_ : Nat) (e : Event) : (s.schedule at_ e).links = s.links := rfl
@[simp] theorem State.schedule_noticeAddr (s : State) (at_ : Nat) (e : Event) : (s.schedule at_ e).noticeAddr = s.noticeAddr := rfl
@[simp] theorem State.schedule_noticeCount (s : State) (at_ : Nat) (e : Event) : (s.schedule at_ e).noticeCount = s.noticeCount := rfl
@[simp] theorem State.schedule_queues (s : State) (at_ : Nat) (e : Event) : (s.schedule at_ e).queues = s.queues := rfl
@[simp] theorem State.schedule_reserving (s : State) (at_ : Nat) (e : Event) : (s.schedule at_ e).reserving = s.reserving := rfl
@[simp] theorem State.schedule_reservedMarks (s : State) (at_ : Nat) (e : Event) : (s.schedule at_ e).reservedMarks = s.reservedMarks := rfl
@[simp] theorem State.schedule_placed (s : State) (at_ : Nat) (e : Event) : (s.schedule at_ e).placed = s.placed := rfl
@[simp] theorem State.schedule_saved (s : State) (at_ : Nat) (e : Event) : (s.schedule at_ e).saved = s.saved := rfl
@[simp] theorem State.schedule_bench (s : State) (at_ : Nat) (e : Event) : (s.schedule at_ e).bench = s.bench := rfl
@[simp] theorem State.schedule_threshold (s : State) (at_ : Nat) (e : Event) : (s.schedule at_ e).threshold = s.threshold := rfl
@[simp] theorem State.schedule_route (s : State) (at_ : Nat) (e : Event) : (s.schedule at_ e).route = s.route := rfl
@[simp] theorem State.schedule_group (s : State) (at_ : Nat) (e : Event) : (s.schedule at_ e).group = s.group := rfl
@[simp] theorem State.schedule_routeUnit (s : State) (at_ : Nat) (e : Event) : (s.schedule at_ e).routeUnit = s.routeUnit := rfl
@[simp] theorem State.schedule_resv (s : State) (at_ : Nat) (e : Event) : (s.schedule at_ e).resv = s.resv := rfl
@[simp] theorem State.schedule_probes (s : State) (at_ : Nat) (e : Event) : (s.schedule at_ e).probes = s.probes := rfl
@[simp] theorem State.schedule_atEnd (s : State) (at_ : Nat) (e : Event) : (s.schedule at_ e).atEnd = s.atEnd := rfl
@[simp] theorem State.schedule_dieMon (s : State) (at_ : Nat) (e : Event) : (s.schedule at_ e).dieMon = s.dieMon := rfl
@[simp] theorem State.schedule_contention (s : State) (at_ : Nat) (e : Event) : (s.schedule at_ e).contention = s.contention := rfl
@[simp] theorem State.schedule_walkCache (s : State) (at_ : Nat) (e : Event) : (s.schedule at_ e).walkCache = s.walkCache := rfl
@[simp] theorem State.schedule_shadows (s : State) (at_ : Nat) (e : Event) : (s.schedule at_ e).shadows = s.shadows := rfl
@[simp] theorem State.schedule_boot (s : State) (at_ : Nat) (e : Event) : (s.schedule at_ e).boot = s.boot := rfl
@[simp] theorem State.schedule_spdm (s : State) (at_ : Nat) (e : Event) : (s.schedule at_ e).spdm = s.spdm := rfl
@[simp] theorem State.schedule_sensors (s : State) (at_ : Nat) (e : Event) : (s.schedule at_ e).sensors = s.sensors := rfl
@[simp] theorem State.schedule_out (s : State) (at_ : Nat) (e : Event) : (s.schedule at_ e).out = s.out := rfl

/-! ### `State.due` -/

@[simp] theorem State.due_agenda (s : State) (e : Event) : (s.due e).agenda = s.agenda := rfl
@[simp] theorem State.due_ready (s : State) (e : Event) : (s.due e).ready = s.ready := rfl
@[simp] theorem State.due_cur (s : State) (e : Event) : (s.due e).cur = s.cur := rfl
@[simp] theorem State.due_ended (s : State) (e : Event) : (s.due e).ended = s.ended := rfl
@[simp] theorem State.due_fresh (s : State) (e : Event) : (s.due e).fresh = s.fresh := rfl
@[simp] theorem State.due_cycle (s : State) (e : Event) : (s.due e).cycle = s.cycle := rfl
@[simp] theorem State.due_time (s : State) (e : Event) : (s.due e).time = s.time := rfl
@[simp] theorem State.due_servo (s : State) (e : Event) : (s.due e).servo = s.servo := rfl
@[simp] theorem State.due_power (s : State) (e : Event) : (s.due e).power = s.power := rfl
@[simp] theorem State.due_device (s : State) (e : Event) : (s.due e).device = s.device := rfl
@[simp] theorem State.due_mem (s : State) (e : Event) : (s.due e).mem = s.mem := rfl
@[simp] theorem State.due_stamps (s : State) (e : Event) : (s.due e).stamps = s.stamps := rfl
@[simp] theorem State.due_poison (s : State) (e : Event) : (s.due e).poison = s.poison := rfl
@[simp] theorem State.due_badLines (s : State) (e : Event) : (s.due e).badLines = s.badLines := rfl
@[simp] theorem State.due_flips (s : State) (e : Event) : (s.due e).flips = s.flips := rfl
@[simp] theorem State.due_units (s : State) (e : Event) : (s.due e).units = s.units := rfl
@[simp] theorem State.due_jobs (s : State) (e : Event) : (s.due e).jobs = s.jobs := rfl
@[simp] theorem State.due_nuton (s : State) (e : Event) : (s.due e).nuton = s.nuton := rfl
@[simp] theorem State.due_nutonWidth (s : State) (e : Event) : (s.due e).nutonWidth = s.nutonWidth := rfl
@[simp] theorem State.due_redwin (s : State) (e : Event) : (s.due e).redwin = s.redwin := rfl
@[simp] theorem State.due_merged (s : State) (e : Event) : (s.due e).merged = s.merged := rfl
@[simp] theorem State.due_flushes (s : State) (e : Event) : (s.due e).flushes = s.flushes := rfl
@[simp] theorem State.due_delivered (s : State) (e : Event) : (s.due e).delivered = s.delivered := rfl
@[simp] theorem State.due_portWait (s : State) (e : Event) : (s.due e).portWait = s.portWait := rfl
@[simp] theorem State.due_hbmLog (s : State) (e : Event) : (s.due e).hbmLog = s.hbmLog := rfl
@[simp] theorem State.due_links (s : State) (e : Event) : (s.due e).links = s.links := rfl
@[simp] theorem State.due_noticeAddr (s : State) (e : Event) : (s.due e).noticeAddr = s.noticeAddr := rfl
@[simp] theorem State.due_noticeCount (s : State) (e : Event) : (s.due e).noticeCount = s.noticeCount := rfl
@[simp] theorem State.due_queues (s : State) (e : Event) : (s.due e).queues = s.queues := rfl
@[simp] theorem State.due_reserving (s : State) (e : Event) : (s.due e).reserving = s.reserving := rfl
@[simp] theorem State.due_reservedMarks (s : State) (e : Event) : (s.due e).reservedMarks = s.reservedMarks := rfl
@[simp] theorem State.due_placed (s : State) (e : Event) : (s.due e).placed = s.placed := rfl
@[simp] theorem State.due_saved (s : State) (e : Event) : (s.due e).saved = s.saved := rfl
@[simp] theorem State.due_bench (s : State) (e : Event) : (s.due e).bench = s.bench := rfl
@[simp] theorem State.due_threshold (s : State) (e : Event) : (s.due e).threshold = s.threshold := rfl
@[simp] theorem State.due_route (s : State) (e : Event) : (s.due e).route = s.route := rfl
@[simp] theorem State.due_group (s : State) (e : Event) : (s.due e).group = s.group := rfl
@[simp] theorem State.due_routeUnit (s : State) (e : Event) : (s.due e).routeUnit = s.routeUnit := rfl
@[simp] theorem State.due_resv (s : State) (e : Event) : (s.due e).resv = s.resv := rfl
@[simp] theorem State.due_probes (s : State) (e : Event) : (s.due e).probes = s.probes := rfl
@[simp] theorem State.due_atEnd (s : State) (e : Event) : (s.due e).atEnd = s.atEnd := rfl
@[simp] theorem State.due_dieMon (s : State) (e : Event) : (s.due e).dieMon = s.dieMon := rfl
@[simp] theorem State.due_contention (s : State) (e : Event) : (s.due e).contention = s.contention := rfl
@[simp] theorem State.due_walkCache (s : State) (e : Event) : (s.due e).walkCache = s.walkCache := rfl
@[simp] theorem State.due_shadows (s : State) (e : Event) : (s.due e).shadows = s.shadows := rfl
@[simp] theorem State.due_boot (s : State) (e : Event) : (s.due e).boot = s.boot := rfl
@[simp] theorem State.due_spdm (s : State) (e : Event) : (s.due e).spdm = s.spdm := rfl
@[simp] theorem State.due_sensors (s : State) (e : Event) : (s.due e).sensors = s.sensors := rfl
@[simp] theorem State.due_out (s : State) (e : Event) : (s.due e).out = s.out := rfl

/-! ### `State.emit` -/

@[simp] theorem State.emit_inbox (s : State) (o : Outgoing) : (s.emit o).inbox = s.inbox := rfl
@[simp] theorem State.emit_agenda (s : State) (o : Outgoing) : (s.emit o).agenda = s.agenda := rfl
@[simp] theorem State.emit_ready (s : State) (o : Outgoing) : (s.emit o).ready = s.ready := rfl
@[simp] theorem State.emit_cur (s : State) (o : Outgoing) : (s.emit o).cur = s.cur := rfl
@[simp] theorem State.emit_ended (s : State) (o : Outgoing) : (s.emit o).ended = s.ended := rfl
@[simp] theorem State.emit_fresh (s : State) (o : Outgoing) : (s.emit o).fresh = s.fresh := rfl
@[simp] theorem State.emit_cycle (s : State) (o : Outgoing) : (s.emit o).cycle = s.cycle := rfl
@[simp] theorem State.emit_time (s : State) (o : Outgoing) : (s.emit o).time = s.time := rfl
@[simp] theorem State.emit_servo (s : State) (o : Outgoing) : (s.emit o).servo = s.servo := rfl
@[simp] theorem State.emit_power (s : State) (o : Outgoing) : (s.emit o).power = s.power := rfl
@[simp] theorem State.emit_device (s : State) (o : Outgoing) : (s.emit o).device = s.device := rfl
@[simp] theorem State.emit_mem (s : State) (o : Outgoing) : (s.emit o).mem = s.mem := rfl
@[simp] theorem State.emit_stamps (s : State) (o : Outgoing) : (s.emit o).stamps = s.stamps := rfl
@[simp] theorem State.emit_poison (s : State) (o : Outgoing) : (s.emit o).poison = s.poison := rfl
@[simp] theorem State.emit_badLines (s : State) (o : Outgoing) : (s.emit o).badLines = s.badLines := rfl
@[simp] theorem State.emit_flips (s : State) (o : Outgoing) : (s.emit o).flips = s.flips := rfl
@[simp] theorem State.emit_units (s : State) (o : Outgoing) : (s.emit o).units = s.units := rfl
@[simp] theorem State.emit_jobs (s : State) (o : Outgoing) : (s.emit o).jobs = s.jobs := rfl
@[simp] theorem State.emit_nuton (s : State) (o : Outgoing) : (s.emit o).nuton = s.nuton := rfl
@[simp] theorem State.emit_nutonWidth (s : State) (o : Outgoing) : (s.emit o).nutonWidth = s.nutonWidth := rfl
@[simp] theorem State.emit_redwin (s : State) (o : Outgoing) : (s.emit o).redwin = s.redwin := rfl
@[simp] theorem State.emit_merged (s : State) (o : Outgoing) : (s.emit o).merged = s.merged := rfl
@[simp] theorem State.emit_flushes (s : State) (o : Outgoing) : (s.emit o).flushes = s.flushes := rfl
@[simp] theorem State.emit_delivered (s : State) (o : Outgoing) : (s.emit o).delivered = s.delivered := rfl
@[simp] theorem State.emit_portWait (s : State) (o : Outgoing) : (s.emit o).portWait = s.portWait := rfl
@[simp] theorem State.emit_hbmLog (s : State) (o : Outgoing) : (s.emit o).hbmLog = s.hbmLog := rfl
@[simp] theorem State.emit_links (s : State) (o : Outgoing) : (s.emit o).links = s.links := rfl
@[simp] theorem State.emit_noticeAddr (s : State) (o : Outgoing) : (s.emit o).noticeAddr = s.noticeAddr := rfl
@[simp] theorem State.emit_noticeCount (s : State) (o : Outgoing) : (s.emit o).noticeCount = s.noticeCount := rfl
@[simp] theorem State.emit_queues (s : State) (o : Outgoing) : (s.emit o).queues = s.queues := rfl
@[simp] theorem State.emit_reserving (s : State) (o : Outgoing) : (s.emit o).reserving = s.reserving := rfl
@[simp] theorem State.emit_reservedMarks (s : State) (o : Outgoing) : (s.emit o).reservedMarks = s.reservedMarks := rfl
@[simp] theorem State.emit_placed (s : State) (o : Outgoing) : (s.emit o).placed = s.placed := rfl
@[simp] theorem State.emit_saved (s : State) (o : Outgoing) : (s.emit o).saved = s.saved := rfl
@[simp] theorem State.emit_bench (s : State) (o : Outgoing) : (s.emit o).bench = s.bench := rfl
@[simp] theorem State.emit_threshold (s : State) (o : Outgoing) : (s.emit o).threshold = s.threshold := rfl
@[simp] theorem State.emit_route (s : State) (o : Outgoing) : (s.emit o).route = s.route := rfl
@[simp] theorem State.emit_group (s : State) (o : Outgoing) : (s.emit o).group = s.group := rfl
@[simp] theorem State.emit_routeUnit (s : State) (o : Outgoing) : (s.emit o).routeUnit = s.routeUnit := rfl
@[simp] theorem State.emit_resv (s : State) (o : Outgoing) : (s.emit o).resv = s.resv := rfl
@[simp] theorem State.emit_probes (s : State) (o : Outgoing) : (s.emit o).probes = s.probes := rfl
@[simp] theorem State.emit_atEnd (s : State) (o : Outgoing) : (s.emit o).atEnd = s.atEnd := rfl
@[simp] theorem State.emit_dieMon (s : State) (o : Outgoing) : (s.emit o).dieMon = s.dieMon := rfl
@[simp] theorem State.emit_contention (s : State) (o : Outgoing) : (s.emit o).contention = s.contention := rfl
@[simp] theorem State.emit_walkCache (s : State) (o : Outgoing) : (s.emit o).walkCache = s.walkCache := rfl
@[simp] theorem State.emit_shadows (s : State) (o : Outgoing) : (s.emit o).shadows = s.shadows := rfl
@[simp] theorem State.emit_boot (s : State) (o : Outgoing) : (s.emit o).boot = s.boot := rfl
@[simp] theorem State.emit_spdm (s : State) (o : Outgoing) : (s.emit o).spdm = s.spdm := rfl
@[simp] theorem State.emit_sensors (s : State) (o : Outgoing) : (s.emit o).sensors = s.sensors := rfl

/-! ### `State.used` -/

@[simp] theorem State.used_inbox (s : State) (n : Nat) : (s.used n).inbox = s.inbox := rfl
@[simp] theorem State.used_agenda (s : State) (n : Nat) : (s.used n).agenda = s.agenda := rfl
@[simp] theorem State.used_ready (s : State) (n : Nat) : (s.used n).ready = s.ready := rfl
@[simp] theorem State.used_cur (s : State) (n : Nat) : (s.used n).cur = s.cur := rfl
@[simp] theorem State.used_ended (s : State) (n : Nat) : (s.used n).ended = s.ended := rfl
@[simp] theorem State.used_cycle (s : State) (n : Nat) : (s.used n).cycle = s.cycle := rfl
@[simp] theorem State.used_time (s : State) (n : Nat) : (s.used n).time = s.time := rfl
@[simp] theorem State.used_servo (s : State) (n : Nat) : (s.used n).servo = s.servo := rfl
@[simp] theorem State.used_power (s : State) (n : Nat) : (s.used n).power = s.power := rfl
@[simp] theorem State.used_device (s : State) (n : Nat) : (s.used n).device = s.device := rfl
@[simp] theorem State.used_mem (s : State) (n : Nat) : (s.used n).mem = s.mem := rfl
@[simp] theorem State.used_stamps (s : State) (n : Nat) : (s.used n).stamps = s.stamps := rfl
@[simp] theorem State.used_poison (s : State) (n : Nat) : (s.used n).poison = s.poison := rfl
@[simp] theorem State.used_badLines (s : State) (n : Nat) : (s.used n).badLines = s.badLines := rfl
@[simp] theorem State.used_flips (s : State) (n : Nat) : (s.used n).flips = s.flips := rfl
@[simp] theorem State.used_units (s : State) (n : Nat) : (s.used n).units = s.units := rfl
@[simp] theorem State.used_jobs (s : State) (n : Nat) : (s.used n).jobs = s.jobs := rfl
@[simp] theorem State.used_nuton (s : State) (n : Nat) : (s.used n).nuton = s.nuton := rfl
@[simp] theorem State.used_nutonWidth (s : State) (n : Nat) : (s.used n).nutonWidth = s.nutonWidth := rfl
@[simp] theorem State.used_redwin (s : State) (n : Nat) : (s.used n).redwin = s.redwin := rfl
@[simp] theorem State.used_merged (s : State) (n : Nat) : (s.used n).merged = s.merged := rfl
@[simp] theorem State.used_flushes (s : State) (n : Nat) : (s.used n).flushes = s.flushes := rfl
@[simp] theorem State.used_delivered (s : State) (n : Nat) : (s.used n).delivered = s.delivered := rfl
@[simp] theorem State.used_portWait (s : State) (n : Nat) : (s.used n).portWait = s.portWait := rfl
@[simp] theorem State.used_hbmLog (s : State) (n : Nat) : (s.used n).hbmLog = s.hbmLog := rfl
@[simp] theorem State.used_links (s : State) (n : Nat) : (s.used n).links = s.links := rfl
@[simp] theorem State.used_noticeAddr (s : State) (n : Nat) : (s.used n).noticeAddr = s.noticeAddr := rfl
@[simp] theorem State.used_noticeCount (s : State) (n : Nat) : (s.used n).noticeCount = s.noticeCount := rfl
@[simp] theorem State.used_queues (s : State) (n : Nat) : (s.used n).queues = s.queues := rfl
@[simp] theorem State.used_reserving (s : State) (n : Nat) : (s.used n).reserving = s.reserving := rfl
@[simp] theorem State.used_reservedMarks (s : State) (n : Nat) : (s.used n).reservedMarks = s.reservedMarks := rfl
@[simp] theorem State.used_placed (s : State) (n : Nat) : (s.used n).placed = s.placed := rfl
@[simp] theorem State.used_saved (s : State) (n : Nat) : (s.used n).saved = s.saved := rfl
@[simp] theorem State.used_bench (s : State) (n : Nat) : (s.used n).bench = s.bench := rfl
@[simp] theorem State.used_threshold (s : State) (n : Nat) : (s.used n).threshold = s.threshold := rfl
@[simp] theorem State.used_route (s : State) (n : Nat) : (s.used n).route = s.route := rfl
@[simp] theorem State.used_group (s : State) (n : Nat) : (s.used n).group = s.group := rfl
@[simp] theorem State.used_routeUnit (s : State) (n : Nat) : (s.used n).routeUnit = s.routeUnit := rfl
@[simp] theorem State.used_resv (s : State) (n : Nat) : (s.used n).resv = s.resv := rfl
@[simp] theorem State.used_probes (s : State) (n : Nat) : (s.used n).probes = s.probes := rfl
@[simp] theorem State.used_atEnd (s : State) (n : Nat) : (s.used n).atEnd = s.atEnd := rfl
@[simp] theorem State.used_dieMon (s : State) (n : Nat) : (s.used n).dieMon = s.dieMon := rfl
@[simp] theorem State.used_contention (s : State) (n : Nat) : (s.used n).contention = s.contention := rfl
@[simp] theorem State.used_walkCache (s : State) (n : Nat) : (s.used n).walkCache = s.walkCache := rfl
@[simp] theorem State.used_shadows (s : State) (n : Nat) : (s.used n).shadows = s.shadows := rfl
@[simp] theorem State.used_boot (s : State) (n : Nat) : (s.used n).boot = s.boot := rfl
@[simp] theorem State.used_spdm (s : State) (n : Nat) : (s.used n).spdm = s.spdm := rfl
@[simp] theorem State.used_sensors (s : State) (n : Nat) : (s.used n).sensors = s.sensors := rfl
@[simp] theorem State.used_out (s : State) (n : Nat) : (s.used n).out = s.out := rfl

/-! ### Reads of what an update writes -/

@[simp] theorem State.schedule_agenda (s : State) (n : Nat) (e : Event) : (s.schedule n e).agenda = s.agenda ++ [(n, e)] := rfl
@[simp] theorem State.due_inbox (s : State) (e : Event) : (s.due e).inbox = s.inbox ++ [e] := rfl
@[simp] theorem State.emit_out (s : State) (o : Outgoing) : (s.emit o).out = s.out ++ [o] := rfl
@[simp] theorem State.used_fresh (s : State) (n : Nat) : (s.used n).fresh = s.fresh + n := rfl

@[simp] theorem State.tile_setTile_same (s : State) (u : Nat) (t : Tile) : (s.setTile u t).tile u = t := by
  simp [State.tile, State.setTile]

@[simp] theorem State.tile_setTile_other (s : State) {u v : Nat} (t : Tile) (h : v ≠ u) :
    (s.setTile u t).tile v = s.tile v := by
  simp [State.tile, State.setTile, h]

@[simp] theorem State.tile_mod_same (s : State) (u : Nat) (f : Tile → Tile) : (s.mod u f).tile u = f (s.tile u) := by
  simp [State.mod]

@[simp] theorem State.tile_mod_other (s : State) {u v : Nat} (f : Tile → Tile) (h : v ≠ u) :
    (s.mod u f).tile v = s.tile v := by
  simp [State.mod, h]

@[simp] theorem State.mod_mod (s : State) (u : Nat) (f g : Tile → Tile) : (s.mod u f).mod u g = s.mod u fun t => g (f t) := by
  simp [State.mod, State.setTile, State.tile]

@[simp] theorem Tile.ctx_setCtx_same (t : Tile) (c : Bool) (x : Ctx) : (t.setCtx c x).ctx c = x := by
  cases c <;> rfl

@[simp] theorem Tile.ctx_setCtx_other (t : Tile) {c d : Bool} (x : Ctx) (h : d ≠ c) : (t.setCtx c x).ctx d = t.ctx d := by
  cases c <;> cases d <;> first | rfl | exact absurd rfl h

@[simp] theorem Tile.setCtx_setCtx (t : Tile) (c : Bool) (x y : Ctx) : (t.setCtx c x).setCtx c y = t.setCtx c y := by
  cases c <;> rfl

@[simp] theorem Tile.setCtx_run (t : Tile) (c : Bool) (x : Ctx) : (t.setCtx c x).run = t.run := by cases c <;> rfl
@[simp] theorem Tile.setCtx_tags (t : Tile) (c : Bool) (x : Ctx) : (t.setCtx c x).tags = t.tags := by cases c <;> rfl
@[simp] theorem Tile.setCtx_banks (t : Tile) (c : Bool) (x : Ctx) : (t.setCtx c x).banks = t.banks := by cases c <;> rfl
@[simp] theorem Tile.setCtx_dual (t : Tile) (c : Bool) (x : Ctx) : (t.setCtx c x).dual = t.dual := by cases c <;> rfl
@[simp] theorem Tile.setCtx_granted (t : Tile) (c : Bool) (x : Ctx) : (t.setCtx c x).granted = t.granted := by cases c <;> rfl
@[simp] theorem Tile.setCtx_fifos (t : Tile) (c : Bool) (x : Ctx) : (t.setCtx c x).fifos = t.fifos := by cases c <;> rfl
@[simp] theorem Tile.setCtx_tokens (t : Tile) (c : Bool) (x : Ctx) : (t.setCtx c x).tokens = t.tokens := by cases c <;> rfl
@[simp] theorem Tile.setCtx_trace (t : Tile) (c : Bool) (x : Ctx) : (t.setCtx c x).trace = t.trace := by cases c <;> rfl

@[simp] theorem State.ctx_modCtx_same (s : State) (u : Nat) (c : Bool) (f : Ctx → Ctx) :
    (s.modCtx u c f).ctx u c = f (s.ctx u c) := by
  simp [State.modCtx, State.ctx]

/-- Any other context is as it was. -/
theorem State.ctx_modCtx_other (s : State) {u v : Nat} {c d : Bool} (f : Ctx → Ctx) (h : (v, d) ≠ (u, c)) :
    (s.modCtx u c f).ctx v d = s.ctx v d := by
  by_cases hv : v = u
  · subst hv
    have : d ≠ c := fun hd => h (by rw [hd])
    simp [State.modCtx, State.ctx, this]
  · simp [State.modCtx, State.ctx, hv]

@[simp] theorem State.modCtx_modCtx (s : State) (u : Nat) (c : Bool) (f g : Ctx → Ctx) :
    (s.modCtx u c f).modCtx u c g = s.modCtx u c fun x => g (f x) := by
  simp [State.modCtx]

@[simp] theorem State.bank_modCtx (s : State) (u : Nat) (c : Bool) (f : Ctx → Ctx) : (s.modCtx u c f).bank = s.bank := by
  by_cases h : s.cur.unit = u
  · subst h; simp [State.bank, State.modCtx]
  · simp [State.bank, State.modCtx, h]

@[simp] theorem State.bank_modMe (s : State) (f : Ctx → Ctx) : (s.modMe f).bank = s.bank := State.bank_modCtx ..

@[simp] theorem State.me_modMe (s : State) (f : Ctx → Ctx) : (s.modMe f).me = f s.me := by
  show (s.modMe f).ctx (s.modMe f).cur.unit (s.modMe f).bank = _
  rw [State.bank_modMe]
  exact State.ctx_modCtx_same ..

@[simp] theorem State.modMe_modMe (s : State) (f g : Ctx → Ctx) : (s.modMe f).modMe g = s.modMe fun x => g (f x) := by
  show (s.modMe f).modCtx (s.modMe f).cur.unit (s.modMe f).bank g = _
  rw [State.bank_modMe]
  exact State.modCtx_modCtx ..

/-- What a change of the acting context gives depends on the acting context alone. -/
theorem State.modMe_congr {s : State} {f g : Ctx → Ctx} (h : f s.me = g s.me) : s.modMe f = s.modMe g := by
  show s.setTile s.cur.unit (s.here.setCtx s.bank (f s.me)) = s.setTile s.cur.unit (s.here.setCtx s.bank (g s.me))
  rw [h]

@[simp] theorem State.me_due (s : State) (e : Event) : (s.due e).me = s.me := rfl
@[simp] theorem State.me_schedule (s : State) (n : Nat) (e : Event) : (s.schedule n e).me = s.me := rfl
@[simp] theorem State.bank_due (s : State) (e : Event) : (s.due e).bank = s.bank := rfl
@[simp] theorem State.bank_schedule (s : State) (n : Nat) (e : Event) : (s.schedule n e).bank = s.bank := rfl
@[simp] theorem State.ctx_due (s : State) (e : Event) (u : Nat) (c : Bool) : (s.due e).ctx u c = s.ctx u c := rfl
@[simp] theorem State.ctx_schedule (s : State) (n : Nat) (e : Event) (u : Nat) (c : Bool) :
    (s.schedule n e).ctx u c = s.ctx u c := rfl
@[simp] theorem State.tile_due (s : State) (e : Event) (u : Nat) : (s.due e).tile u = s.tile u := rfl
@[simp] theorem State.tile_schedule (s : State) (n : Nat) (e : Event) (u : Nat) : (s.schedule n e).tile u = s.tile u := rfl

@[simp] theorem State.job_modJob_same (s : State) (j : Nat) (f : Job → Job) : (s.modJob j f).job j = f (s.job j) := by
  simp [State.modJob, State.job]

@[simp] theorem State.job_modJob_other (s : State) {j k : Nat} (f : Job → Job) (h : k ≠ j) :
    (s.modJob j f).job k = s.job k := by
  simp [State.modJob, State.job, h]

@[simp] theorem State.job_modCtx (s : State) (u : Nat) (c : Bool) (f : Ctx → Ctx) (j : Nat) :
    (s.modCtx u c f).job j = s.job j := rfl
@[simp] theorem State.job_modMe (s : State) (f : Ctx → Ctx) (j : Nat) : (s.modMe f).job j = s.job j := rfl
@[simp] theorem State.tile_modJob (s : State) (j : Nat) (f : Job → Job) (u : Nat) : (s.modJob j f).tile u = s.tile u := rfl

/-! ### Strips -/

@[simp] theorem Ctx.strip_setStrip_same (x : Ctx) (e : Nat) (t : Strip) : (x.setStrip e t).strip e = t := by
  unfold Ctx.strip Ctx.setStrip
  split <;> simp_all

/-! ### Scalar registers and predicates -/

end Sys2Proof.Machine
end

