-- ==== Sys2Proof/Laws/Core.lean ====
section
/-!
SUPPORT. What an instruction of the control core does once it may issue, and what its end leaves.
-/
namespace Sys2Proof.Machine

/-! ### Registers -/

@[simp] theorem Ctx.readS_zero (x : Ctx) : x.readS 0 = 0 := rfl

theorem Ctx.readS_writeS (x : Ctx) (d n : Nat) (v : Word) :
    (x.writeS d v).readS n = if n = d then (if d = 0 then 0 else v) else x.readS n := by
  by_cases hd : d = 0
  · subst hd
    by_cases hn : n = 0
    · subst hn; simp [Ctx.readS]
    · simp [Ctx.writeS, hn]
  · simp only [Ctx.writeS, hd, if_false, Ctx.readS]
    by_cases hn : n = d
    · subst hn; simp [hd]
    · simp [hn]

@[simp] theorem Ctx.readS_mark (x : Ctx) (n k : Nat) (l : Bool) : (x.mark n l).readS k = x.readS k := by
  unfold Ctx.mark; split <;> rfl

@[simp] theorem Ctx.readS_markAll (x : Ctx) (rs : List (Nat × Bool)) (k : Nat) : (x.markAll rs).readS k = x.readS k := by
  induction rs generalizing x with
  | nil => rfl
  | cons r rs ih => simp [Ctx.markAll, ih]

/-- Taking last-use bits changes the dead bits alone. -/
theorem Ctx.markAll_eq (x : Ctx) (rs : List (Nat × Bool)) : ∃ b, x.markAll rs = { x with dead := b } := by
  induction rs generalizing x with
  | nil => exact ⟨x.dead, rfl⟩
  | cons r rs ih =>
    simp only [Ctx.markAll]
    obtain ⟨b, hb⟩ := ih (x.mark r.1 r.2)
    rw [hb]
    unfold Ctx.mark
    split
    · exact ⟨b, rfl⟩
    · exact ⟨b, rfl⟩

/-- A write of a scalar register changes the register file and the dead bits alone. -/
theorem Ctx.writeS_eq (x : Ctx) (d : Nat) (v : Word) : ∃ f b, x.writeS d v = { x with s := f, dead := b } := by
  unfold Ctx.writeS; split
  · exact ⟨x.s, x.dead, rfl⟩
  · exact ⟨_, _, rfl⟩

/-! ### Errors of stored registers -/

theorem scalarPA_aligned (u : Nat) (c : Bool) (n : Nat) : scalarPA u c n / 8 * 8 = scalarPA u c n := by
  unfold scalarPA windowPA
  cases c <;> simp <;> omega

theorem wordsTouching_word (pa : Nat) (h : pa / 8 * 8 = pa) : wordsTouching pa 8 = [pa] := by
  simp [wordsTouching, List.range_succ, h]

theorem scalarPA_window (u : Nat) (c : Bool) (n : Nat) : 2 ^ 40 ≤ scalarPA u c n := by
  unfold scalarPA windowPA
  omega

theorem State.scrub_word (s : State) (agent pa : Nat) (h : pa / 8 * 8 = pa) (hw : 2 ^ 40 ≤ pa) (hf : s.flips.find pa = none) :
    s.scrub agent pa 8 = s := by
  unfold State.scrub
  split
  · rfl
  · rw [if_neg (by omega)]
    simp [wordsTouching_word pa h, State.checkWord, hf]

theorem State.sourceReady_iff (s : State) (r : Nat × Bool) : s.sourceReady r = true ↔
    s.me.pendingWrite (.sreg r.1) = false ∧ (r.1 = 0 ∨ s.me.dead.getLsbD r.1 = false)
      ∧ s.flips.find (scalarPA s.cur.unit s.bank r.1) = none ∧ s.poison.find (scalarPA s.cur.unit s.bank r.1) = none := by
  simp [State.sourceReady, and_assoc]

theorem predicatePA_aligned (u : Nat) (c : Bool) : predicatePA u c / 8 * 8 = predicatePA u c := by
  unfold predicatePA windowPA
  cases c <;> simp <;> omega

theorem predicatePA_window (u : Nat) (c : Bool) : 2 ^ 40 ≤ predicatePA u c := by
  unfold predicatePA windowPA
  omega

/-- The stored words of sources that are ready are whole words of a window without error. -/
theorem State.sourceWords_ready (s : State) (rs : List (Nat × Bool)) (preds : Bool) (h : ∀ r ∈ rs, s.sourceReady r = true)
    (hp : preds = true → s.predicatesReady = true) : ∀ a ∈ s.sourceWords rs preds,
    a / 8 * 8 = a ∧ 2 ^ 40 ≤ a ∧ s.flips.find a = none ∧ s.poison.find a = none := by
  intro a ha
  simp only [State.sourceWords, List.mem_append, List.mem_map, List.mem_filter] at ha
  rcases ha with ⟨r, ⟨hr, -⟩, rfl⟩ | ha
  · have := (s.sourceReady_iff r).1 (h r hr)
    exact ⟨scalarPA_aligned .., scalarPA_window .., this.2.2⟩
  · cases preds
    · simp at ha
    · have := hp rfl
      simp only [State.predicatesReady, Bool.and_eq_true, Option.isNone_iff_eq_none] at this
      simp only [if_true, List.mem_singleton] at ha
      subst ha
      exact ⟨predicatePA_aligned .., predicatePA_window .., this⟩

theorem State.scrubSources_ready (s : State) (rs : List (Nat × Bool)) (preds : Bool) (h : ∀ r ∈ rs, s.sourceReady r = true)
    (hp : preds = true → s.predicatesReady = true) : s.scrubSources rs preds = s := by
  unfold State.scrubSources
  split
  · rfl
  · have hw := s.sourceWords_ready rs preds h hp
    generalize s.sourceWords rs preds = ws at hw
    induction ws with
    | nil => rfl
    | cons a ws ih =>
      have ha := hw a (by simp)
      rw [List.foldl_cons, State.scrub_word _ _ _ ha.1 ha.2.1 ha.2.2.1]
      exact ih fun b hb => hw b (by simp [hb])

theorem State.badSource_ready (s : State) (rs : List (Nat × Bool)) (preds : Bool) (h : ∀ r ∈ rs, s.sourceReady r = true)
    (hp : preds = true → s.predicatesReady = true) : s.badSource rs preds = none := by
  unfold State.badSource
  split
  · rfl
  · rw [List.find?_eq_none.2]
    · rfl
    · intro a ha
      have := s.sourceWords_ready rs preds h hp a ha
      simp [State.poisoned, this.1, this.2.2.2]

theorem State.firstDead_ready (s : State) (p : CoreSpec) (h : ∀ r ∈ p.reads, s.sourceReady r = true) :
    s.me.firstDead p = none := by
  unfold Ctx.firstDead
  rw [List.find?_eq_none.2]
  · rfl
  · intro r hr
    have := (s.sourceReady_iff r).1 (h r hr)
    rcases this.2.1 with h0 | h0 <;> simp [h0]

theorem State.readSources_ready (s : State) (rs : List (Nat × Bool)) (h : ∀ r ∈ rs, s.sourceReady r = true) :
    s.readSources rs = (s, rs.map fun r => s.me.readS r.1) := by
  induction rs with
  | nil => rfl
  | cons r rs ih =>
    have hr := (s.sourceReady_iff r).1 (h r (by simp))
    have : s.readSource r.1 = (s, s.me.readS r.1) := by
      unfold State.readSource
      rcases hr.2.1 with h0 | h0 <;> simp [h0]
    simp [State.readSources, this, ih fun q hq => h q (by simp [hq])]

/-! ### Issue -/

/-- An instruction that may issue finds the core waiting for no result. -/
theorem coreReady_late {o : CoreForm} {p : CoreSpec} {s : State} (h : coreReady o p s = true) : s.me.late = none := by
  simp only [coreReady, Bool.and_eq_true] at h
  simpa using h.2

/-- What an instruction does that may issue: its own work, and the end of it. -/
theorem coreInstr_ready {o : CoreForm} {p : CoreSpec} {s : State} (h : coreReady o p s = true)
    (body : State → State → List Word → CoreRes) (skip : State → CoreRes) :
    coreInstr o p body s skip = .next ((body s (s.marked p.reads) (p.reads.map fun r => s.me.readS r.1)).finish s) := by
  simp only [coreReady, Bool.and_eq_true, List.all_eq_true] at h
  obtain ⟨⟨⟨⟨⟨⟨⟨⟨hpriv, hph⟩, hgp⟩, hg⟩, hr⟩, hp⟩, hw⟩, hq⟩, hh⟩ := h
  have hint : s.me.interlocked p = false := by
    simp only [Ctx.interlocked, Bool.or_eq_false_iff, List.any_eq_false]
    refine ⟨⟨fun r q => ?_, fun n q => ?_⟩, fun d q => ?_⟩
    · simp [((s.sourceReady_iff r).1 (hr r q)).1]
    · simpa using hp n q
    · simpa using hw d q
  have hwork : (coreWork p body s).finish s
      = (body s (s.marked p.reads) (p.reads.map fun r => s.me.readS r.1)).finish s := by
    simp [coreWork, s.readSources_ready p.reads hr, State.marked]
  have hissue : coreIssue p body s = (coreWork p body s).finish s := by
    have hs : (!p.preds.isEmpty) = true → s.predicatesReady = true := by
      intro hb; simpa [hb] using hq
    simp only [coreIssue, hint, s.scrubSources_ready p.reads _ hr hs, s.badSource_ready p.reads _ hr hs,
      s.firstDead_ready p hr]
    simp
  have c1 : (p.privileged && !isSteward s.cur.unit) = false := by
    cases hb : p.privileged <;> simp_all
  have c2 : (p.compute && s.inExchange) = false := by cases hb : p.compute <;> simp_all
  have c3 : (o.g && s.me.pendingWrite (.preg o.p.toNat)) = false := by cases hb : o.g <;> simp_all
  have hs : o.g = true → s.predicatesReady = true := by
    intro hb; simpa [hb] using hq
  have h1 := s.scrubSources_ready [] o.g (by simp) hs
  have h2 := s.badSource_ready [] o.g (by simp) hs
  simp only [coreInstr, c1, c2, c3, h1, h2, hg, hissue, hwork]
  simp

/-! ### The end of an instruction -/

@[simp] theorem State.sansIssue_modMe (s : State) (f : Ctx → Ctx) (h : ∀ x, (f x).sansIssue = x.sansIssue) :
    (s.modMe f).sansIssue = s.sansIssue := by
  simp [State.sansIssue, h]

@[simp] theorem State.sansIssue_due (s : State) (e : Event) : (s.due e).sansIssue = s.sansIssue := rfl

@[simp] theorem State.sansIssue_offerTrap (s : State) : s.offerTrap.sansIssue = s.sansIssue := by
  unfold State.offerTrap; split <;> rfl

@[simp] theorem State.sansIssue_retire (s : State) (t : Option Pos) (an : Bool) (h : s.me.late = none) :
    (s.retire t an).sansIssue = s.sansIssue := by
  unfold State.retire
  simp only [State.sansIssue, State.modMe_modMe]
  rw [State.modMe_congr (g := Ctx.sansIssue) (by simp [Ctx.sansIssue, h])]

/-- What is left of a completed instruction is what its work gave. -/
@[simp] theorem CoreRes.finish_done (s m : State) (h : m.me.late = none) : ((CoreRes.done m).finish s).sansIssue = m.sansIssue := by
  simp [CoreRes.finish, h]

/-- An instruction that may issue and whose work is done leaves what its work gave. -/
theorem issues_of_done {i : Instr} {o : CoreForm} {p : CoreSpec} {s m : State}
    {body : State → State → List Word → CoreRes} {skip : State → CoreRes} (h : coreReady o p s = true)
    (hi : exec i s = coreInstr o p body s skip)
    (hb : body s (s.marked p.reads) (p.reads.map fun r => s.me.readS r.1) = .done m) (hm : m.me.late = none) :
    Issues i s m := by
  refine ⟨(CoreRes.done m).finish s, ?_, CoreRes.finish_done s m hm⟩
  rw [hi, coreInstr_ready h, hb]

/-! ### An instruction whose one effect is a register or a predicate -/

@[simp] theorem State.me_offerTrap (s : State) : s.offerTrap.me = s.me := by unfold State.offerTrap; split <;> rfl
@[simp] theorem State.mem_offerTrap (s : State) : s.offerTrap.mem = s.mem := by unfold State.offerTrap; split <;> rfl
@[simp] theorem State.mem_retire (s : State) (a : Option Pos) (b : Bool) : (s.retire a b).mem = s.mem := rfl
@[simp] theorem State.me_wroteS (s : State) (d : Nat) (v : Word) : (s.wroteS d v).me = s.me.writeS d v :=
  State.me_modMe s fun x => x.writeS d v
@[simp] theorem State.mem_wroteS (s : State) (d : Nat) (v : Word) : (s.wroteS d v).mem = s.mem := rfl
@[simp] theorem State.me_marked (s : State) (rs : List (Nat × Bool)) : (s.marked rs).me = s.me.markAll rs := State.me_modMe ..
@[simp] theorem State.mem_marked (s : State) (rs : List (Nat × Bool)) : (s.marked rs).mem = s.mem := rfl
@[simp] theorem State.cur_marked (s : State) (rs : List (Nat × Bool)) : (s.marked rs).cur = s.cur := rfl
@[simp] theorem State.bank_marked (s : State) (rs : List (Nat × Bool)) : (s.marked rs).bank = s.bank := State.bank_modMe ..

@[simp] theorem Ctx.slim_markAll (x : Ctx) (rs : List (Nat × Bool)) : (x.markAll rs).slim = x.slim := by
  obtain ⟨b, hb⟩ := x.markAll_eq rs
  rw [hb]

/-- The registers and flags of the acting context when an instruction has completed. -/
theorem CoreRes.finish_done_me (s m : State) : ∃ q,
    ((CoreRes.done m).finish s).me = { m.me with
      queue := q, ust := 0, unchecked := false, late := none, hold := none, told := false, since := none, sources := none
      spoiled := false, stall := 0, wait := 0 } := by
  exact ⟨_, by simp only [CoreRes.finish, State.me_offerTrap, State.retire, State.me_modMe]; rfl⟩

@[simp] theorem CoreRes.finish_done_mem (s m : State) : ((CoreRes.done m).finish s).mem = m.mem := by simp [CoreRes.finish]

/-- An instruction that completes with `v` in s`d` and its sources marked has that one effect. -/
theorem writesRegister_of {i : Instr} {s : State} {rs : List (Nat × Bool)} {d : Nat} {v : Word}
    (h : exec i s = .next ((CoreRes.done ((s.marked rs).wroteS d v)).finish s)) (hl : s.me.late = none) :
    WritesRegister i s rs d v := by
  obtain ⟨q, hq⟩ := CoreRes.finish_done_me s ((s.marked rs).wroteS d v)
  obtain ⟨b, hb⟩ := s.me.markAll_eq rs
  have hr : ∀ n, ((CoreRes.done ((s.marked rs).wroteS d v)).finish s).me.readS n
      = if n = d then (if d = 0 then 0 else v) else s.me.readS n := by
    intro n
    rw [hq, State.me_wroteS, State.me_marked, ← Ctx.readS_markAll s.me rs n, ← Ctx.readS_writeS]
    rfl
  obtain ⟨f, b', hw⟩ := (s.me.markAll rs).writeS_eq d v
  constructor
  · exact ⟨_, h, CoreRes.finish_done _ _ (by rw [State.me_wroteS, State.me_marked, hw, hb]; exact hl)⟩
  · intro t ht; rw [h] at ht; cases ht; simp [hr]
  · intro t ht n hn; rw [h] at ht; cases ht; simp [hr, hn]
  · intro t ht
    rw [h] at ht; cases ht
    rw [hq, State.me_wroteS, State.me_marked, hw, hb]
    exact ⟨rfl, rfl, rfl⟩
  · intro t ht a; rw [h] at ht; cases ht; simp

/-- A result of latency 1 that stays above the stack limit. -/
theorem State.result_above {s m : State} {d : Nat} {v : Word} (h : s.aboveLimit d v) (hs : m.me.slim = s.me.slim) :
    m.result d v = .done (m.wroteS d v) := by
  unfold State.result
  rw [if_neg]
  simp only [Ctx.belowLimit, hs, Bool.and_eq_true, bne_iff_ne, beq_iff_eq, decide_eq_true_eq]
  intro ⟨⟨h1, h2⟩, h3⟩
  have := h h1 h2
  omega

/-- An instruction of two sources and a result of latency 1. -/
theorem binary_writes {i : Instr} {o : CoreForm} {f : Word → Word → Word} {s : State}
    (hi : exec i s = binary o f s)
    (h : coreReady o { reads := [(o.a.toNat, o.la), (o.b.toNat, o.lb)], writes := [.sreg o.d.toNat] } s = true)
    (ha : s.aboveLimit o.d.toNat (f (s.me.readS o.a.toNat) (s.me.readS o.b.toNat))) :
    WritesRegister i s [(o.a.toNat, o.la), (o.b.toNat, o.lb)] o.d.toNat (f (s.me.readS o.a.toNat) (s.me.readS o.b.toNat)) := by
  refine writesRegister_of ?_ (coreReady_late h)
  rw [hi, binary, show usesAB o = { reads := [(o.a.toNat, o.la), (o.b.toNat, o.lb)], writes := [.sreg o.d.toNat] } from rfl,
    coreInstr_ready h]
  show Host.Outcome.next (((s.marked [(o.a.toNat, o.la), (o.b.toNat, o.lb)]).result o.d.toNat
    (f (s.me.readS o.a.toNat) (s.me.readS o.b.toNat))).finish s) = _
  rw [State.result_above ha (by simp)]

/-- An instruction of one source and a result of latency 1. -/
theorem unary_writes {i : Instr} {o : CoreForm} {f : Word → Word} {s : State} (hi : exec i s = unary o f s)
    (h : coreReady o { reads := [(o.a.toNat, o.la)], writes := [.sreg o.d.toNat] } s = true)
    (ha : s.aboveLimit o.d.toNat (f (s.me.readS o.a.toNat))) :
    WritesRegister i s [(o.a.toNat, o.la)] o.d.toNat (f (s.me.readS o.a.toNat)) := by
  refine writesRegister_of ?_ (coreReady_late h)
  rw [hi, unary, show usesA o = { reads := [(o.a.toNat, o.la)], writes := [.sreg o.d.toNat] } from rfl, coreInstr_ready h]
  show Host.Outcome.next (((s.marked [(o.a.toNat, o.la)]).result o.d.toNat (f (s.me.readS o.a.toNat))).finish s) = _
  rw [State.result_above ha (by simp)]

/-! ### What a compared state tells -/

theorem sansIssue_me {s t : State} (h : t.sansIssue = s.sansIssue) (hc : t.cur = s.cur) (hb : t.bank = s.bank) :
    t.me.sansIssue = s.me.sansIssue := by
  have := congrArg (fun x : State => x.ctx s.cur.unit s.bank) h
  simp only [State.sansIssue] at this
  have e1 : ∀ x : State, (({ x.modMe Ctx.sansIssue with inbox := [] } : State)).ctx x.cur.unit x.bank = x.me.sansIssue := by
    intro x
    show (x.modMe Ctx.sansIssue).ctx x.cur.unit x.bank = _
    exact State.ctx_modCtx_same ..
  rw [← hc, ← hb, e1 t] at this
  rw [hc, hb, e1 s] at this
  exact this

end Sys2Proof.Machine
end

