-- ==== Sys2Proof/Laws/Encoding.lean ====
section
/-!
SUPPORT. Taking the fields out of a slot undoes putting them in, form by form.
-/
namespace Sys2Proof

/-- The low part of an append. -/
theorem extract_low {m n : Nat} (x : BitVec m) (y : BitVec n) (lo k : Nat) (h : lo + k ≤ n) :
    (x ++ y).extractLsb' lo k = y.extractLsb' lo k := by
  apply BitVec.eq_of_getLsbD_eq
  intro i hi
  simp only [BitVec.getLsbD_extractLsb', BitVec.getLsbD_append, hi, decide_true, Bool.true_and]
  rw [if_pos (by omega)]

/-- The high part of an append. -/
theorem extract_high {m n : Nat} (x : BitVec m) (y : BitVec n) (lo k : Nat) (h : n ≤ lo) :
    (x ++ y).extractLsb' lo k = x.extractLsb' (lo - n) k := by
  apply BitVec.eq_of_getLsbD_eq
  intro i hi
  simp only [BitVec.getLsbD_extractLsb', BitVec.getLsbD_append, hi, decide_true, Bool.true_and]
  rw [if_neg (by omega)]
  congr 1; omega

/-- The whole of a field. -/
theorem extract_all {n : Nat} (x : BitVec n) : x.extractLsb' 0 n = x := by
  apply BitVec.eq_of_getLsbD_eq
  intro i hi
  simp [hi]

theorem bit_low {m n : Nat} (x : BitVec m) (y : BitVec n) (i : Nat) (h : i < n) : (x ++ y).getLsbD i = y.getLsbD i := by
  rw [BitVec.getLsbD_append, if_pos h]

theorem bit_high {m n : Nat} (x : BitVec m) (y : BitVec n) (i : Nat) (h : n ≤ i) : (x ++ y).getLsbD i = x.getLsbD (i - n) := by
  rw [BitVec.getLsbD_append, if_neg (by omega)]

theorem bit_zero (b : Bool) : (BitVec.ofBool b).getLsbD 0 = b := by cases b <;> rfl

@[simp] theorem packCore_op (op : BitVec 8) (o : CoreForm) : (packCore op o).op = op := by
  simp (disch := omega) only [Slot.op, packCore, extract_high, Nat.reduceSub, extract_all]

@[simp] theorem unpackCore_packCore (op : BitVec 8) (o : CoreForm) : unpackCore (packCore op o) = o := by
  cases o
  simp (disch := omega) only [unpackCore, packCore, extract_high, extract_low, bit_high, bit_low, Nat.reduceSub, extract_all, bit_zero]

@[simp] theorem packHead_op (op : BitVec 8) (h : StripHead) (f : BitVec 38) : (packHead op h f).op = op := by
  simp (disch := omega) only [Slot.op, packHead, extract_high, Nat.reduceSub, extract_all]

@[simp] theorem unpackHead_packHead (op : BitVec 8) (h : StripHead) (f : BitVec 38) : unpackHead (packHead op h f) = h := by
  cases h
  simp (disch := omega) only [unpackHead, packHead, extract_high, extract_low, bit_high, bit_low, Nat.reduceSub, extract_all, bit_zero]

/-- The operand field below a header is untouched by it. -/
theorem packHead_low (op : BitVec 8) (h : StripHead) (f : BitVec 38) (lo k : Nat) (hk : lo + k ≤ 38) :
    (packHead op h f).extractLsb' lo k = f.extractLsb' lo k := extract_low _ _ _ _ hk

/-- See `packHead_low`. -/
theorem packHead_bit (op : BitVec 8) (h : StripHead) (f : BitVec 38) (i : Nat) (hi : i < 38) :
    (packHead op h f).getLsbD i = f.getLsbD i := bit_low _ _ _ hi

@[simp] theorem unpackVR_packVR (op : BitVec 8) (h : StripHead) (o : VRForm) : unpackVR (packVR op h o) = o := by
  cases o
  simp (disch := omega) only [unpackVR, packVR, packHead_low, packHead_bit, extract_high, extract_low, bit_high, bit_low,
    Nat.reduceSub, extract_all, bit_zero]

@[simp] theorem unpackVI_packVI (op : BitVec 8) (h : StripHead) (o : VIForm) : unpackVI (packVI op h o) = o := by
  cases o
  simp (disch := omega) only [unpackVI, packVI, packHead_low, packHead_bit, extract_high, extract_low, bit_high, bit_low,
    Nat.reduceSub, extract_all, bit_zero]

@[simp] theorem unpackMX_packMX (op : BitVec 8) (h : StripHead) (o : MXForm) : unpackMX (packMX op h o) = o := by
  cases o
  simp (disch := omega) only [unpackMX, packMX, packHead_low, packHead_bit, extract_high, extract_low, bit_high, bit_low,
    Nat.reduceSub, extract_all, bit_zero]

@[simp] theorem unpackAX_packAX (op : BitVec 8) (h : StripHead) (o : AXForm) : unpackAX (packAX op h o) = o := by
  cases o
  simp (disch := omega) only [unpackAX, packAX, packHead_low, extract_high, extract_low, Nat.reduceSub, extract_all]

@[simp] theorem unpackCM_packCM (op : BitVec 8) (h : StripHead) (o : CMForm) : unpackCM (packCM op h o) = o := by
  cases o
  simp (disch := omega) only [unpackCM, packCM, packHead_low, extract_high, extract_low, Nat.reduceSub, extract_all]

@[simp] theorem packExtension_op (e : BitVec 52) : (packExtension e).op = 0xFF := by
  simp (disch := omega) only [Slot.op, packExtension, extract_high, Nat.reduceSub, extract_all]

theorem packExtension_low (e : BitVec 52) (lo k : Nat) (hk : lo + k ≤ 52) :
    (packExtension e).extractLsb' lo k = e.extractLsb' lo k := extract_low _ _ _ _ hk

theorem packVI_bit (op : BitVec 8) (h : StripHead) (o : VIForm) : (packVI op h o).getLsbD 17 = o.imm.getLsbD 17 := by
  simp (disch := omega) only [packVI, packHead_bit, bit_low]

@[simp] theorem packVR_op (op : BitVec 8) (h : StripHead) (o : VRForm) : (packVR op h o).op = op := packHead_op ..
@[simp] theorem packVI_op (op : BitVec 8) (h : StripHead) (o : VIForm) : (packVI op h o).op = op := packHead_op ..
@[simp] theorem packMX_op (op : BitVec 8) (h : StripHead) (o : MXForm) : (packMX op h o).op = op := packHead_op ..
@[simp] theorem packAX_op (op : BitVec 8) (h : StripHead) (o : AXForm) : (packAX op h o).op = op := packHead_op ..
@[simp] theorem packCM_op (op : BitVec 8) (h : StripHead) (o : CMForm) : (packCM op h o).op = op := packHead_op ..
@[simp] theorem unpackHead_packVR (op : BitVec 8) (h : StripHead) (o : VRForm) : unpackHead (packVR op h o) = h := unpackHead_packHead ..
@[simp] theorem unpackHead_packVI (op : BitVec 8) (h : StripHead) (o : VIForm) : unpackHead (packVI op h o) = h := unpackHead_packHead ..
@[simp] theorem unpackHead_packMX (op : BitVec 8) (h : StripHead) (o : MXForm) : unpackHead (packMX op h o) = h := unpackHead_packHead ..
@[simp] theorem unpackHead_packAX (op : BitVec 8) (h : StripHead) (o : AXForm) : unpackHead (packAX op h o) = h := unpackHead_packHead ..
@[simp] theorem unpackHead_packCM (op : BitVec 8) (h : StripHead) (o : CMForm) : unpackHead (packCM op h o) = h := unpackHead_packHead ..

end Sys2Proof
end

