-- ==== Sys2Proof/Laws/Memory.lean ====
section
/-!
SUPPORT. The operations that write memory: what each stores, and that each keeps the canonical form.
-/
namespace Sys2Proof.Machine

theorem State.mem_fireInjection (s : State) (pa n : Nat) : (s.fireInjection pa n).mem = s.mem := by
  unfold State.fireInjection
  simp only []
  split
  · split
    · split <;> rfl
    · rfl
  · rfl

theorem foldl_mem {α : Type} (f : State → α → State) (hf : ∀ s a, (f s a).mem = s.mem) (l : List α) (s : State) :
    (l.foldl f s).mem = s.mem := by
  induction l generalizing s with
  | nil => rfl
  | cons a l ih => simp [List.foldl_cons, ih, hf]

theorem State.mem_wakeMonitors (s : State) (b : Option Nat) (pa n : Nat) : (s.wakeMonitors b pa n).mem = s.mem := by
  unfold State.wakeMonitors
  split
  · exact foldl_mem (fun s (e : Nat × Tile) => s.due (.monitorWake e.1)) (fun _ _ => rfl) _ _
  · rfl

/-- Stored bytes keep the canonical form. -/
theorem wf_storeBytes (mem : List Host.Cell) (pa n v : Nat) (h : Memory.wf mem = true) : Memory.wf (storeBytes mem pa n v) = true := by
  unfold storeBytes
  simp only []
  split
  · exact Memory.wf_writeBytes _ _ _ _ (Memory.wf_writeBytes _ _ _ _ h)
  · exact Memory.wf_writeBytes _ _ _ _ h

/-- Below the windows a store of `n` bytes writes exactly them. -/
theorem storeBytes_plain (mem : List Host.Cell) (pa n v : Nat) (h : pa / 2 ^ 52 ≠ 0xE) : storeBytes mem pa n v = writeBytes mem pa n v := by
  unfold storeBytes
  simp only []
  rw [if_neg fun q => h q.1]

/-- What a store does to memory. -/
@[simp] theorem State.mem_storePA (s : State) (pa n v : Nat) (b : Option Nat) : (s.storePA pa n v b).mem = storeBytes s.mem pa n v := by
  unfold State.storePA
  rw [State.mem_wakeMonitors, State.mem_fireInjection, foldl_mem State.clearPoison (fun _ _ => rfl)]
  unfold State.clearLines
  rw [foldl_mem (fun s l => { s with badLines := s.badLines.del l, flips := s.flips.del (sidebandPA l) }) (fun _ _ => rfl)]

/-- A store keeps the canonical form. -/
theorem State.wf_storePA (s : State) (pa n v : Nat) (b : Option Nat) (h : Memory.wf s.mem = true) :
    Memory.wf (s.storePA pa n v b).mem = true := by
  rw [State.mem_storePA]; exact wf_storeBytes _ _ _ _ h

/-- A notice keeps the canonical form. -/
theorem State.wf_notice (s : State) (die w : Nat) (h : Memory.wf s.mem = true) : Memory.wf (s.notice die w).mem = true := by
  unfold State.notice
  simp only []
  split
  · exact h
  · simp only [State.mem_storePA]
    exact wf_storeBytes _ _ _ _ (wf_storeBytes _ _ _ _ h)

/-- A checked word changes memory only by the notice of a tile that its error log benches. -/
theorem State.wf_checkWord (s : State) (agent w : Nat) (h : Memory.wf s.mem = true)
    (hl : ∀ ue inj sy, Memory.wf (s.logError w ue inj sy agent).mem = true) :
    Memory.wf (s.checkWord agent w).mem = true := by
  unfold State.checkWord
  split
  · exact h
  · simp only []
    split
    · exact hl ..
    · exact hl ..

end Sys2Proof.Machine
end

