-- ==== Sys2Proof/Laws/Schedule.lean ====
section
/-!
SUPPORT. A due event has the meaning that `exec` gives its row of the opcode table.
-/
namespace Sys2Proof.Machine

variable (s : State)

theorem serve_microStep : ∀ x0 x1, serve (.microStep x0 x1) s = exec (.microStep x0 x1) s := by intros; rfl
theorem serve_pipelinedResultWrite : ∀ x0 x1 x2 x3 x4 x5, serve (.pipelinedResultWrite x0 x1 x2 x3 x4 x5) s = exec (.pipelinedResultWrite x0 x1 x2 x3 x4 x5) s := by intros; rfl
theorem serve_vectorResultLands : ∀ x0 x1 x2 x3 x4 x5 x6 x7, serve (.vectorResultLands x0 x1 x2 x3 x4 x5 x6 x7) s = exec (.vectorResultLands x0 x1 x2 x3 x4 x5 x6 x7) s := by intros; rfl
theorem serve_accumulatorEntry : ∀ x0 x1 x2, serve (.accumulatorEntry x0 x1 x2) s = exec (.accumulatorEntry x0 x1 x2) s := by intros; rfl
theorem serve_wloadEntry : ∀ x0, serve (.wloadEntry x0) s = exec (.wloadEntry x0) s := by intros; rfl
theorem serve_latchValid : ∀ x0 x1, serve (.latchValid x0 x1) s = exec (.latchValid x0 x1) s := by intros; rfl
theorem serve_latchRestoreComplete : ∀ x0, serve (.latchRestoreComplete x0) s = exec (.latchRestoreComplete x0) s := by intros; rfl
theorem serve_rowBufferDrain : ∀ x0 x1, serve (.rowBufferDrain x0 x1) s = exec (.rowBufferDrain x0 x1) s := by intros; rfl
theorem serve_eccWriteback : ∀ x0, serve (.eccWriteback x0) s = exec (.eccWriteback x0) s := by intros; rfl
theorem serve_asyncTrapDelivery : ∀ x0 x1, serve (.asyncTrapDelivery x0 x1) s = exec (.asyncTrapDelivery x0 x1) s := by intros; rfl
theorem serve_boundaryConditionsMet : ∀ x0, serve (.boundaryConditionsMet x0) s = exec (.boundaryConditionsMet x0) s := by intros; rfl
theorem serve_minimumPairExpiry : ∀ x0, serve (.minimumPairExpiry x0) s = exec (.minimumPairExpiry x0) s := by intros; rfl
theorem serve_timedBoundaryTime : ∀ x0, serve (.timedBoundaryTime x0) s = exec (.timedBoundaryTime x0) s := by intros; rfl
theorem serve_boundarySequence : ∀ x0, serve (.boundarySequence x0) s = exec (.boundarySequence x0) s := by intros; rfl
theorem serve_startPulseArrival : ∀ x0 x1, serve (.startPulseArrival x0 x1) s = exec (.startPulseArrival x0 x1) s := by intros; rfl
theorem serve_stragglerFault : ∀ x0, serve (.stragglerFault x0) s = exec (.stragglerFault x0) s := by intros; rfl
theorem serve_deadlineFault : ∀ x0 x1, serve (.deadlineFault x0 x1) s = exec (.deadlineFault x0 x1) s := by intros; rfl
theorem serve_hangFault : ∀ x0 x1 x2, serve (.hangFault x0 x1 x2) s = exec (.hangFault x0 x1 x2) s := by intros; rfl
theorem serve_waveReachesTile : ∀ x0 x1, serve (.waveReachesTile x0 x1) s = exec (.waveReachesTile x0 x1) s := by intros; rfl
theorem serve_causeSettle : ∀ x0, serve (.causeSettle x0) s = exec (.causeSettle x0) s := by intros; rfl
theorem serve_tileRelease : ∀ x0 x1, serve (.tileRelease x0 x1) s = exec (.tileRelease x0 x1) s := by intros; rfl
theorem serve_stepRefreeze : ∀ x0 x1, serve (.stepRefreeze x0 x1) s = exec (.stepRefreeze x0 x1) s := by intros; rfl
theorem serve_stepTimeout : ∀ x0 x1, serve (.stepTimeout x0 x1) s = exec (.stepTimeout x0 x1) s := by intros; rfl
theorem serve_write : ∀ x0, serve (.write x0) s = exec (.write x0) s := by intros; rfl
theorem serve_writem : ∀ x0, serve (.writem x0) s = exec (.writem x0) s := by intros; rfl
theorem serve_read : ∀ x0, serve (.read x0) s = exec (.read x0) s := by intros; rfl
theorem serve_rreply : ∀ x0, serve (.rreply x0) s = exec (.rreply x0) s := by intros; rfl
theorem serve_cread : ∀ x0, serve (.cread x0) s = exec (.cread x0) s := by intros; rfl
theorem serve_creply : ∀ x0, serve (.creply x0) s = exec (.creply x0) s := by intros; rfl
theorem serve_rcount : ∀ x0, serve (.rcount x0) s = exec (.rcount x0) s := by intros; rfl
theorem serve_rslot : ∀ x0, serve (.rslot x0) s = exec (.rslot x0) s := by intros; rfl
theorem serve_atom : ∀ x0, serve (.atom x0) s = exec (.atom x0) s := by intros; rfl
theorem serve_ares : ∀ x0, serve (.ares x0) s = exec (.ares x0) s := by intros; rfl
theorem serve_red : ∀ x0, serve (.red x0) s = exec (.red x0) s := by intros; rfl
theorem serve_reductionDelivery : ∀ x0, serve (.reductionDelivery x0) s = exec (.reductionDelivery x0) s := by intros; rfl
theorem serve_ack : ∀ x0, serve (.ack x0) s = exec (.ack x0) s := by intros; rfl
theorem serve_nack : ∀ x0, serve (.nack x0) s = exec (.nack x0) s := by intros; rfl
theorem serve_probe : ∀ x0, serve (.probe x0) s = exec (.probe x0) s := by intros; rfl
theorem serve_back : ∀ x0, serve (.back x0) s = exec (.back x0) s := by intros; rfl
theorem serve_ready : ∀ x0, serve (.ready x0) s = exec (.ready x0) s := by intros; rfl
theorem serve_fail : ∀ x0, serve (.fail x0) s = exec (.fail x0) s := by intros; rfl
theorem serve_cmark : ∀ x0, serve (.cmark x0) s = exec (.cmark x0) s := by intros; rfl
theorem serve_creport : ∀ x0, serve (.creport x0) s = exec (.creport x0) s := by intros; rfl
theorem serve_fault : ∀ x0, serve (.fault x0) s = exec (.fault x0) s := by intros; rfl
theorem serve_free : ∀ x0, serve (.free x0) s = exec (.free x0) s := by intros; rfl
theorem serve_barrier : ∀ x0, serve (.barrier x0) s = exec (.barrier x0) s := by intros; rfl
theorem serve_whistleFreeze : ∀ x0, serve (.whistleFreeze x0) s = exec (.whistleFreeze x0) s := by intros; rfl
theorem serve_whistleResume : ∀ x0, serve (.whistleResume x0) s = exec (.whistleResume x0) s := by intros; rfl
theorem serve_whistleJobStep : ∀ x0, serve (.whistleJobStep x0) s = exec (.whistleJobStep x0) s := by intros; rfl
theorem serve_circuitBeat : ∀ x0 x1 x2 x3 x4 x5, serve (.circuitBeat x0 x1 x2 x3 x4 x5) s = exec (.circuitBeat x0 x1 x2 x3 x4 x5) s := by intros; rfl
theorem serve_circuitTeardown : ∀ x0 x1 x2, serve (.circuitTeardown x0 x1 x2) s = exec (.circuitTeardown x0 x1 x2) s := by intros; rfl
theorem serve_leaseExpiry : ∀ x0 x1 x2, serve (.leaseExpiry x0 x1 x2) s = exec (.leaseExpiry x0 x1 x2) s := by intros; rfl
theorem serve_meterIdleExpiry : ∀ x0 x1, serve (.meterIdleExpiry x0 x1) s = exec (.meterIdleExpiry x0 x1) s := by intros; rfl
theorem serve_holdoffExpiry : ∀ x0 x1, serve (.holdoffExpiry x0 x1) s = exec (.holdoffExpiry x0 x1) s := by intros; rfl
theorem serve_meterDecay : ∀ x0, serve (.meterDecay x0) s = exec (.meterDecay x0) s := by intros; rfl
theorem serve_meterProbeTimeout : ∀ x0 x1, serve (.meterProbeTimeout x0 x1) s = exec (.meterProbeTimeout x0 x1) s := by intros; rfl
theorem serve_handleProbeTimeout : ∀ x0 x1 x2, serve (.handleProbeTimeout x0 x1 x2) s = exec (.handleProbeTimeout x0 x1 x2) s := by intros; rfl
theorem serve_reservationTimeout : ∀ x0, serve (.reservationTimeout x0) s = exec (.reservationTimeout x0) s := by intros; rfl
theorem serve_retransmitTimeout : ∀ x0 x1 x2 x3, serve (.retransmitTimeout x0 x1 x2 x3) s = exec (.retransmitTimeout x0 x1 x2 x3) s := by intros; rfl
theorem serve_ackTimer : ∀ x0 x1 x2 x3, serve (.ackTimer x0 x1 x2 x3) s = exec (.ackTimer x0 x1 x2 x3) s := by intros; rfl
theorem serve_nackRetry : ∀ x0 x1 x2 x3 x4, serve (.nackRetry x0 x1 x2 x3 x4) s = exec (.nackRetry x0 x1 x2 x3 x4) s := by intros; rfl
theorem serve_hostAccessTimeout : ∀ x0 x1 x2, serve (.hostAccessTimeout x0 x1 x2) s = exec (.hostAccessTimeout x0 x1 x2) s := by intros; rfl
theorem serve_streamGranule : ∀ x0, serve (.streamGranule x0) s = exec (.streamGranule x0) s := by intros; rfl
theorem serve_streamComplete : ∀ x0 x1 x2, serve (.streamComplete x0 x1 x2) s = exec (.streamComplete x0 x1 x2) s := by intros; rfl
theorem serve_timelineIncrement : ∀ x0 x1 x2, serve (.timelineIncrement x0 x1 x2) s = exec (.timelineIncrement x0 x1 x2) s := by intros; rfl
theorem serve_pageWalkComplete : ∀ x0 x1 x2, serve (.pageWalkComplete x0 x1 x2) s = exec (.pageWalkComplete x0 x1 x2) s := by intros; rfl
theorem serve_tlbinvMarkersComplete : ∀ x0, serve (.tlbinvMarkersComplete x0) s = exec (.tlbinvMarkersComplete x0) s := by intros; rfl
theorem serve_launchLoadComplete : ∀ x0, serve (.launchLoadComplete x0) s = exec (.launchLoadComplete x0) s := by intros; rfl
theorem serve_ctxsaveComplete : ∀ x0, serve (.ctxsaveComplete x0) s = exec (.ctxsaveComplete x0) s := by intros; rfl
theorem serve_ctxloadComplete : ∀ x0, serve (.ctxloadComplete x0) s = exec (.ctxloadComplete x0) s := by intros; rfl
theorem serve_monitorWake : ∀ x0, serve (.monitorWake x0) s = exec (.monitorWake x0) s := by intros; rfl
theorem serve_mwaitTimeout : ∀ x0, serve (.mwaitTimeout x0) s = exec (.mwaitTimeout x0) s := by intros; rfl
theorem serve_monitorLoss : ∀ x0, serve (.monitorLoss x0) s = exec (.monitorLoss x0) s := by intros; rfl
theorem serve_sweeperVisit : ∀ x0, serve (.sweeperVisit x0) s = exec (.sweeperVisit x0) s := by intros; rfl
theorem serve_hostApertureAccess : ∀ x0, serve (.hostApertureAccess x0) s = exec (.hostApertureAccess x0) s := by intros; rfl
theorem serve_linkTrained : ∀ x0 x1 x2 x3, serve (.linkTrained x0 x1 x2 x3) s = exec (.linkTrained x0 x1 x2 x3) s := by intros; rfl
theorem serve_quarantineRetrain : ∀ x0, serve (.quarantineRetrain x0) s = exec (.quarantineRetrain x0) s := by intros; rfl
theorem serve_linkFailure : ∀ x0, serve (.linkFailure x0) s = exec (.linkFailure x0) s := by intros; rfl
theorem serve_retrainWrite : ∀ x0 x1, serve (.retrainWrite x0 x1) s = exec (.retrainWrite x0 x1) s := by intros; rfl
theorem serve_nutonRetrain : ∀ x0, serve (.nutonRetrain x0) s = exec (.nutonRetrain x0) s := by intros; rfl
theorem serve_syncInterval : serve .syncInterval s = exec .syncInterval s := rfl
theorem serve_sync : ∀ x0, serve (.sync x0) s = exec (.sync x0) s := by intros; rfl
theorem serve_followUp : ∀ x0, serve (.followUp x0) s = exec (.followUp x0) s := by intros; rfl
theorem serve_delayReq : ∀ x0, serve (.delayReq x0) s = exec (.delayReq x0) s := by intros; rfl
theorem serve_delayResp : ∀ x0, serve (.delayResp x0) s = exec (.delayResp x0) s := by intros; rfl
theorem serve_announce : ∀ x0, serve (.announce x0) s = exec (.announce x0) s := by intros; rfl
theorem serve_auxPowerOn : ∀ x0 x1, serve (.auxPowerOn x0 x1) s = exec (.auxPowerOn x0 x1) s := by intros; rfl
theorem serve_startupStageComplete : ∀ x0, serve (.startupStageComplete x0) s = exec (.startupStageComplete x0) s := by intros; rfl
theorem serve_moduleReset : serve .moduleReset s = exec .moduleReset s := rfl
theorem serve_temperatureWarning : ∀ x0 x1 x2, serve (.temperatureWarning x0 x1 x2) s = exec (.temperatureWarning x0 x1 x2) s := by intros; rfl
theorem serve_criticalTemperature : ∀ x0 x1, serve (.criticalTemperature x0 x1) s = exec (.criticalTemperature x0 x1) s := by intros; rfl
theorem serve_railRemoval : serve .railRemoval s = exec .railRemoval s := rfl
theorem serve_getVersion : ∀ x0, serve (.getVersion x0) s = exec (.getVersion x0) s := by intros; rfl
theorem serve_getCapabilities : ∀ x0, serve (.getCapabilities x0) s = exec (.getCapabilities x0) s := by intros; rfl
theorem serve_negotiateAlgorithms : ∀ x0, serve (.negotiateAlgorithms x0) s = exec (.negotiateAlgorithms x0) s := by intros; rfl
theorem serve_getDigests : ∀ x0, serve (.getDigests x0) s = exec (.getDigests x0) s := by intros; rfl
theorem serve_getCertificate : ∀ x0, serve (.getCertificate x0) s = exec (.getCertificate x0) s := by intros; rfl
theorem serve_challenge : ∀ x0, serve (.challenge x0) s = exec (.challenge x0) s := by intros; rfl
theorem serve_getMeasurements : ∀ x0, serve (.getMeasurements x0) s = exec (.getMeasurements x0) s := by intros; rfl
theorem serve_keyExchange : ∀ x0, serve (.keyExchange x0) s = exec (.keyExchange x0) s := by intros; rfl
theorem serve_finish : ∀ x0, serve (.finish x0) s = exec (.finish x0) s := by intros; rfl
theorem serve_endSession : ∀ x0, serve (.endSession x0) s = exec (.endSession x0) s := by intros; rfl
theorem serve_spdmUnsupportedRequest : ∀ x0, serve (.spdmUnsupportedRequest x0) s = exec (.spdmUnsupportedRequest x0) s := by intros; rfl
theorem serve_pldmGetSensor : ∀ x0, serve (.pldmGetSensor x0) s = exec (.pldmGetSensor x0) s := by intros; rfl
theorem serve_debugWindowAccess : ∀ x0, serve (.debugWindowAccess x0) s = exec (.debugWindowAccess x0) s := by intros; rfl
theorem serve_debugWhistle : ∀ x0, serve (.debugWhistle x0) s = exec (.debugWhistle x0) s := by intros; rfl
theorem serve_debugRelease : ∀ x0 x1, serve (.debugRelease x0 x1) s = exec (.debugRelease x0 x1) s := by intros; rfl
theorem serve_debugStep : ∀ x0 x1 x2, serve (.debugStep x0 x1 x2) s = exec (.debugStep x0 x1 x2) s := by intros; rfl
theorem serve_debugHaltSteward : ∀ x0, serve (.debugHaltSteward x0) s = exec (.debugHaltSteward x0) s := by intros; rfl
theorem serve_debugRestartSteward : ∀ x0, serve (.debugRestartSteward x0) s = exec (.debugRestartSteward x0) s := by intros; rfl
theorem serve_debugReset : serve .debugReset s = exec .debugReset s := rfl
theorem serve_barrierPlaneWrite : ∀ x0 x1 x2, serve (.barrierPlaneWrite x0 x1 x2) s = exec (.barrierPlaneWrite x0 x1 x2) s := by intros; rfl
theorem serve_rfqServed : ∀ x0 x1 x2 x3, serve (.rfqServed x0 x1 x2 x3) s = exec (.rfqServed x0 x1 x2 x3) s := by intros; rfl
theorem serve_rfqDead : ∀ x0 x1 x2 x3, serve (.rfqDead x0 x1 x2 x3) s = exec (.rfqDead x0 x1 x2 x3) s := by intros; rfl
theorem serve_streamRetry : ∀ x0 x1 x2 x3, serve (.streamRetry x0 x1 x2 x3) s = exec (.streamRetry x0 x1 x2 x3) s := by intros; rfl
theorem serve_stripStatusWrite : ∀ x0 x1 x2 x3 x4, serve (.stripStatusWrite x0 x1 x2 x3 x4) s = exec (.stripStatusWrite x0 x1 x2 x3 x4) s := by intros; rfl
theorem serve_timelineWindowWrite : ∀ x0 x1 x2 x3 x4, serve (.timelineWindowWrite x0 x1 x2 x3 x4) s = exec (.timelineWindowWrite x0 x1 x2 x3 x4) s := by intros; rfl
theorem serve_noticeLineSet : ∀ x0 x1 x2, serve (.noticeLineSet x0 x1 x2) s = exec (.noticeLineSet x0 x1 x2) s := by intros; rfl
theorem serve_errorLogClear : ∀ x0 x1 x2, serve (.errorLogClear x0 x1 x2) s = exec (.errorLogClear x0 x1 x2) s := by intros; rfl
theorem serve_traceControlWrite : ∀ x0 x1 x2, serve (.traceControlWrite x0 x1 x2) s = exec (.traceControlWrite x0 x1 x2) s := by intros; rfl
theorem serve_monitorConfigWrite : ∀ x0 x1 x2 x3 x4, serve (.monitorConfigWrite x0 x1 x2 x3 x4) s = exec (.monitorConfigWrite x0 x1 x2 x3 x4) s := by intros; rfl
theorem serve_routeUnitJobWrite : ∀ x0 x1 x2, serve (.routeUnitJobWrite x0 x1 x2) s = exec (.routeUnitJobWrite x0 x1 x2) s := by intros; rfl
theorem serve_windowWrite : ∀ x0 x1, serve (.windowWrite x0 x1) s = exec (.windowWrite x0 x1) s := by intros; rfl
theorem serve_circuitDeparture : ∀ x0 x1, serve (.circuitDeparture x0 x1) s = exec (.circuitDeparture x0 x1) s := by intros; rfl
theorem serve_reservedTypePacket : ∀ x0 x1, serve (.reservedTypePacket x0 x1) s = exec (.reservedTypePacket x0 x1) s := by intros; rfl
theorem serve_healthMonitorSample : ∀ x0 x1 x2 x3 x4, serve (.healthMonitorSample x0 x1 x2 x3 x4) s = exec (.healthMonitorSample x0 x1 x2 x3 x4) s := by intros; rfl

end Sys2Proof.Machine
end

