-- ==== Sys2Proof/Laws/Strip.lean ====
section
/-!
SUPPORT. What a strip instruction does that may issue, and how each kind of end leaves the strip: cited in place of unfolding
`stripOnce`, `stripMany` and `StripRes.finish`.
-/
namespace Sys2Proof.Machine

/-- The results of an instruction that has run on as it was fetched are what its work gives. -/
@[simp] theorem StripRes.opened_eq {s : State} (h : s.strip.loose = false) (r : StripRes) : r.opened s = r := by
  simp [StripRes.opened, h]

/-- A single-cycle strip instruction in a legal phase, its guard true, its tokens present and with room, does its work. -/
theorem stripOnce_ready {h : StripHead} {legal : State → Bool} {s : State} (work : State → StripRes) (hl : legal s = true)
    (hg : s.guardTrue h = true) (ht : s.lacksToken h = none) (hr : s.lacksRoom h = none) :
    stripOnce h legal work s = .next ((work s).finishOnce h s) := by
  simp [stripOnce, hl, hg, ht, hr]

/-- In a phase that it is not legal in, a strip instruction traps (02 R63). -/
theorem stripOnce_illegal {h : StripHead} {legal : State → Bool} {s : State} (work : State → StripRes) (hl : legal s = false) :
    stripOnce h legal work s = .next (s.trapStrip s.phaseTrap) := by
  simp [stripOnce, hl]

/-- Under a false guard a strip instruction only moves its tokens (02 R56). -/
theorem stripOnce_skips {h : StripHead} {legal : State → Bool} {s : State} (work : State → StripRes) (hl : legal s = true)
    (hg : s.guardTrue h = false) : stripOnce h legal work s = .next (s.stripSkips h) := by
  simp [stripOnce, hl, hg]

/-- See `stripOnce_illegal`. -/
theorem stripMany_illegal {h : StripHead} {legal : State → Bool} {s : State} (last : State → Nat) (work : State → StripRes)
    (hl : legal s = false) : stripMany h legal last work s = .next (s.trapStrip s.phaseTrap) := by
  simp [stripMany, hl]

/-- The last micro-step of an instruction whose tokens are taken. -/
theorem stripMany_done {h : StripHead} {legal : State → Bool} {s m : State} {last : State → Nat} {work : State → StripRes} {n : Nat}
    (hl : legal s = true) (ho : s.strip.loose = false) (hp : s.strip.popped = true) (hr : s.lacksRoom h = none)
    (hw : work s = .done m n) (hm : m.strip.popped = true) : stripMany h legal last work s = .next ((m.giveTokens h n).stripEnds h n) := by
  simp [stripMany, hl, ho, hp, hr, hw, hm, StripRes.finish]

/-- A micro-step before the last, of an instruction whose tokens are taken. -/
theorem stripMany_micro {h : StripHead} {legal : State → Bool} {s m : State} {last : State → Nat} {work : State → StripRes} {n : Nat}
    (hl : legal s = true) (ho : s.strip.loose = false) (hp : s.strip.popped = true) (hr : s.strip.ust + 1 < last s)
    (hw : work s = .micro m n) :
    stripMany h legal last work s = .next ((s.begun m h).modMyStrip fun t =>
      { t with ust := t.ust + 1, next := s.cycle + n, stall := 0, wait := 0, spent := 0 }) := by
  simp [stripMany, hl, ho, hp, hr, hw, StripRes.finish]

/-- A strip trap leaves memory, and every unit but the acting one. -/
theorem State.trapStrip_frame (s : State) (t : Trap) :
    (s.trapStrip t).mem = s.mem ∧ (s.trapStrip t).jobs = s.jobs ∧ ∀ v, v ≠ s.cur.unit → (s.trapStrip t).tile v = s.tile v := by
  refine ⟨rfl, rfl, fun v hv => ?_⟩
  exact (State.tile_mod_other _ _ hv).trans (State.tile_mod_other _ _ hv)

/-- A waiting cycle of a strip leaves memory, and every unit but the acting one. -/
theorem State.stripWaits_frame (s : State) (code fifo : Nat) :
    (s.stripWaits code fifo).mem = s.mem ∧ (s.stripWaits code fifo).jobs = s.jobs
    ∧ ∀ v, v ≠ s.cur.unit → (s.stripWaits code fifo).tile v = s.tile v := by
  have due : ∀ (b : Bool) (m : State) (e : Event), (m.mem = s.mem ∧ m.jobs = s.jobs ∧ ∀ v, v ≠ s.cur.unit → m.tile v = s.tile v) →
      (if b = true then m.due e else m).mem = s.mem ∧ (if b = true then m.due e else m).jobs = s.jobs
        ∧ ∀ v, v ≠ s.cur.unit → (if b = true then m.due e else m).tile v = s.tile v := by
    intro b m e hm
    cases b <;> exact hm
  exact due _ _ _ ⟨rfl, rfl, fun v hv => State.tile_mod_other _ _ hv⟩

end Sys2Proof.Machine
end

