-- ==== Sys2Proof/Tests/Slice0.lean ====
section
/-!
SUPPORT. The tests: words of the spec's worked encodings and what they decode to, the fates that refuse a word, ill-formed terms
that the check refuses, small steps, and for each obligation with hypotheses states and operands that meet them (`test_meets_…`).
Expected values are the spec's. `Config` constants have no value, so a hypothesis that asks what one answers has no witness here.
-/
open Sys2Proof Sys2Proof.Machine Sys2Proof.Claims
namespace Sys2Proof.Tests
-- one theorem after another: each thread's stack counts as memory
set_option Elab.async false

/-! ### Decoding: words of the spec's worked encodings (02, 04, 06, 09 to 14), and what each fate refuses -/

theorem test_decode_integer : decodeSlot false 0 0x0200000000000000 none = .instr (.addi {})
    ∧ decodeSlot false 0 0x06000A3004FFFFE8 none = .instr (.ld { d := 5, a := 3, x := 4, imm := 0xFFFFE8 })
    ∧ decodeSlot false 0 0x0540004282000202 none = .instr (.bcmpna { a := 4, b := 5, x := 2, imm := 0x202 })
    ∧ decodeSlot false 0 0x0B100A0002000000 none = .instr (.rdtime { d := 5, x := 2 }) := by decide

theorem test_decode_control : decodeSlot false 0 0x0790000000000005 none = .instr (.trap { imm := 5 })
    ∧ decodeSlot false 0 0x07A0000000000001 none = .instr (.brk { imm := 1 }) ∧ decodeSlot false 0 0x0810000000000000 none = .instr (.eret {})
    ∧ decodeSlot false 0 0x0740000000000000 none = .instr (.phend {}) ∧ decodeSlot false 0 0x0750000000000BB8 none = .instr (.phbud { imm := 3000 })
    ∧ decodeSlot false 0 0x0780004000000000 none = .instr (.waitt { a := 4 }) ∧ decodeSlot false 0 0x07F0000000000000 none = .instr (.tend {})
    ∧ decodeSlot false 0 0x0700000009000200 none = .instr (.sgo { x := 9, imm := 0x200 })
    ∧ decodeSlot false 0 0x07E0004000000001 none = .instr (.traceMark { a := 4, x := 0, imm := 1 }) := by decide

theorem test_decode_system : decodeSlot false 0 0x080008C000000000 none = .instr (.tspawn { d := 4, a := 12 })
    ∧ decodeSlot true 0 0x08C0005000000000 none = .instr (.ctxsw { a := 5 }) ∧ decodeSlot true 0 0x0900004000000000 none = .instr (.whistle { a := 4 })
    ∧ decodeSlot true 0 0x0920004001000000 none = .instr (.stepTile { a := 4, x := 1 })
    ∧ decodeSlot true 0 0x0920004280000000 none = .instr (.stepJob { a := 4, b := 5 })
    ∧ decodeSlot true 0 0x0930004000000000 none = .instr (.bench { a := 4 })
    ∧ decodeSlot false 0 0x0770004281000000 none = .instr (.tlwait { a := 4, b := 5, x := 1 })
    ∧ decodeSlot false 0 0x0A00085000000000 none = .instr (.copen { d := 4, a := 5 })
    ∧ decodeSlot false 0 0x0A700C4000000000 none = .instr (.fmread { d := 6, a := 4 })
    ∧ decodeSlot true 0 0x0A60004280000000 none = .instr (.fmset { a := 4, b := 5 }) := by decide

theorem test_decode_strips : decodeSlot false 3 0x0F30000000000020 none = .instr (.sflgOr {} { imm := 0x20 })
    ∧ decodeSlot false 3 0x0040200707824A21 none
      = .instr (.vfma { pl := true } { d := 7, a := 1, b := 0x38, c := 9, lc := true, m := 2, t := 2, f := 1 })
    ∧ decodeSlot false 3 0x06100005000A0000 (some 0x0FF000003FC00000) = .instr (.vli {} { d := 5, t := 2, imm := 0x20000 } (some 0x3FC00000))
    ∧ decodeSlot false 2 0x0040A0203F819000 none = .instr (.mma { idle := 2, pl := true } { row := 64, cnt := 63, ws := true, tb := 3, src := 1 })
    ∧ decodeSlot false 2 0x008000007F000060 none = .instr (.adrn {} { cnt := 127, cvt := 1, rm := 2 })
    ∧ decodeSlot false 2 0x00A000004F000000 none = .instr (.mscan {} { cnt := 79 })
    ∧ decodeSlot false 1 0x0010000380000C00 none = .instr (.sdesc {} { port := 7, imm := 0xC00 })
    ∧ decodeSlot false 1 0x0020000001F00000 none = .instr (.srun {} { cnt := 31 })
    ∧ decodeSlot false 1 0x0200000B82F91004 none = .instr (.xput {} { ds := 2, port := 7, cnt := 47, aux := 9, imm := 0x1004 })
    ∧ decodeSlot false 4 0x0040000800000480 none = .instr (.wdsc {} { ds := 2, imm := 0x480 }) := by decide

/-- Each fate of R63: an opcode without an instruction, an extension slot at issue, one missing, a privileged instruction on a tile, a
reserved field, a reserved operand. -/
theorem test_refused : decodeSlot false 0 0x0FF0000000000000 none = .bad (.illegal 5) ∧ decodeSlot false 0 0 none = .bad (.illegal 0)
    ∧ decodeSlot false 3 0x06100005000A0000 none = .bad (.illegal 4) ∧ decodeSlot false 0 0x0900004000000000 none = .bad .privileged
    ∧ decodeSlot false 0 0x0740000000000001 none = .bad .field ∧ decodeSlot true 0 0x0920004003000000 none = .bad .operand := by decide

/-- Ill-formed terms: a reserved field not 0, a reserved operand, another constructor's minor code. -/
theorem test_wellFormed_refuses : wellFormed (.phend { imm := 1 }) = false ∧ wellFormed (.bcmpna { x := 31 }) = false
    ∧ wellFormed (.stepTile { a := 4, x := 0 }) = false ∧ wellFormed (.stepTile { a := 4, x := 1 }) = true ∧ wellFormed (.phend {}) = true := by decide

/-! ### Small states -/

/-- Tile 0 with context A as given, nothing else. -/
def onTile (x : Ctx) : State := { State.reset with power := true, units := [(0, { ctxA := x })] }

/-- Tile 0 as given. -/
def tileOf (t : Tile) : State := { State.reset with power := true, units := [(0, t)] }

/-- The steward of unit 768 with its registers as given. -/
def onSteward (x : Ctx) : State :=
  { State.reset with power := true, units := [(768, { ctxA := x, started := true })], cur := { unit := 768, eng := 0 } }

/-- D, A, B = s3, s4, s5. -/
def abc : CoreForm := { d := 3, a := 4, b := 5 }

/-- s4 = 7, s5 = -1. -/
def two : State := onTile { s := [(4, 7), (5, 0xFFFFFFFFFFFFFFFF)] }

/-! ### The control core (04, 14 R395, R396) -/

theorem test_meets_IntegerResults : ∃ f, integerOperation (.add abc) = some (abc, f)
    ∧ coreReady abc { reads := [(4, false), (5, false)], writes := [.sreg 3] } two = true ∧ two.aboveLimit 3 (f 7 (-1)) :=
  ⟨_, rfl, by decide, by unfold State.aboveLimit; decide⟩

/-- A value equal to ctl.slim may stand in s2 (04 R115: below it traps). -/
theorem test_meets_IntegerResults_at_limit : ∃ f, integerOperation (.sub { abc with d := 2 }) = some ({ abc with d := 2 }, f)
    ∧ coreReady { abc with d := 2 } { reads := [(4, false), (5, false)], writes := [.sreg 2] }
      (onTile { s := [(4, 7), (5, 1)], slim := 6 }) = true
    ∧ (onTile { s := [(4, 7), (5, 1)], slim := 6 }).aboveLimit 2 (f 7 1) :=
  ⟨_, rfl, by decide, by unfold State.aboveLimit; decide⟩

theorem test_add_wraps : ∃ t, exec (.add abc) two = .next t ∧ t.me.readS 3 = 6 ∧ t.me.readS 4 = 7 := ⟨_, rfl, by decide⟩

theorem test_sra_signed : ∃ t, exec (.sra { abc with a := 5, b := 4 }) two = .next t ∧ t.me.readS 3 = 0xFFFFFFFFFFFFFFFF :=
  ⟨_, rfl, by decide⟩

theorem test_add_into_s0 : ∃ t, exec (.add { abc with d := 0 }) two = .next t ∧ t.me.readS 0 = 0 := ⟨_, rfl, by decide⟩

theorem test_meets_ImmediateAndBitResults : ∃ f, immediateOperation (.addi { abc with imm := 0xFFFFFF }) = some ({ abc with imm := 0xFFFFFF }, f)
    ∧ coreReady { abc with imm := 0xFFFFFF } { reads := [(4, false)], writes := [.sreg 3] } two = true ∧ two.aboveLimit 3 (f 7) :=
  ⟨_, rfl, by decide, by unfold State.aboveLimit; decide⟩

theorem test_meets_ImmediateAndBitResults_constant : constantOf (.li abc 1) = some (abc, 0x1000000)
    ∧ coreReady abc { writes := [.sreg 3] } two = true ∧ two.aboveLimit 3 0x1000000 :=
  ⟨rfl, by decide, by unfold State.aboveLimit; decide⟩

theorem test_meets_ImmediateAndBitResults_bits : coreReady abc { reads := [(4, false)], writes := [.sreg 3] } two = true ∧ abc.d ≠ 2 := by
  decide

theorem test_clz : ∃ t, exec (.clz abc) two = .next t ∧ t.me.readS 3 = 61 := ⟨_, rfl, by decide⟩

theorem test_addi_minus_one : ∃ t, exec (.addi { abc with imm := 0xFFFFFF }) two = .next t ∧ t.me.readS 3 = 6 := ⟨_, rfl, by decide⟩

theorem test_meets_MultiplyAndDivideResults : ∃ f, productOf (.mulh abc) = some (abc, f)
    ∧ coreReady abc { reads := [(4, false), (5, false)], writes := [.sreg 3], lat := 3 } two = true ∧ two.aboveLimit 3 (f 7 (-1)) :=
  ⟨_, rfl, by decide, by unfold State.aboveLimit; decide⟩

/-- 100 / 7: micro-steps 0 and 11, with the partial state that 04 R112 gives. -/
def dividend (k : Nat) (p : Word × Word) : State :=
  onTile { s := [(4, 100), (5, 7)], ust := k, partial0 := p.1, partial1 := p.2, sources := if k = 0 then none else some (100, 7) }

theorem test_meets_MultiplyAndDivideResults_first : ∃ f, divisionOf (.div abc) = some (abc, f)
    ∧ coreReady abc { reads := [(4, false), (5, false)], writes := [.sreg 3] } (dividend 0 (0, 0)) = true
    ∧ (dividend 0 (0, 0)).me.readS 5 ≠ 0 ∧ dividing (.div abc) 100 7 0 (dividend 0 (0, 0)).me :=
  ⟨_, rfl, by decide, by decide, by unfold dividing; decide⟩

theorem test_meets_MultiplyAndDivideResults_last : dividing (.div abc) 100 7 11 (dividend 11 (2, 14)).me
    ∧ (dividend 11 (2, 14)).aboveLimit 3 14 := ⟨by unfold dividing; decide, by unfold State.aboveLimit; decide⟩

theorem test_div_last_step : ∃ t, exec (.div abc) (dividend 11 (2, 14)) = .next t ∧ t.me.readS 3 = 14 := ⟨_, rfl, by decide⟩

theorem test_meets_ZeroDivisorTraps : ∃ f, divisionOf (.rem abc) = some (abc, f)
    ∧ coreReady abc { reads := [(4, false), (5, false)], writes := [.sreg 3] } (onTile { s := [(4, 100)] }) = true
    ∧ (onTile { s := [(4, 100)] }).me.readS 5 = 0 ∧ (onTile { s := [(4, 100)] }).me.ust = 0
    ∧ (onTile { s := [(4, 100)] }).me.disposition 0x0B ≠ .report := ⟨_, rfl, by decide⟩

theorem test_meets_ZeroDivisorTraps_report :
    coreReady abc { reads := [(4, false), (5, false)], writes := [.sreg 3] } (onTile { s := [(4, 100)], disp := 0x0000000000800000 }) = true
    ∧ (onTile { s := [(4, 100)], disp := 0x0000000000800000 }).me.disposition 0x0B = .report := by decide

theorem test_meets_ZeroDivisorTraps_last :
    dividing (.divn abc) 100 0 11 (onTile { s := [(4, 100)], ust := 11, partial0 := 100, partial1 := 0, sources := some (100, 0) }).me
    ∧ (onTile { s := [(4, 100)] }).aboveLimit 3 0xFFFFFFFFFFFFFFFF := ⟨by unfold dividing; decide, by unfold State.aboveLimit; decide⟩

theorem test_meets_PredicateAndReadResults :
    coreReady abc { reads := [(4, false), (5, false)], writes := [.preg 3] } two = true
    ∧ comparison (2 : BitVec 5).toNat (two.me.readS 4) (two.me.readS 5) = some false
    ∧ comparison (6 : BitVec 5).toNat (two.me.readS 4) ((0xFFFFFF : BitVec 24).signExtend 64) = some true := by decide

theorem test_meets_PredicateAndReadResults_predicates : ∃ f, predicateOperation (.pand abc) = some (abc, f)
    ∧ coreReady abc { preds := [4, 5], writes := [.preg 3] } two = true
    ∧ coreReady abc { reads := [(4, false)], writes := (List.range 8).map fun i => .preg (0 + i) } two = true
    ∧ coreReady { abc with x := 1 } { reads := [(4, false)], writes := (List.range 8).map fun i => .preg (8 + i) } two = true :=
  ⟨_, rfl, by decide⟩

theorem test_meets_PredicateAndReadResults_reads :
    coreReady abc { preds := (List.range 8).map fun i => 0 + i, writes := [.sreg 3] } two = true
    ∧ coreReady { abc with x := 15 } { reads := [(4, false), (5, false)], writes := [.sreg 3], preds := [15] } two = true
    ∧ coreReady abc { writes := [.sreg 3] } two = true ∧ two.aboveLimit 3 (two.ctlRead 0 false 0) :=
  ⟨by decide, by decide, by decide, by unfold State.aboveLimit; decide⟩

theorem test_sel_false : ∃ t, exec (.sel { abc with x := 1 }) two = .next t ∧ t.me.readS 3 = 0xFFFFFFFFFFFFFFFF := ⟨_, rfl, by decide⟩

theorem test_mfc_tile : ∃ t, exec (.mfc { abc with imm := 0 }) { two with cur := { unit := 0, eng := 0 } } = .next t ∧ t.me.readS 3 = 0 :=
  ⟨_, rfl, by decide⟩

theorem test_meets_BranchResults : ∃ rs link target annul,
    branchOf (.bcmp { abc with x := 1, imm := 0x202 }) two = some ({ abc with x := 1, imm := 0x202 }, rs, link, target, annul)
    ∧ target = some 0x202 ∧ coreReady { abc with x := 1, imm := 0x202 } { reads := rs, writes := if link then [.sreg 1] else [] } two = true :=
  ⟨_, _, _, _, rfl, rfl, by decide⟩

theorem test_meets_BranchResults_link : ∃ rs link target annul, branchOf (.callr abc) two = some (abc, rs, link, target, annul)
    ∧ link = true ∧ coreReady abc { reads := rs, writes := if link then [.sreg 1] else [] } two = true :=
  ⟨_, _, _, _, rfl, rfl, by decide⟩

theorem test_meets_FalseGuardResults : guarded (.add { abc with g := true }) = some { abc with g := true } ∧ two.inExchange = false
    ∧ privileged (.add { abc with g := true }) = none ∧ two.me.pendingWrite (.preg 0) = false
    ∧ two.me.guardTrue { abc with g := true } = false := ⟨rfl, by decide, rfl, by decide, by decide⟩

theorem test_bna_false_annuls : ∃ t, exec (.bna { g := true, imm := 16 }) two = .next t ∧ t.me.queue.f0.annul = true
    ∧ t.me.queue.f1.annul = true ∧ t.me.queue.f2.annul = false := ⟨_, rfl, by decide⟩

theorem test_b_target : ∃ t, exec (.b { imm := 16 }) two = .next t ∧ t.me.queue.f0.pos = some 1 ∧ t.me.queue.f2.pos = some 16 :=
  ⟨_, rfl, by decide⟩

theorem test_meets_PrivilegedTraps : privileged (.bench abc) = some abc ∧ isSteward two.cur.unit = false := ⟨rfl, by decide⟩

theorem test_privileged_in_tile : ∃ t, exec (.bench abc) two = .next t ∧ t.me.cause = 0x1003 := ⟨_, rfl, by decide⟩

theorem test_meets_SourceAndLimitTraps : ∃ f, integerOperation (.sub { abc with d := 2 }) = some ({ abc with d := 2 }, f)
    ∧ coreReady { abc with d := 2 } { reads := [(4, false), (5, false)], writes := [.sreg 2] }
      (onTile { s := [(4, 7), (5, 1)], slim := 7 }) = true
    ∧ (f 7 1).toNat < 7 ∧ (onTile { s := [(4, 7), (5, 1)], slim := 7 }).me.disposition 0x06 ≠ .report
    ∧ (onTile { s := [(4, 7), (5, 1)], slim := 7, disp := 0x2000 }).me.disposition 0x06 = .report := ⟨_, rfl, by decide⟩

theorem test_meets_SourceAndLimitTraps_dead : ∃ f, integerOperation (.add abc) = some (abc, f)
    ∧ coreReady abc { reads := [(4, false), (5, false)], writes := [.sreg 3] }
      ((onTile { s := [(4, 7)], mode := 1, dead := 0x30 }).modMe fun x => { x with dead := 0 }) = true
    ∧ (onTile { s := [(4, 7)], mode := 1, dead := 0x30 }).me.mode.getLsbD 0 = true
    ∧ (onTile { s := [(4, 7)], mode := 1, dead := 0x30 }).me.disposition 0x09 ≠ .report
    ∧ (onTile { s := [(4, 7)], mode := 1, dead := 0x30 }).me.dead.getLsbD 4 = true := ⟨_, rfl, by decide⟩

theorem test_meets_TrapEntryAndReturn : (onTile { disp := 0 }).me.disposition 0x0B = .handle ∧ (onTile { disp := 0 }).me.inHandler = false := by
  decide

theorem test_meets_TrapEntryAndReturn_eret : coreReady {} {} (onTile { ebits := 8, epc := 40 }) = true
    ∧ (onTile { ebits := 8, epc := 40 }).me.inHandler = true ∧ (onTile { ebits := 8, epc := 40 }).me.epc.extractLsb' 0 23 ≠ noPos
    ∧ coreReady {} {} (onTile {}) = true ∧ (onTile {}).me.inHandler = false := by decide

theorem test_eret : ∃ t, exec (.eret {}) (onTile { ebits := 0x308, epc := 40, enpc := 41, ennpc := 8 }) = .next t
    ∧ t.me.queue.f0.pos = some 40 ∧ t.me.queue.f2.pos = some 8 ∧ t.me.ust = 3 ∧ t.me.inHandler = false := ⟨_, rfl, by decide⟩

theorem test_meets_SoftwareTraps : coreReady {} {} (onTile { disphi := 0 }) = true ∧ (onTile { disphi := 0 }).me.disposition 0x20 = .handle
    ∧ (onTile { disphi := 0 }).me.disposition 0x21 = .handle ∧ (onTile { disphi := 0 }).me.inHandler = false := by decide

theorem test_trap_handled : ∃ t, exec (.trap { imm := 5 }) (onTile { disphi := 0, tvec := 80 }) = .next t ∧ t.me.cause = 0x20
    ∧ t.me.info0 = 5 ∧ t.me.epc = 1 ∧ t.me.queue.f0.pos = some 80 := ⟨_, rfl, by decide⟩

theorem test_meets_ControlRegisterWrites : coreReady { abc with imm := 0x20 } { reads := [(5, false)] } two = true
    ∧ ctlMask 0x15 ≠ 0 ∧ ctlMask 0x30 ≠ 0 ∧ dispLegal 0x5555555555555555 = true ∧ dispLegal 0xFFFFFFFFFFFFFFFF = false := by decide

/-! ### Strips, phases, waiting (09 R261 to R264, 13, 14 R410) -/

/-- Tile 0 in job 5, which stands in the given phase. -/
def inJob (phase : Nat) (x : Ctx) : State :=
  { onTile { x with job := 5, life := .running } with jobs := [(0, { opened := true, id := 5, phase := phase })] }

theorem test_meets_StripControlResults : isSteward two.cur.unit = false ∧ coreReady { abc with x := 2, imm := 16 } { compute := true } two = true
    ∧ (two.me.strip 2).state ≠ 2 ∧ (two.me.strip 4).state ≠ 2
    ∧ coreReady { abc with x := 0x13 } { compute := true, reads := [(4, false)] } two = true
    ∧ coreReady { abc with x := 1 } {} two = true ∧ two.me.access.state ≠ 2 ∧ two.me.access.op = none := by decide

theorem test_meets_StripControlResults_start : ∃ s : State, s = onTile { access := { state := 1 }, writeback := { state := 3 } }
    ∧ isSteward s.cur.unit = false ∧ coreReady { abc with x := 9 } { compute := true } s = true
    ∧ (∀ k, k < 4 → (9 : BitVec 5).getLsbD k = true → (s.me.strip (k + 1)).state ≠ 0)
    ∧ coreReady { abc with x := 1 } { preds := [4] } s = true ∧ coreReady { abc with x := 0x14 } {} s = true :=
  ⟨_, rfl, by decide⟩

theorem test_meets_StripControlResults_steward : isSteward (onSteward {}).cur.unit = true
    ∧ coreReady abc {} (onSteward {}) = true ∧ coreReady abc { preds := [4] } (onSteward {}) = true := by decide

theorem test_sgo_arms : ∃ t, exec (.sgo { x := 9, imm := 0x200 }) two = .next t ∧ t.me.access.state = 1 ∧ t.me.access.pos = 0x200
    ∧ t.me.access.el = true := ⟨_, rfl, by decide⟩

theorem test_sstart_next : ∃ t, exec (.sstart { x := 1 }) { (onTile { access := { state := 1 } }) with cycle := 9 } = .next t
    ∧ t.me.access.state = 2 ∧ t.me.access.next = 11 := ⟨_, rfl, by decide⟩

theorem test_gset : ∃ t, exec (.gset { x := 0x11, d := 3, imm := 1 }) two = .next t ∧ t.me.access.guards = 9 := ⟨_, rfl, by decide⟩

theorem test_meets_PhaseAndWaitResults : coreReady { abc with imm := 3000 } {} two = true
    ∧ coreReady { abc with x := 1 } { reads := [(4, false)] } two = true ∧ isSteward two.cur.unit = false
    ∧ (inJob 0 {}).me.released = false ∧ (inJob 0 {}).me.atPhend = false ∧ (inJob 0 {}).me.pulseDue = false
    ∧ coreReady {} {} (inJob 0 {}) = true ∧ (inJob 0 { released := true }).me.released = true
    ∧ isSteward (onSteward {}).cur.unit = true ∧ coreReady {} {} (onSteward {}) = true := by decide

theorem test_phend_holds : ∃ t, exec (.phend {}) (inJob 0 {}) = .next t ∧ t.me.phend = true ∧ t.me.queue.f0.pos = some 0 :=
  ⟨_, rfl, by decide⟩

theorem test_phbud : ∃ t, exec (.phbud { imm := 3000 }) two = .next t ∧ t.me.budget = 3000 := ⟨_, rfl, by decide⟩

/-- WAITT completes in the cycle before the first edge at or after its time (13 R371): with time 0 and 20/17 ns a cycle, 1 ns ends
and 2 ns holds. -/
theorem test_meets_PhaseAndWaitResults_waits :
    ((onTile { s := [(4, 1)] }).me.readS 4).toNat * timePerNs ≤ (onTile { s := [(4, 1)] }).time + (onTile { s := [(4, 1)] }).timeStep
    ∧ (onTile { s := [(4, 2)] }).time + (onTile { s := [(4, 2)] }).timeStep < ((onTile { s := [(4, 2)] }).me.readS 4).toNat * timePerNs
    ∧ coreReady abc { reads := [(4, false)] } (onTile { s := [(4, 2)] }) = true := by decide

theorem test_meets_PhaseAndWaitResults_timeline : ∃ s : State, s = inJob 0 { s := [(5, 2)], tl := [(1, 2)] }
    ∧ coreReady { abc with x := 1 } { reads := [(4, false), (5, false)] } s = true ∧ (s.me.readS 4).toNat < 4096
    ∧ s.timelineView (s.me.readS 4).toNat 1 = .inl 2 ∧ s.timelineView (s.me.readS 4).toNat 0 = .inl 0
    ∧ (s.me.readS 5).toNat ≤ 2 ∧ 0 < (s.me.readS 5).toNat := ⟨_, rfl, by decide⟩

theorem test_meets_PhaseAndWaitResults_fences : coreReady {} {} two = true ∧ two.me.accesses = []
    ∧ (∀ e, 1 ≤ e → e ≤ 4 → (two.me.strip e).state = 0 ∨ (two.me.strip e).state = 1 ∨ (two.me.strip e).state = 4)
    ∧ (onTile { accesses := [.store 0 8 1 0] }).me.accesses ≠ [] :=
  ⟨by decide, by decide, fun e h g => by
    have : e = 1 ∨ e = 2 ∨ e = 3 ∨ e = 4 := by omega
    rcases this with h | h | h | h <;> subst h <;> decide, by decide⟩

theorem test_meets_PhaseAndWaitResults_signal : coreReady { abc with x := 1 } {} two = true ∧ (1 : BitVec 5).toNat % 16 < 4 ∧ two.me.ops = []
    ∧ two.me.storesOut = 0 ∧ (∀ e ∈ two.me.streams, e.2.state ≠ 2) := by decide

theorem test_meets_PhaseAndWaitResults_trace : coreReady abc { reads := [(4, false)] } two = true ∧ coreReady abc {} two = true
    ∧ (onTile { s := [(4, 0x4000000000000010)] }).me.readS 4 &&& 0x0000F8FF00000001 = 0 := by decide

theorem test_trace_trigger : ∃ t, exec (.traceTrig {}) (tileOf { trace := { ctl := 0x8000000000000000, head := 9 } }) = .next t
    ∧ t.here.trace.tidx = 9 ∧ t.here.trace.ctl = 0x4000000000000000 := ⟨_, rfl, by decide⟩

/-! ### Scalar floating point (03, 04 R121 to R123) -/

/-- FP32 2.0 and 3.0. -/
def floats2 : State := onTile { s := [(4, 0x40000000), (5, 0x40400000), (6, 0x3F800000)] }

theorem test_meets_RoundedFloatResults : ∃ rs v, roundedOperation (.fma { abc with x := 6 }) floats2 = some ({ abc with x := 6 }, rs, v)
    ∧ coreReady { abc with x := 6 } { reads := rs, writes := [.sreg 3], lat := 4 } floats2 = true
    ∧ floats2.me.roundMode { abc with x := 6 } = some 0 ∧ floats2.aboveLimit 3 0x40E00000 :=
  ⟨_, _, rfl, by decide, by decide, by unfold State.aboveLimit; decide⟩

theorem test_meets_RoundedFloatResults_made : ∃ rs v, roundedOperation (.fsub abc) (onTile { s := [(4, 0x7F800000), (5, 0x7F800000)], mode := 4 })
      = some (abc, rs, v)
    ∧ coreReady abc { reads := rs, writes := [.sreg 3], lat := 4 } (onTile { s := [(4, 0x7F800000), (5, 0x7F800000)], mode := 4 }) = true
    ∧ (fp32.round 0 0 v).made = true
    ∧ (onTile { s := [(4, 0x7F800000), (5, 0x7F800000)], mode := 4 }).me.mode.getLsbD 2 = true
    ∧ (onTile { s := [(4, 0x7F800000), (5, 0x7F800000)], mode := 4 }).me.disposition 0x0A ≠ .report := ⟨_, _, rfl, by decide⟩

theorem test_meets_RoundedFloatResults_mode : ∃ rs v, roundedOperation (.fadd { abc with imm := 10 }) floats2 = some ({ abc with imm := 10 }, rs, v)
    ∧ coreReady { abc with imm := 10 } { reads := rs, writes := [.sreg 3], lat := 4 } floats2 = true
    ∧ floats2.me.roundMode { abc with imm := 10 } = none := ⟨_, _, rfl, by decide⟩

/-- 2.0 times 3.0 plus 1.0 is 7.0, four cycles ahead. -/
theorem test_fma : ∃ t, exec (.fma { abc with x := 6 }) floats2 = .next t
    ∧ t.agenda = [(4, .pipelinedResultWrite 0 false (.sreg 3) 0x40E00000 0 0)] ∧ t.me.busy = [.sreg 3] := ⟨_, rfl, by decide⟩

theorem test_meets_ConversionResults : coreReady { abc with x := 10 } { reads := [(4, false)], writes := [.sreg 3], lat := 2 } floats2 = true
    ∧ floats2.me.roundMode { abc with x := 10 } = some 0 ∧ (fcvt 10 0x40000000 0 0 false).strict = false
    ∧ (fcvt 10 0x40000000 0 0 false).made = false ∧ floats2.aboveLimit 3 2 :=
  ⟨by decide, by decide, by decide, by decide, by unfold State.aboveLimit; decide⟩

theorem test_meets_ConversionResults_moved : ∃ rs v, movedOperation (.fmax abc) floats2 = some (abc, rs, v) ∧ v = 0x40400000
    ∧ coreReady abc { reads := rs, writes := [.sreg 3], lat := 2 } floats2 = true
    ∧ coreReady abc { reads := rs, writes := [.preg 3] } floats2 = true
    ∧ floatComparison { abc with x := 2 } (floats2.me.readS 4) (floats2.me.readS 5) = some true
    ∧ coreReady abc { writes := [.sreg 3], lat := 2 } floats2 = true := ⟨_, _, rfl, by decide⟩

theorem test_fcvt_to_int : ∃ t, exec (.fcvt { abc with x := 10 }) floats2 = .next t
    ∧ t.agenda = [(2, .pipelinedResultWrite 0 false (.sreg 3) 2 0 0)] := ⟨_, rfl, by decide⟩

theorem test_meets_SlowFloatResults : ∃ rs v dz n part, slowOperation (.fdiv abc) floats2 = some (abc, rs, v, dz, n, part)
    ∧ coreReady abc { reads := rs, writes := [.sreg 3] } floats2 = true ∧ floats2.me.roundMode abc = some 0
    ∧ (fp32.round 0 0 v).made = false ∧ floats2.me.ust = 0 := ⟨_, _, _, _, _, rfl, by decide⟩

theorem test_meets_SlowFloatResults_last : ∃ rs v dz n part s, s = onTile
      { s := [(4, 0x40000000), (5, 0x40400000)], ust := 9, sources := some (0x40000000, 0x40400000)
        partial0 := (fdivPartial fp32 (fp32.operand 0x40000000) (fp32.operand 0x40400000) 9).1
        partial1 := (fdivPartial fp32 (fp32.operand 0x40000000) (fp32.operand 0x40400000) 9).2 }
    ∧ slowOperation (.fdiv abc) s = some (abc, rs, v, dz, n, part) ∧ s.me.ust = n - 1 ∧ s.me.spoiled = false
    ∧ unchangedSources (.fdiv abc) abc s ∧ (s.me.partial0, s.me.partial1) = part (n - 1) :=
  ⟨_, _, _, _, _, _, rfl, rfl, by decide, by decide, by unfold unchangedSources; decide, by decide⟩

theorem test_meets_RoundingKeepsFormatValues : fp32 ∈ [fp64, fp32, bf16, fp16, e4m3, e5m2, e3m2, e2m3, e2m1]
    ∧ 0x80000001 < 2 ^ fp32.width ∧ fp32.isNan 0x80000001 = false ∧ 7 < 2 ^ e2m1.width ∧ e2m1.isNan 7 = false := by decide

/-! ### Loads and stores (07 R204 to R213, R224) -/

theorem test_meets_LoadAndStoreResults : ∃ s : State, s = onTile { s := [(4, 0x17FFF8)] }
    ∧ loadOf (.ld abc) s = some (abc, 0, 8, false, false)
    ∧ coreReady abc { reads := [(4, false)], writes := [.sreg 3], lat := 3 } s = true ∧ addressOf abc s % 8 = 0
    ∧ s.localFault 0 false (addressOf abc s) 8 = none ∧ s.sound (windowPA 0 0x17FFF8) 8 :=
  ⟨_, rfl, rfl, by decide, by decide, by decide, by unfold State.sound; decide⟩

theorem test_meets_LoadAndStoreResults_sibling : ∃ s : State, s = { (onTile {}) with
        units := [(0, { ctxA := { job := 5 } }), (3, { ctxA := { job := 5 }, banks := [(0, 0x10)] })] }
    ∧ loadOf (.ldx { abc with b := 3 }) s = some ({ abc with b := 3 }, 3, 8, false, false)
    ∧ coreReady { abc with b := 3 } { compute := true, reads := [(4, false)], writes := [.sreg 3], lat := 3 } s = true
    ∧ s.siblingFault 3 (addressOf { abc with b := 3 } s) 8 = false ∧ s.sound (windowPA 3 0) 8 :=
  ⟨_, rfl, rfl, by decide, by decide, by unfold State.sound; decide⟩

theorem test_meets_LoadAndStoreResults_pair : ∃ s : State, s = onTile { s := [(4, 0x17FFF0)] }
    ∧ loadOf (.ldp { abc with d := 2 }) s = some ({ abc with d := 2 }, 0, 16, false, true)
    ∧ coreReady { abc with d := 2 } { reads := [(4, false)], writes := [.sreg 2, .sreg 3], lat := 3 } s = true
    ∧ addressOf { abc with d := 2 } s % 16 = 0 ∧ s.localFault 0 false (addressOf { abc with d := 2 } s) 16 = none
    ∧ s.sound (windowPA 0 0x17FFF0) 16 :=
  ⟨_, rfl, rfl, by decide, by decide, by decide, by unfold State.sound; decide⟩

/-- A load into s2 keeps the core until its value has come (04 R102). -/
theorem test_load_into_s2 : ∃ t, exec (.ld { abc with d := 2 }) (onTile { s := [(4, 8)] }) = .next t ∧ t.me.late.isSome = true
    ∧ t.me.accesses = [.load 0 8 8 false false 2 0] := ⟨_, rfl, by decide⟩

theorem test_meets_LoadAndStoreResults_store : ∃ rs v, storeOf (.st { abc with x := 3 }) two = some ({ abc with x := 3 }, rs, 1, v)
    ∧ coreReady { abc with x := 3 } { reads := rs } two = true ∧ addressOf { abc with x := 3 } two % 1 = 0
    ∧ two.localFault 0 false (addressOf { abc with x := 3 } two) 1 = none ∧ two.sound (windowPA 0 7) 1 :=
  ⟨_, _, rfl, by decide, by decide, by decide, by unfold State.sound; decide⟩

theorem test_meets_LoadAndStoreResults_bank : bankStoreLegal false 8 ((0xB410 : BitVec 128).setWidth 64) = true
    ∧ (onTile { s := [(4, 0x2D0008), (5, 0xB410)] }).localFault 0 false 0x2D0008 8 = none := by decide

theorem test_meets_AddressTraps : two.flips = [] ∧ coreReady abc { reads := [(4, false)], writes := [.sreg 3], lat := 3 } two = true
    ∧ loadOf (.ld abc) two = some (abc, 0, 8, false, false) ∧ addressOf abc two % 8 ≠ 0
    ∧ (onTile { s := [(4, 0x180000)] }).localFault 0 false 0x180000 8 = some 0x08 := by decide

theorem test_load_misaligned : ∃ t, exec (.ld abc) two = .next t ∧ t.me.cause = 0x1007 ∧ t.me.info0 = 7 := ⟨_, rfl, by decide⟩

theorem test_meets_AccessesMoveTheirBytes : ∃ s : State,
    s = { (onTile { accesses := [.store 0x17FFF8 8 0x1122334455667788 0, .load 0 8 4 true false 3 0] }) with cycle := 1 }
    ∧ (s.ctx 0 false).accesses = .store 0x17FFF8 8 0x1122334455667788 0 :: [.load 0 8 4 true false 3 0] ∧ 0 < s.cycle
    ∧ isBank 0 0x17FFF8 = true ∧ (s.tile 0).granted.contains (bankOf 0x17FFF8) = false ∧ Memory.wf s.mem = true :=
  ⟨_, rfl, by decide⟩

theorem test_meets_AccessesMoveTheirBytes_load : ∃ s : State,
    s = { (onTile { accesses := [.load 0 0x17FFF0 16 false true 4 0] }) with cycle := 1 }
    ∧ (s.ctx 0 false).accesses = .load 0 0x17FFF0 16 false true 4 0 :: [] ∧ 0x17FFF0 + 16 ≤ scratchSize 0
    ∧ (s.tile 0).granted.contains (bankOf 0x17FFF0) = false := ⟨_, rfl, by decide⟩

theorem test_store_bytes : readBytes (State.serveAccess { (onTile { accesses := [.store 8 8 0x1122334455667788 0] }) with cycle := 1 } 0 false).mem
    (windowPA 0 8) 2 = 0x7788 := by decide

theorem test_pipelined_write : ∃ t, exec (.pipelinedResultWrite 0 false (.sreg 3) 9 4 0) (onTile { busy := [.sreg 3] }) = .next t
    ∧ t.me.readS 3 = 9 ∧ t.me.busy = [] ∧ t.me.fpend = 4 := ⟨_, rfl, by decide⟩

theorem test_meets_PipelinedResultsLand : (15 : Nat) < 16 ∧ (1 : Nat) ≤ 4 ∧ (4 : Nat) ≤ 4 := by decide

/-! ### Jobs, gangs, tasks (11), the steward's memory (07 R222, 08 R257, 12) -/

/-- Tables that map virtual page 0 of 8 MiB to physical 0x80_0000 with every permission (12 R344 to R346); a task record of one tile
with image 0x1000 at virtual 0, and that image's header (11 R327, R330). -/
def gangMem (modules : Nat) : List Host.Cell :=
  writeBytes (writeBytes (writeBytes (writeBytes [] 0x10000 8 0x8000000000040000) 0x40000 8 0xBE00000000800000) 0x800000 64
      (0x1000 + 2 ^ 128 + 2 ^ 136 + modules * 2 ^ 144 + 0xFFD * 2 ^ 308 + 0xFFD * 2 ^ 372 + 0xFFD * 2 ^ 436 + 0xFFD * 2 ^ 500))
    0x801000 20 (1 + 2 ^ 128 + 2 ^ 136)

/-- The task record of `gangMem`. -/
def task (modules : Nat) : BitVec 1024 := BitVec.ofNat 1024 (0x1000 + 2 ^ 128 + 2 ^ 136 + modules * 2 ^ 144 + 0xFFD * 2 ^ 308
  + 0xFFD * 2 ^ 372 + 0xFFD * 2 ^ 436 + 0xFFD * 2 ^ 500)

/-- Steward 768 of a module with job 5 open and one ready record in queue 0. -/
def gangs (modules : Nat) (x : Ctx) : State :=
  { onSteward x with
    mem := gangMem modules
    jobs := [(0, { opened := true, id := 5, root0 := 0x8000000000010000, root1 := 5 })]
    queues := [(0, { tail := 1, size := 4, job := 5, recs := [(0, .waiting, some 0)] })] }

theorem test_meets_PlacementResults : stewardReady abc 16 [(4, false), (5, false)] (onSteward { s := [(4, 0xFFFFF), (5, 0x11F1F)] })
    ∧ (∀ e ∈ (onSteward {}).readyRecords, ¬ (e.1 = 15 ∧ e.2.1 % 65536 = 0xFFFF)) ∧ bits 0x11F1F 5 3 = 0 ∧ bits 0x11F1F 13 3 = 0 :=
  ⟨by unfold stewardReady; decide +kernel, by decide +kernel⟩

theorem test_meets_PlacementResults_record :
    (gangs 1 {}).readyRecords.find? (fun e => e.1 == 0 && e.2.1 % 65536 == 0) = some (0, 0, 0)
    ∧ (match (gangs 1 {}).recordOf ((gangs 1 {}).queue 0) 0 with
        | .task t => t == task 1
        | _ => false) = true
    ∧ (gangs 1 {}).jobSlot ((gangs 1 {}).queue 0).job = some 0 ∧ ({ gangs 1 {} with jobs := [] }).jobSlot 5 = none
    ∧ (gangs 1 {}).freePlacement = some 0
    ∧ ({ gangs 1 {} with placed := (List.range 64).map fun p => (p, { state := 1 }) }).freePlacement = none := by decide +kernel

theorem test_meets_PlacementResults_region : (gangs 1 {}).regionStatus (task 1) false 23 31 false = none
    ∧ (gangs 1 {}).regionStatus (task 1) false 24 31 false = some 2 ∧ (gangs 1 {}).regionStatus (task 1) false 23 31 true = some 2 := by
  decide +kernel

/-- The same module with entry 9 PLACED. -/
def placed9 : State := (gangs 1 { s := [(4, 9)] }).place 9 0 0 (task 1) 0 0 false

theorem test_meets_PlacementResults_launch : stewardReady abc 16 [(4, false)] placed9 ∧ (placed9.me.readS 4).toNat < 64
    ∧ (placed9.placement 9).state = 1 ∧ (placed9.placement 8).state ≠ 1 ∧ (placed9.launch 9 0).2 = none ∧ placed9.flips = [] :=
  ⟨by unfold stewardReady; decide +kernel, by decide +kernel⟩

theorem test_meets_PlacementResults_launch_fault : ({ placed9 with mem := [] }.launch 9 0).2.isSome = true := by decide +kernel

theorem test_meets_PlacementResults_select : stewardReady abc 16 [] (gangs 1 {}) ∧ (gangs 1 {}).poisonedRecord = none
    ∧ selectable { gangs 1 {} with queues := [] } = [] ∧ selectable (gangs 1 {}) = [(0, 0, 0, task 1)] ∧ taskModules (task 1) ≤ 1
    ∧ regionFor (gangs 1 {}) (0, 0, 0, task 1) = some (0, 0) ∧ (((gangs 1 {}).place 0 0 0 (task 1) 0 0 false).launch 0 0).2 = none :=
  ⟨by unfold stewardReady; decide +kernel, by decide +kernel⟩

theorem test_meets_PlacementResults_select_modules : selectable (gangs 2 {}) = [(0, 0, 0, task 2)] ∧ 1 < taskModules (task 2) := by decide +kernel

/-- No region is left for the task when every tile is benched. -/
theorem test_meets_PlacementResults_select_none : regionFor { gangs 1 {} with bench := BitVec.allOnes 768 } (0, 0, 0, task 1) = none := by
  decide +kernel

theorem test_meets_PlacementResults_effects : taskLegal (task 1) = true ∧ 23 < 24 ∧ 31 < 32 := by decide +kernel

theorem test_place_takes_region : (placed9.placement 9).state = 1 ∧ (placed9.ctx 0 false).life = .placed
    ∧ (placed9.queue 0).recs = [(0, .held, some 0)] := by decide +kernel

/-- A steward whose data memory holds `v` at 0. -/
def asks (n v : Nat) (s : State) : State := { s with mem := writeBytes s.mem (windowPA 768 0) n v }

theorem test_meets_JobInstructionResults : stewardReady abc 16 [(4, false)] (asks 4 7 (gangs 1 {}))
    ∧ requestReady (asks 4 7 (gangs 1 {})) 0 64 16
    ∧ (afterRequest ((asks 4 7 (gangs 1 {})).marked [(4, false)]) 0).windowRead 768 0 64 = 7 ∧ entryLegal 7 = true ∧ entryLegal 0 = false
    ∧ (asks 4 7 (gangs 1 {})).jobSlot 7 = none ∧ (asks 4 7 (gangs 1 {})).slotFor 7 = some 1 ∧ entryField 7 32 8 = 0 :=
  ⟨by unfold stewardReady; decide +kernel, by unfold requestReady State.sound; decide +kernel, by decide +kernel⟩

/-- Job 5 not open yet, its tables set; a job entry of it whose first task is at virtual 0. -/
def opening : State := { gangs 1 {} with jobs := [(0, { root0 := 0x8000000000010000, root1 := 5 })] }

theorem test_meets_JobInstructionResults_first :
    (match ((asks 4 5 opening).readJob 768 5 { agent := 0x600, phase := 0 } [] .read 2 0 128).2 with
      | .inr (t, 0) => BitVec.ofNat 1024 t == task 1
      | _ => false) = true
    ∧ (match opening.append (opening.actor 768 false) (task 1) 5 false 0 with
      | .done _ n => n == 1
      | _ => false) = true
    ∧ entryField (5 + 2 ^ 256) 32 8 ≠ 0 ∧ entryLegal (5 + 2 ^ 256) = true := by decide +kernel

theorem test_meets_JobInstructionResults_timed : entryLegal (5 + 2 ^ 48 + 4000 * 2 ^ 128) = true ∧ entryField (5 + 2 ^ 48 + 4000 * 2 ^ 128) 6 1 = 1
    ∧ opening.servo.lock = false
    ∧ ({ opening with jobs := (List.range 8).map fun j => (j, { opened := true, id := BitVec.ofNat 32 (j + 20) }) }).slotFor 5 = none := by decide +kernel

theorem test_meets_JobInstructionResults_replay : ∃ s : State, s = { gangs 1 { s := [(4, 5)] } with
        jobs := [(0, { opened := true, id := 5, valid := true, runState := 1 })] }
    ∧ stewardReady abc 16 [(4, false)] s ∧ (s.me.readS 4).toNat < 2 ^ 32 ∧ s.jobSlot 5 = some 0 ∧ replayable s 0
    ∧ ¬ replayable (gangs 1 {}) 0 :=
  ⟨_, rfl, by unfold stewardReady; decide +kernel, by decide +kernel, by decide +kernel, by unfold replayable; decide +kernel, by unfold replayable; decide +kernel⟩

theorem test_meets_JobInstructionResults_switch : coreReady abc { privileged := true, reads := [(4, false)] } (gangs 1 {}) = true
    ∧ requestReady (asks 32 (5 + 3 * 2 ^ 64 + 4096 * 2 ^ 128) (gangs 1 {})) 0 32 16 ∧ (gangs 1 {}).jobSlot 5 = some 0
    ∧ ((gangs 1 {}).job 0).armed = none ∧ entryField (5 + 3 * 2 ^ 64 + 4096 * 2 ^ 128) 16 8 ≠ 0
    ∧ entryField (5 + 3 * 2 ^ 64 + 4096 * 2 ^ 128) 4 4 = 0 :=
  ⟨by decide +kernel, by unfold requestReady State.sound; decide +kernel, by decide +kernel⟩

/-- Entry 9 in use by a parked gang of tile 0; a request to save it at virtual 0x2000. -/
def saves : State :=
  (asks 16 (9 + 0x2000 * 2 ^ 64) (placed9.modPlacement 9 fun e => { e with state := 5 })).modCtx 0 false (fun x => { x with life := .parked }) |>.modMe
    fun x => { x with s := [] }

theorem test_meets_ContextMoveResults : stewardReady abc 16 [(4, false)] saves
    ∧ requestReady saves 0 16 16 ∧ 3 ≤ (saves.placement 9).state ∧ saves.maySave (saves.placement 9) = true ∧ (saves.placement 9).saving = false
    ∧ (placed9.placement 9).state < 3 ∧ (saves.modCtx 0 false fun x => { x with life := .running }).maySave (saves.placement 9) = false
    ∧ bits (9 + 0x2000 * 2 ^ 64) 12 3 = 0 ∧ entryField (9 + 0x2000 * 2 ^ 64) 8 8 % 4096 = 0 :=
  ⟨by unfold stewardReady; decide +kernel, by unfold requestReady State.sound; decide +kernel, by decide +kernel⟩

/-- A save area at virtual 0x2000: the task, its signature at the origin (0, 0), job 5. -/
def loads : State :=
  { gangs 1 {} with mem := writeBytes (gangMem 1) 0x802000 140 ((task 1).toNat + (signature (task 1) 0 0).toNat * 2 ^ 1024 + 5 * 2 ^ 1088) }

theorem test_meets_ContextMoveResults_load : loads.savedAt 768 0x2000 = some (5, task 1, signature (task 1) 0 0)
    ∧ loads.savedAt 768 0x3000 = none ∧ loads.regionStatus (task 1) false 0 0 false = none ∧ loads.freePlacement = some 0
    ∧ signature (task 1) 1 0 ≠ signature (task 1) 0 0 ∧ signature (task 1) 4 0 = signature (task 1) 0 0
    ∧ loads.regionStatus (task 1) false 0 0 true = some 2 := by decide +kernel

theorem test_meets_TaskInstructionResults : isSteward (inJob 0 {}).cur.unit = false ∧ coreReady {} {} (inJob 0 {}) = true
    ∧ (∀ e, 1 ≤ e → e ≤ 4 → ((inJob 0 {}).me.strip e).state = 0) ∧ (inJob 0 {}).me.streams = []
    ∧ ((inJob 0 { access := { state := 2 } }).me.strip 1).state = 2 ∧ ((inJob 0 { vector := { state := 5 } }).me.strip 3).state = 5 :=
  ⟨by decide +kernel, by decide +kernel, fun e h g => by
    have : e = 1 ∨ e = 2 ∨ e = 3 ∨ e = 4 := by omega
    rcases this with h | h | h | h <;> subst h <;> rfl, by decide +kernel⟩

/-- Tile 0 in job 5 with a task record at 0 and queue 0 of its job. -/
def spawns (job : BitVec 32) (recs : List (Nat × RecordState × Option Nat)) : State :=
  { inJob 0 {} with
    mem := writeBytes (gangMem 1) (windowPA 0 0) 128 (task 1).toNat
    jobs := [(0, { opened := true, id := 5, root0 := 0x8000000000010000, root1 := 5 })]
    queues := [(0, { size := 1, job := job, recs := recs })] }

theorem test_meets_TaskInstructionResults_spawn : coreReady abc { reads := [(4, false)], writes := [.sreg 3], lat := 8 } (spawns 5 []) = true
    ∧ requestReady (spawns 5 []) 0 128 64 ∧ BitVec.ofNat 1024 ((spawns 5 []).windowRead 0 0 128) = task 1 ∧ taskLegal (task 1) = true
    ∧ taskLegal (task 0) = false ∧ ((inJob 0 {}).queue (taskQueue (task 1))).size = 0
    ∧ ((spawns 6 []).queue (taskQueue (task 1))).job ≠ (spawns 6 []).me.jobId
    ∧ ((spawns 5 [(0, .waiting, none)]).queue 0).size ≤ ((spawns 5 [(0, .waiting, none)]).queue 0).recs.length :=
  ⟨by decide +kernel, by unfold requestReady State.sound; decide +kernel, by decide +kernel, by decide +kernel⟩

theorem test_meets_TaskInstructionResults_append :
    (match (spawns 5 []).append ((spawns 5 []).actor 0 false) (task 1) 5 false 0 with
      | .done _ n => n == 0
      | _ => false) = true
    ∧ (match (spawns 5 []).ringPlace ((spawns 5 []).queue 0) 0 .write with
      | .inr p => !p.tracked && decide (p.pa < 2 ^ 40)
      | .inl _ => false) = true := by decide +kernel

theorem test_meets_StewardResults : coreReady abc { privileged := true, reads := [(4, false)] } (onSteward { s := [(4, 0x40)] }) = true
    ∧ 0x40 % 64 = 0 ∧ 0x41 % 64 ≠ 0 ∧ (onSteward {}).monitorFault 0x40 = none ∧ (onSteward {}).monitorFault (2 ^ 40) = some 1
    ∧ (onSteward { s := [(4, 0x40)], hold := some 0 }).me.hold = some 0 ∧ (onSteward {}).flips = [] ∧ Memory.wf (onSteward {}).mem = true := by
  decide +kernel

theorem test_meets_StewardResults_mwait : (onSteward {}).here.lmon.line = none ∧ (∃ s : State,
    s = { onSteward {} with units := [(768, { started := true, lmon := { line := some 0x40, wake := some 3 } })] }
    ∧ s.here.lmon.line = some 0x40 ∧ s.here.lmon.wake = some 3) ∧ ∃ s : State,
    s = { onSteward {} with units := [(768, { started := true, lmon := { line := some 0x40 } })] }
    ∧ coreReady abc { privileged := true, reads := [(4, false)] } s = true ∧ s.here.lmon.line = some 0x40 ∧ s.here.lmon.wake = none
    ∧ s.here.lmon.asleep = false ∧ s.me.readS 4 = 0 := ⟨by decide +kernel, ⟨_, rfl, by decide +kernel⟩, ⟨_, rfl, by decide +kernel⟩⟩

theorem test_meets_StewardResults_invalidate : coreReady { abc with x := 1 } { privileged := true, reads := [(4, false), (5, false)] } (gangs 1 { s := [(5, 5)] }) = true
    ∧ requestReady (asks 32 (0x50000 * 2 ^ 64) (gangs 1 { s := [(5, 5)] })) 0 32 32 ∧ (gangs 1 {}).me.hold = none
    ∧ (gangs 1 {}).jobSlot 5 = some 0 ∧ (gangs 1 {}).invalidationLegal 1 (0x50000 * 2 ^ 64) = true ∧ (gangs 1 {}).shadows.find 0 = none
    ∧ (gangs 1 {}).rootOf 5 = some (0, 0x10000) ∧ (gangs 1 {}).ownPA (bits (0x50000 * 2 ^ 64) 64 64) < 2 ^ 40 :=
  ⟨by decide +kernel, by unfold requestReady State.sound; decide +kernel, by decide +kernel⟩

theorem test_meets_StewardResults_bench : coreReady abc { privileged := true, reads := [(4, false)] } (onSteward { s := [(4, 767)] }) = true
    ∧ ((onSteward { s := [(4, 767)] }).me.readS 4).toNat < 768 ∧ 768 ≤ ((onSteward { s := [(4, 768)] }).me.readS 4).toNat := by decide +kernel

theorem test_meets_StewardResults_errinj : coreReady { abc with x := 1 } { privileged := true, reads := [(4, false), (5, false)] } (onSteward {}) = true
    ∧ namesArrayWord (windowPA 0 8) = true ∧ namesArrayWord (windowPA 784 8) = false ∧ windowPA 0 8 % 8 = 0
    ∧ (onSteward {}).flips.find (windowPA 0 8) = none ∧ (onSteward { hold := some 3 }).me.hold = some 3 := by decide +kernel

theorem test_meets_WhistleInstructionResults : ∃ s : State, s = gangs 1 { s := [(4, 5), (5, 4000)] }
    ∧ coreReady abc { privileged := true, reads := [(4, false)] } s = true ∧ (s.me.readS 4).toNat < 2 ^ 32
    ∧ s.jobSlot ((s.me.readS 4).setWidth 32) = some 0 ∧ (s.job 0).valid = false ∧ 4000 ≤ (s.me.readS 5).toNat + s.ns :=
  ⟨_, rfl, by decide +kernel⟩

theorem test_meets_WhistleInstructionResults_release : ∃ s : State, s = { gangs 1 { s := [(4, 5), (5, 4000)] } with
        jobs := [(0, { opened := true, id := 5, valid := true, settled := true, runState := 1 })] }
    ∧ coreReady abc { privileged := true, reads := [(4, false), (5, false)] } s = true ∧ (s.job 0).valid = true ∧ (s.job 0).settled = true
    ∧ (s.job 0).runState = 1 ∧ s.ns + 4000 ≤ (s.me.readS 5).toNat ∧ (s.me.readS 5).toNat ≤ s.ns + 2 ^ 32 ∧ (s.me.readS 5).toNat < 2 ^ 32 :=
  ⟨_, rfl, by decide +kernel⟩

theorem test_meets_WhistleInstructionResults_step : ∃ s : State, s = { onSteward { s := [(4, 0)] } with
        units := [(0, { ctxA := { frozen := true, access := { state := 3 } } }), (768, { started := true })] }
    ∧ coreReady abc { privileged := true, reads := [(4, false)] } s = true ∧ s.mayStep 0 = true ∧ s.mayStep 0x1000 = true
    ∧ s.mayStep 0x2000 = false ∧ s.mayStep 768 = false := ⟨_, rfl, by decide +kernel⟩

theorem test_meets_CircuitAndCounterResults : coreReady abc { reads := [(4, false)], writes := [.sreg 3] } two = true
    ∧ requestReady two 0 16 16
    ∧ ((onTile {}).me.handles.look {} 0).state = 0 ∧ requestLegal (2 ^ 40 + 2 ^ 96) = true ∧ requestLegal 0 = false :=
  ⟨by decide +kernel, by unfold requestReady State.sound; decide +kernel, by decide +kernel⟩

theorem test_meets_CircuitAndCounterResults_full : ∃ s : State, s = onTile { handles := (List.range 16).map fun h => (h, { state := h % 4 + 1 }) }
    ∧ (∀ h, h < 16 → (s.me.handles.look {} h).state ≠ 0)
    ∧ (s.me.handles.look {} 0).state = 1 ∧ (s.me.handles.look {} 1).state = 2 ∧ (s.me.handles.look {} 2).state = 3
    ∧ (s.me.handles.look {} 15).state = 4 ∧ s.here.runsOf (.handle s.bank 15) = []
    ∧ coreReady abc { reads := [(4, false), (5, false)] } s = true := ⟨_, rfl, by decide +kernel⟩

/-- With a destination above s2 the ready condition does not depend on the latency that the route unit takes. -/
theorem test_meets_CircuitAndCounterResults_routes (n : Nat) : coreReady abc { reads := [(4, false)], writes := [.sreg 3], lat := n } (onTile {}) = true
    ∧ (onTile {}).routeDenied 3 = false ∧ (inJob 0 {}).routeDenied 0 = true :=
  ⟨by simp [coreReady]; decide +kernel, by decide +kernel, by decide +kernel⟩

theorem test_meets_CircuitAndCounterResults_meters : paramLegal 2 15 = true ∧ paramLegal 2 16 = false
    ∧ coreReady { abc with x := 2 } { privileged := true, reads := [(4, false), (5, false)] } (onSteward { s := [(4, 1024), (5, 15)] }) = true
    ∧ coreReady abc { reads := [(4, false)], writes := [.sreg 3], lat := 2 } (onTile { s := [(4, 15)] }) = true
    ∧ monitorLegal false 0x4 = true ∧ monitorLegal true 0x1109 = true ∧ monitorLegal false 9 = false := by decide +kernel

/-! ### Strips: vector, matrix, access, writeback (05, 06, 07 R225 to R227, 09) -/

/-- Tile 0 with engine `e` to act. -/
def onStrip (e : Nat) (x : Ctx) (t : Tile := {}) : State :=
  { State.reset with power := true, units := [(0, { t with ctxA := x })], cur := { unit := 0, eng := e } }

/-- v1 and v2 hold 1.0 and 2.0 in lane 191, and m1 selects that lane. -/
def lane191 : State :=
  onStrip 3 { v := [(1, 0x3F800000#6144 <<< 6112), (2, 0x40000000#6144 <<< 6112)], m := [(1, BitVec.twoPow 192 191)] }

/-- VADD.f32 v0, v1, v2 under m1. -/
def sum12 : VRForm := { d := 0, a := 1, b := 2, m := 1, t := 2 }

theorem ready_vector (p : VectorSpec)
    (hp : p = (arithOp {} sum12 Val.add (· + ·)).spec) : VectorReady {} p 0 (BitVec.twoPow 192 191) lane191 := by
  subst hp
  exact { phase := by decide, strip := by unfold stripReady; decide, bound := by decide, rounds := by decide, legal := by decide
          inputs := by decide, output := by decide, landed := by decide, live := by decide
          target := fun n _ _ => by show (0 : BitVec 56).getLsbD n = false; simp
          correct := rfl, sound := by decide }

theorem test_meets_VectorElementResults : elementOp (.vadd {} sum12) = some (arithOp {} sum12 Val.add (· + ·))
    ∧ BitVec.twoPow 192 191 = lane191.me.mask 1 ∧ VectorReady {} (arithOp {} sum12 Val.add (· + ·)).spec 0 (BitVec.twoPow 192 191) lane191
    ∧ ∀ l e, (BitVec.twoPow 192 191).getLsbD l = true → e < 32 / (arithOp {} sum12 Val.add (· + ·)).width →
        lane191.me.stops ((arithOp {} sum12 Val.add (· + ·)).result lane191 0 l e) = false := by
  refine ⟨rfl, by decide, ready_vector _ rfl, fun l e hl he => ?_⟩
  have hl : l = 191 := by
    rw [BitVec.getLsbD_twoPow] at hl
    simp only [Bool.and_eq_true, decide_eq_true_eq] at hl
    omega
  have he : e = 0 := by
    have : 32 / (arithOp {} sum12 Val.add (· + ·)).width = 1 := by decide
    omega
  subst hl he
  decide +kernel

/-- 1.0 + 2.0 in lane 191 lands four cycles later. -/
theorem test_vadd : ∃ t, exec (.vadd {} sum12) lane191 = .next t
    ∧ t.agenda = [(4, .vectorResultLands 0 false (.vreg 0) (BitVec.twoPow 192 191) (0x40400000#6144 <<< 6112) 0 0 0)] :=
  ⟨_, rfl, by decide +kernel⟩

theorem test_meets_VectorLaneResults : ∃ op, laneOp (.vand {} sum12) = some op ∧ op.spec = (arithOp {} sum12 Val.add (· + ·)).spec
    ∧ BitVec.twoPow 192 191 = lane191.me.mask op.spec.m &&& op.only ∧ VectorReady {} op.spec 0 (BitVec.twoPow 192 191) lane191 :=
  ⟨_, rfl, rfl, by decide, ready_vector _ rfl⟩

theorem test_meets_VectorLaneResults_mailbox : ∃ p : VectorSpec, p = { viA { d := 3, a := 1, m := 1, imm := 191 } with target := .mailbox 3 }
    ∧ BitVec.twoPow 192 191 = lane191.me.mask p.m &&& BitVec.twoPow 192 191
    ∧ VectorReady {} p 0 (BitVec.twoPow 192 191) lane191 :=
  ⟨_, rfl, by decide,
    { phase := by decide, strip := by unfold stripReady; decide, bound := by decide, rounds := by decide, legal := by decide
      inputs := by decide, output := by decide, landed := by decide, live := by decide
      target := fun n h _ => by cases h
      correct := rfl, sound := by decide }⟩

theorem test_meets_VectorLaneResults_bind : (onStrip 3 {}).inExchange = false ∧ stripReady {} (onStrip 3 {}) ∧ 0x38 ≤ (0x3F : BitVec 6).toNat :=
  ⟨by decide, by unfold stripReady; decide, by decide⟩

/-- A whole-lane source with every mask: no lane active for VRARG, lane 191 alone for the others. -/
theorem ready_one (on : LaneMask) (m : Nat) (_ : m = 1 ∨ m = 2) (lat : Nat) :
    VectorReady {} (vrA { d := 0, a := 1, m := BitVec.ofNat 3 m } lat) 0 on lane191 :=
  { phase := by decide, strip := by unfold stripReady; decide, bound := rfl, rounds := rfl, legal := by decide
    inputs := rfl, output := rfl, landed := rfl, live := fun h => absurd h (by decide)
    target := fun n _ _ => by show (0 : BitVec 56).getLsbD n = false; simp
    correct := rfl, sound := rfl }

theorem test_meets_VectorLaneResults_reduction : ∃ r, reduceOp (.vrmax {} { d := 0, a := 1, m := 1 }) = some r ∧ r.rounds = false
    ∧ VectorReady r.head r.spec 0 (BitVec.twoPow 192 191) lane191 := by
  refine ⟨_, rfl, rfl, ?_⟩
  exact { phase := by decide, strip := by unfold stripReady; decide, bound := rfl, rounds := rfl, legal := by decide
          inputs := rfl, output := rfl, landed := rfl, live := by decide
          target := fun n _ _ => by show (0 : BitVec 56).getLsbD n = false; simp
          correct := rfl, sound := rfl }

theorem test_meets_VectorLaneResults_least : (BitVec.twoPow 192 191).getLsbD 191 = true
    ∧ (∀ l, (BitVec.twoPow 192 191).getLsbD l = true →
        ¬ outranks 0 false (lane (nthRow (operandRows (vrA { d := 0, a := 1, m := 1 } 12) lane191) 0) l)
          (lane (nthRow (operandRows (vrA { d := 0, a := 1, m := 1 } 12) lane191) 0) 191))
    ∧ ∀ l, l < 191 → (BitVec.twoPow 192 191).getLsbD l = false := by
  refine ⟨by decide, fun l hl => ?_, fun l hl => ?_⟩
  · have : l = 191 := by
      rw [BitVec.getLsbD_twoPow] at hl
      simp only [Bool.and_eq_true, decide_eq_true_eq] at hl
      omega
    subst this
    unfold outranks
    decide +kernel
  · rw [BitVec.getLsbD_twoPow]
    simp
    omega

theorem test_meets_VectorLaneResults_scan : floats 2 = true ∧ floats 0 = false
    ∧ VectorReady {} (vrA { d := 0, a := 1, m := 1 } 12 (highRound { d := 0, a := 1, m := 1, t := 2 })) 0 (BitVec.twoPow 192 191) lane191
    ∧ lane191.me.mask 2 = 0 ∧ VectorReady {} (vrA { d := 0, a := 1, m := 2 } 12) 0 0 lane191 :=
  ⟨by decide, by decide, ready_one _ 1 (.inl rfl) 12, by decide, ready_one _ 2 (.inr rfl) 12⟩

theorem test_meets_VectorIssueAndLanding : (onStrip 3 {}).cur.eng = 3 ∧ (onStrip 3 {}).me.bound 0 = some 1
    ∧ ∃ s : State, s = onStrip 3 {} { fifos := [(3, { entries := [{ row := 1 }, { row := 0, ready := 0, filled := false }] })] }
      ∧ (s.fifo 0 3).entries = [{ row := 1 }] ++ { row := 0, ready := 0, filled := false } :: [] ∧ s.cycle = 0 :=
  ⟨rfl, by decide, _, rfl, rfl, rfl⟩

/-- The matrix strip with an entry of ones in FIFO 0 and a slot of E4M3 weights. -/
def multiplies : State :=
  onStrip 2 { mode := 0 } { fifos := [(0, { entries := [{ row := 0x38#6144 }] })], latch0 := { tag := 1 }, acc := [(127, 0x3F800000#6144)] }

theorem test_meets_MatrixMultiplyResults : ∃ h o per sparse zero, multiplyOp (.mma {} { row := 127, cnt := 0 }) = some (h, o, per, sparse, zero)
    ∧ multiplies.cur.eng = 2 ∧ manyReady h 1 multiplies ∧ multiplies.strip.ust < 1 ∧ multiplies.here.wload.rest = false
    ∧ tagFits (multiplies.here.latch 0).tag o sparse = true
    ∧ (∀ j ∈ rowsNow o multiplies, o.row.toNat + j ∉ multiplies.here.accBusy
        ∧ multiplies.sound (windowPA 0 (0x260000 + 0x300 * (o.row.toNat + j))) 768)
    ∧ multiplies.sound (windowPA 0 0x290000) 0x2D00 ∧ consumes multiplies 0 { row := 0x38#6144 } ∧ multiplies.me.mode.getLsbD 2 = false :=
  ⟨_, _, _, _, _, rfl, rfl, by unfold manyReady mayStep; decide, by decide, rfl, by decide,
    by unfold State.sound; decide +kernel, by unfold State.sound; decide +kernel,
    ⟨rfl, .inr ⟨rfl, by decide, by unfold uninjured; decide, [], rfl⟩⟩, rfl⟩

/-- With the slot's values zero, the accumulator comes back ten cycles later. -/
theorem test_mma_keeps_accumulator : ∃ t, exec (.mma {} { row := 127, cnt := 0 }) multiplies = .next t
    ∧ (match t.agenda with
      | [(10, .accumulatorEntry 0 127 r)] => lane r 0 == 0x3F800000
      | _ => false) = true := ⟨_, rfl, by decide +kernel⟩

theorem test_meets_MatrixRowResults : (onStrip 2 {}).cur.eng = 2 ∧ (onStrip 2 {}).inExchange = false ∧ stripReady {} (onStrip 2 {})
    ∧ (onStrip 2 {}).here.wload.busy = false ∧ (onStrip 2 {}).here.accBusy = []
    ∧ (onStrip 2 {}).sound (windowPA 0 (0x27C100 + 8 * 7)) 8 ∧ (64 : Nat) ≤ 64 ∧ 64 < 65 :=
  ⟨rfl, by decide, by unfold stripReady; decide, rfl, rfl, by unfold State.sound; decide, by decide⟩

theorem test_meets_MatrixRowResults_steps : manyReady {} 1 (onStrip 2 {}) ∧ drainRounding { cvt := 1 } (onStrip 2 {}) < 5
    ∧ ((onStrip 2 {}).fifo 0 3).hasRoom 0 = true ∧ (onStrip 2 {}).sound (windowPA 0 (0x260000 + 0x300 * 127)) 768
    ∧ (∀ l, l < 192 → (onStrip 2 {}).me.stops (drained { cvt := 1 } (onStrip 2 {}) 127 l) = false)
    ∧ consumes multiplies 0 { row := 0x38#6144 } :=
  ⟨by unfold manyReady mayStep; decide, by decide, by decide, by unfold State.sound; decide +kernel, by decide +kernel,
    ⟨rfl, .inr ⟨rfl, by decide, by unfold uninjured; decide, [], rfl⟩⟩⟩

/-- The matrix strip with an entry in each FIFO that a scan reads. -/
def scans (q : Nat) (scan : Option Scan) : State :=
  onStrip 2 { matrix := { ust := q, popped := decide (0 < q) } }
    { fifos := [(0, { entries := [{ row := 1 }] }), (2, { entries := [{ row := 2 }] })], scan := scan }

theorem test_meets_ScanResults : ∃ h o form b, scanOp (.mscan {} { cnt := 79 }) = some (h, o, form) ∧ b = (scans 0 none).scanBlock form o
    ∧ (scans 0 none).strip.ust + 1 - b.start = 1 ∧ b.start ≤ (scans 0 none).strip.ust ∧ 1 ≤ b.length ∧ b.len = 64 ∧ b.chunked = true
    ∧ manyReady h ((scans 0 none).scanLast form o) (scans 0 none) ∧ (scans 0 none).flips = [] ∧ (scans 0 none).poison = []
    ∧ (scans 0 none).entryReady 2 = true ∧ (scans 0 none).entryReady 0 = true :=
  ⟨_, _, _, _, rfl, rfl, by decide, by decide, by decide, by decide, by decide, by unfold manyReady mayStep; decide, rfl, rfl, by decide, by decide⟩

theorem test_meets_ScanResults_entries : ∃ b, b = (scans 1 (some { len := 64, chunked := true })).scanBlock 0 { cnt := 63 } ∧ b.chunked = true ∧ b.len = 64
    ∧ (scans 1 (some { len := 64, chunked := true })).strip.ust + 1 - b.start = 2 ∧ 2 ≤ 1 + b.len
    ∧ manyReady {} ((scans 1 (some { len := 64, chunked := true })).scanLast 0 { cnt := 63 }) (scans 1 (some { len := 64, chunked := true })) :=
  ⟨_, rfl, by decide, by decide, by decide, by decide, by unfold manyReady mayStep; decide⟩

theorem test_meets_ScanResults_recurrent : ∃ b s, s = scans 63 (some { len := 1, xs := [1], bcs := [1] }) ∧ b = s.scanBlock 2 { cnt := 0 } ∧ b.chunked = false
    ∧ s.strip.ust + 1 - b.start = 64 ∧ 64 ≤ b.length ∧ (s.fifo 0 3).hasRoom s.cycle = true ∧ s.me.mode.getLsbD 2 = false :=
  ⟨_, _, rfl, rfl, by decide, by decide, by decide, by decide, by decide⟩

theorem test_meets_ScanResults_values : (onStrip 2 {}).here.scan = none ∧ (191 : Nat) < 192 ∧ 1 ≤ ({ len := 64 } : Scan).len := by decide

/-- Elements of 4 B from `base` on, 192 to an entry. -/
def elements4 (base space : Nat) : BitVec 2048 :=
  BitVec.ofNat 2048 (base + 2 ^ 64 + space * 2 ^ 72 + 192 * 2 ^ 88 + 4 * 2 ^ 96 + 4 * 2 ^ 128 + 1000 * 2 ^ 192)

/-- The access strip of tile 0 with descriptor 0. -/
def feeds : State := onStrip 1 { desc := [(0, elements4 0x1000 0)] }

theorem test_meets_FeedResults : ∃ h o e, feedForm (.ald {} { port := 0, imm := 0x5FF4 }) = some (h, o) ∧ feedEntry (.ald {} o) feeds e
    ∧ feeds.cur.eng = 1 ∧ manyReady h 1 feeds ∧ feeds.strip.spent = 0 ∧ (feeds.fifo 0 0).hasRoom feeds.cycle = true
    ∧ (∀ g ∈ drawnAt (granulesOf e.ps) 0, (feeds.tile g.1).granted.contains (g.2 / 1024) = false ∧ feeds.sound (windowPA g.1 (64 * g.2)) 64) :=
  ⟨_, _, _, rfl, ⟨by decide, rfl⟩, rfl, by unfold manyReady mayStep; decide, rfl, by decide, by unfold State.sound; decide +kernel⟩

theorem test_meets_FeedResults_descriptor : descReady feeds 0 ∧ descSpace (feeds.desc 0) < 2 ∧ descPack (feeds.desc 0) = 192
    ∧ ∀ p, p < 192 → feeds.badFeed false (feeds.descUnit (feeds.desc 0)) (descAddr (feeds.desc 0) (feeds.cursor 0 + p)) 4 = false :=
  ⟨⟨by decide, by decide +kernel, by unfold State.sound; decide +kernel⟩, by decide +kernel, by decide +kernel, by decide +kernel⟩

/-- An ACOPY of one raw row from 0x1000 to 0x1_0000 after `j` cycles. -/
def copies (j : Nat) : State := onStrip 1 { desc := [(0, elements4 0x1000 0)], access := { spent := j, popped := decide (0 < j) } }

theorem test_meets_RowWriteResults (j : Nat) (hj : j = 0 ∨ j = 11) : descReady (copies j) 0 ∧ descSpace ((copies j).desc 0) = 0
    ∧ (0x1000 : Int) = descAddr ((copies j).desc 0) ((copies j).cursor 0) ∧ manyReady {} 1 (copies j) ∧ (heldSoFar (copies j)).bad = 0
    ∧ (copies j).rowTrap 0x1000 768 = none ∧ (copies j).rowTrap 0x10000 768 = none ∧ (copies j).here.fmt (bankOf 0x1000) = 0
    ∧ (copies j).here.granted.contains (bankOf 0x1000) = false ∧ (copies j).sound (windowPA 0 (0x1000 + 64 * j)) 64
    ∧ (copies j).here.rowBuf.look 0 (bankOf 0x10000) = 0 := by
  rcases hj with rfl | rfl <;>
    exact ⟨⟨by decide, by decide +kernel, by unfold State.sound; decide +kernel⟩, by decide +kernel, by decide +kernel,
      by unfold manyReady mayStep; decide, by decide, by decide, by decide, by decide, by decide, by unfold State.sound; decide +kernel, by decide⟩

/-- The writeback strip with rows in FIFO 5 and e0 at 0. -/
def writes : State := onStrip 4 {} { fifos := [(5, { entries := [{ row := BitVec.allOnes 6144 }, { row := 2 }] })], banks := [(0, 0x1000)] }

theorem test_meets_RowWriteResults_store : (0 : Int) = writes.writeRowAt 0 ∧ manyReady {} 1 writes ∧ writes.me.wready.look 0 0 ≤ writes.cycle
    ∧ writes.sound (windowPA 0 (wdescOffset false 0)) 32 ∧ consumesAll writes 5 1 [{ row := BitVec.allOnes 6144 }]
    ∧ writes.here.fmt (bankOf 0) = 1 ∧ rowLength 1 1 = 768 ∧ writes.rowTrap 0 768 = none ∧ writes.here.bufferReady (bankOf 0) = true
    ∧ writes.sound (windowPA 0 0) 768 ∧ writes.me.mode = 0 :=
  ⟨by decide, by unfold manyReady mayStep; decide, by decide, by unfold State.sound; decide,
    ⟨rfl, by decide, .inr ⟨rfl, by unfold uninjured; decide, rfl, by decide +kernel, rfl⟩⟩, by decide, by decide, by decide, by decide, by unfold State.sound; decide +kernel, rfl⟩

theorem test_meets_RowWriteResults_landing : ∃ r : RowDue, r = { at_ := 0, addr := 0x17FD00, len := 768, data := 5 } ∧ r.at_ ≤ writes.cycle ∧ r.bad = 0
    ∧ (writes.tile 0).bufferFree (bankOf r.addr) = true := ⟨_, rfl, by decide⟩

/-- A row that leaves in cycle 0 is due in cycle 2 and read from then on. -/
theorem test_row_lands : (writes.sendRow 0 768 0xFF 0).here.rowsDue.map (·.at_) = [2]
    ∧ readByte ((({ writes with cycle := 1 }).modHere fun t => { t with rowsDue := (writes.sendRow 0 768 0xFF 0).here.rowsDue }).landRows 0).mem (windowPA 0 0) = 0
    ∧ readByte ((({ writes with cycle := 2 }).modHere fun t => { t with rowsDue := (writes.sendRow 0 768 0xFF 0).here.rowsDue }).landRows 0).mem (windowPA 0 0)
      = 0xFF := by decide +kernel

theorem test_meets_RowWriteResults_scatter : consumesAll writes 5 2 [{ row := BitVec.allOnes 6144 }, { row := 2 }]
    ∧ scatterPlaces 0 4 (BitVec.allOnes 6144) = [] ∧ fmtBits 1 / 8 = 4 ∧ manyReady {} 1 writes :=
  ⟨⟨rfl, by decide, .inr ⟨rfl, by unfold uninjured; decide, rfl, by decide +kernel, rfl⟩⟩, by decide +kernel, by decide, by unfold manyReady mayStep; decide⟩

theorem test_meets_RowWriteResults_descriptor : stripReady {} writes ∧ writes.inExchange = false ∧ writes.stripMay 32 32 = true
    ∧ writes.here.granted.contains (bankOf 32) = false ∧ writes.sound (windowPA 0 32) 32 ∧ wdescLegal 0 = false
    ∧ ∃ d : BitVec 256, wdescLegal d = true :=
  ⟨by unfold stripReady; decide, by decide, by decide, by decide, by unfold State.sound; decide, by decide,
    0x100010000000000000000, by decide +kernel⟩

theorem test_meets_StreamAndCommonResults : stripReady {} feeds ∧ feeds.inExchange = false ∧ feeds.me.dready.look 0 1 ≤ feeds.cycle
    ∧ 64 % 256 ≠ 0 ∧ feeds.stripMay 0x17FF00 256 = true ∧ feeds.stripMay 0x180000 256 = false
    ∧ feeds.here.granted.contains (bankOf 0x17FF00) = false ∧ feeds.sound (windowPA 0 0x17FF00) 256 ∧ descLegal (elements4 0 0) = true
    ∧ descLegal 0 = false :=
  ⟨by unfold stripReady; decide, by decide, by decide, by decide, by decide, by decide, by decide, by unfold State.sound; decide +kernel,
    by decide +kernel, by decide +kernel⟩

/-- The access strip with a descriptor of virtual addresses and bank 0 of the role a stream fills. -/
def queues1 : State := onStrip 1 { desc := [(0, elements4 0x1000 2)] } { banks := [(0, 0x30)] }

theorem test_meets_StreamAndCommonResults_streams : queues1.me.freeStream = some 0 ∧ descReady queues1 0 ∧ descSpace (queues1.desc 0) = 2
    ∧ queues1.streamBanks 0 (1 * descElen (queues1.desc 0)) (· == 3) = true ∧ queues1.streamBanks 0x10000 (1 * descElen (queues1.desc 0)) stripRole = true
    ∧ queues1.sound (windowPA 0 (accessMailbox false 0)) 8 ∧ (0x1000 : Int) = descAddr (queues1.desc 0) (queues1.cursor 0) :=
  ⟨by decide, ⟨by decide, by decide +kernel, by unfold State.sound; decide +kernel⟩, by decide +kernel, by decide +kernel, by decide +kernel,
    by unfold State.sound; decide, by decide +kernel⟩

theorem test_meets_StreamAndCommonResults_code : ∃ s : State, s = onStrip 1 { desc := [(0,
      BitVec.ofNat 2048 (2 ^ 64 + 2 * 2 ^ 72 + 2 ^ 88 + 64 * 2 ^ 96 + 64 * 2 ^ 128 + 4 * 2 ^ 192))] }
    ∧ descValid (s.desc 0) = true ∧ descSpace (s.desc 0) = 2 ∧ descElen (s.desc 0) = 64 := ⟨_, rfl, by decide +kernel⟩

theorem test_meets_StreamAndCommonResults_common : mayStep {} 65535 feeds ∧ feeds.strip.drained ≤ feeds.cycle ∧ feeds.here.rowBuf = [] ∧ feeds.here.rowsDue = []
    ∧ feeds.me.ops = [] ∧ ∃ s : State, s = onStrip 1 { access := { drained := 1 } } ∧ s.cycle < s.strip.drained
      ∧ s.strip.stall + 1 ≠ s.stallLimit 0 false ∧ stripReady {} s :=
  ⟨by unfold mayStep; decide, by decide, rfl, rfl, rfl, _, rfl, by decide, by decide, by unfold stripReady; decide⟩

/-! ### Transfers, atomics, streams and the events of a tile (08 R245 to R252, 09 R278, 10) -/

/-- A descriptor in the scratchpad: `n`-byte elements from `base` on, one to an entry. -/
def elementsOf (base n : Nat) : BitVec 2048 :=
  BitVec.ofNat 2048 (base + 2 ^ 64 + 2 ^ 88 + n * 2 ^ 96 + n * 2 ^ 128 + 1000 * 2 ^ 192)

/-- Tile 0 in the exchange phase of job 5, whose addresses `gangMem` maps; bank 1 takes what arrives. -/
def exchanging (x : Ctx) (t : Tile := {}) : State :=
  { onStrip 1 { x with job := 5, life := .running } { t with banks := [(1, 0x40)] } with
    jobs := [(0, { opened := true, id := 5, phase := 1, root0 := 0x8000000000010000, root1 := 5 })]
    mem := gangMem 1 }

/-- The same in the middle of a transfer with record `r`, its source d0 at 0x400, its second descriptor d1 in bank 1. -/
def transferring (r n : Nat) (x : Ctx := {}) : State :=
  exchanging { x with desc := [(0, elementsOf 0x400 n), (1, elementsOf 0x10000 8)]
                      access := { op := some 1, record := BitVec.ofNat 128 r }, ops := [{ id := 1, left := 0, closed := false }] }

/-- The value of an element that could be read. -/
def given : Element → Option Nat
  | .bytes _ v 0 => some v
  | _ => none

theorem test_meets_TransferResults_start : ∃ h o, transferForm (.xput {} {}) = some (h, o) ∧ (exchanging {}).cur.eng = 1
    ∧ (exchanging {}).inExchange = true ∧ mayStep h (stepsOf (.xput h o) o 0 (exchanging {})) (exchanging {}) ∧ (exchanging {}).strip.op = none
    ∧ (exchanging {}).me.ops = [] ∧ (exchanging {}).here.bankOwner 0 = (exchanging {}).bank ∧ (exchanging {}).here.role 0 = 0
    ∧ inSpill false 0 16 = false ∧ (exchanging {}).sound (windowPA 0 0) 16
    ∧ namesBit (.xput h o) 91 = true ∧ namesBit (.xput h o) 92 = false :=
  ⟨_, _, rfl, rfl, by decide, by unfold mayStep; decide, rfl, rfl, by decide, by decide, by decide, by unfold State.sound; decide, by decide, by decide⟩

theorem test_meets_TransferResults_put : inTransfer {} 7 1 1 (transferring 7 64) ∧ descReady (transferring 7 64) 0
    ∧ descSpace ((transferring 7 64).desc 0) = 0 ∧ descElen ((transferring 7 64).desc 0) = 64
    ∧ given ((transferring 7 64).sourceElement 0 0 0 true) = some 0 ∧ (transferring 7 64).flips = [] ∧ (transferring 7 64).here.stepping = none
    ∧ onPacketPlane (transferring 7 64) ∧ fits (transferring 7 64) 7 0 0 (parcels 64 true).length :=
  ⟨by unfold inTransfer mayStep; decide +kernel, ⟨by decide, by decide +kernel, by unfold State.sound; decide +kernel⟩, by decide +kernel,
    by decide +kernel, by decide +kernel, rfl, rfl, by unfold onPacketPlane; decide +kernel, by unfold fits; decide +kernel⟩

theorem test_meets_TransferResults_element : (0x17FFC0 : Int) = descAddr (elementsOf 0x17FFC0 64) 0 ∧ (exchanging {}).stripMay 0x17FFC0 64 = true
    ∧ (exchanging {}).sound (windowPA 0 0x17FFC0) 64
    ∧ (match (exchanging {}).translate 0 (exchanging {}).me.jobId (exchanging {}).strip.ahead .read 0xFC0 with
      | (q, .inr p) => p.pa == 0x800FC0 && q.flips.isEmpty && q.poison.isEmpty
          && (q.stampConflict p.tracked (q.actor 0 false).agent (q.actor 0 false).phase .read p.pa 64).isNone
      | _ => false) = true ∧ 0xFC0 % 4096 + 64 ≤ 4096 :=
  ⟨by decide +kernel, by decide, by unfold State.sound; decide +kernel, by decide +kernel, by decide⟩

/-- A page of another module: a transfer that needs its own HBM traps there (10 R301). -/
theorem test_meets_TransferResults_peer : ∃ s : State, s = { exchanging {} with
        mem := writeBytes (writeBytes [] 0x10000 8 0x8000000000040000) 0x40000 8 0xBE40000000800003 }
    ∧ (match s.translate 0 s.me.jobId s.strip.ahead .read 0x40 with
      | (_, .inr p) => decide (2 ^ 40 ≤ p.pa)
      | _ => false) = true := ⟨_, rfl, by decide +kernel⟩

theorem test_meets_TransferResults_send : inTransfer {} 7 1 8 (transferring 7 64)
    ∧ (transferring 7 64).sound (windowPA 0 (accessMailbox false 0)) 64 ∧ fits (transferring 7 64) 7 0 0 1 :=
  ⟨by unfold inTransfer mayStep; decide +kernel, by unfold State.sound; decide +kernel, by unfold fits; decide +kernel⟩

theorem test_meets_TransferResults_get : ∃ s : State, s = exchanging { desc := [(0, elementsOf 0x10000 64)], access := { op := some 1, record := 7 }, ops := [{ id := 1, left := 0, closed := false }] }
    ∧ inTransfer {} 7 1 1 s ∧ descReady s 0 ∧ s.mayReceive (descAddr (s.desc 0) (s.strip.start + 0)) 64 = true ∧ fits s 7 0 0 2 :=
  ⟨_, rfl, by unfold inTransfer mayStep; decide +kernel, ⟨by decide, by decide +kernel, by unfold State.sound; decide +kernel⟩,
    by decide +kernel, by unfold fits; decide +kernel⟩

theorem test_meets_TransferResults_combine : ∃ r, r = 2 ^ 52 ∧ inTransfer {} r 1 1 (transferring r 8) ∧ bits r 52 4 = 1 ∧ descReady (transferring r 8) 0
    ∧ descReady (transferring r 8) 1 ∧ descElen ((transferring r 8).desc 0) = 8 ∧ given ((transferring r 8).controlElement 0 0 0) = some 0
    ∧ (0x10000 : Int) = descAddr ((transferring r 8).desc 1) 0 ∧ (transferring r 8).mayReceive 0x10000 8 = true
    ∧ fits (transferring r 8) 0 0 0 1 :=
  ⟨_, rfl, by unfold inTransfer mayStep; decide +kernel, by decide, ⟨by decide, by decide +kernel, by unfold State.sound; decide +kernel⟩,
    ⟨by decide, by decide +kernel, by unfold State.sound; decide +kernel⟩, by decide +kernel, by decide +kernel, by decide +kernel,
    by decide +kernel, by unfold fits; decide +kernel⟩

theorem test_meets_TransferResults_scatter : ∃ r, r = 2 ^ 52 ∧ inTransfer {} r 1 1 (transferring r 4) ∧ descElen ((transferring r 4).desc 0) = 4
    ∧ descReady (transferring r 4) 0 ∧ descReady (transferring r 4) 1 ∧ onPacketPlane (transferring r 4)
    ∧ given ((transferring r 4).controlElement 0 0 0) = some 0 ∧ given ((transferring r 4).sourceElement 1 0 0 false) = some 0
    ∧ fits (transferring r 4) 0 0 0 (parcels 8 true).length :=
  ⟨_, rfl, by unfold inTransfer mayStep; decide +kernel, by decide +kernel, ⟨by decide, by decide +kernel, by unfold State.sound; decide +kernel⟩,
    ⟨by decide, by decide +kernel, by unfold State.sound; decide +kernel⟩, by unfold onPacketPlane; decide +kernel, by decide +kernel,
    by decide +kernel, by unfold fits; decide +kernel⟩

theorem test_meets_TransferResults_circuit (st : Nat) (h : st = 2 ∨ st = 4) : ∃ s : State, s = transferring 0 4 { handles := [(0, { state := st })] }
    ∧ inTransfer {} 0 1 1 s ∧ (s.handle 0 false 0).state = st ∧ 16 * descElen (s.desc 0) % 64 = 0 ∧ s.strip.ust = 0
    ∧ (∀ j, j < 16 → s.badLocal (descAddr (s.desc 0) (s.strip.start + j)) 4 = false)
    ∧ given (s.sourceElement 0 0 0 false) = some 0 ∧ fits s 0 0 0 16 := by
  rcases h with rfl | rfl <;>
    exact ⟨_, rfl, by unfold inTransfer mayStep; decide +kernel, rfl, by decide +kernel, rfl, by decide +kernel, by decide +kernel,
      by unfold fits; decide +kernel⟩

theorem test_meets_TransferResults_gather : ∃ r, r = 0x10000 * 2 ^ 96 ∧ inTransfer {} r 1 1 (transferring r 4)
    ∧ (transferring r 4).mayReceive (bits r 96 32 + 8 * 0 : Nat) 8 = true ∧ (transferring r 4).readsOut < 1024
    ∧ given ((transferring r 4).controlElement 0 0 0) = some 0
    ∧ (match (transferring r 4).translate 0 (transferring r 4).me.jobId (transferring r 4).strip.ahead .read 0 with
      | (_, .inr p) => p.pa / 2 ^ 52 != 1
      | _ => false) = true :=
  ⟨_, rfl, by unfold inTransfer mayStep; decide +kernel, by decide +kernel, by decide, by decide +kernel, by decide +kernel⟩

/-- Route word 0 of expert 0 of die 0 is valid. -/
theorem test_meets_TransferResults_dispatch : ∃ r s, r = 2 ^ 52 + 0x10000 * 2 ^ 96 ∧ s = { transferring r 8 with route := [(0, 0x8000000000000000)] }
    ∧ inTransfer {} r 1 1 s ∧ s.mayReceive (bits r 96 32 + 8 * 0 : Nat) 8 = true ∧ s.here.pairsOut < 256
    ∧ given (s.controlElement 0 0 0) = some 0 ∧ (0x10000 : Int) = descAddr (s.desc 1) (bits 0 0 32)
    ∧ (s.route.look 0 (512 * dieOf 0 + 2 * bits 0 32 32)).getLsbD 63 = true ∧ given (s.sourceBytes 1 0x10000 8 0 false) = some 0 ∧ s.device < 1024 :=
  ⟨_, _, rfl, rfl, by unfold inTransfer mayStep; decide +kernel, by decide +kernel, by decide, by decide +kernel, by decide +kernel, by decide,
    by decide +kernel, by decide⟩

theorem test_meets_TransferResults_reduce : ∃ s : State, s = { transferring 0 8 with
        redwin := [(0, 0x8000000000800000), (1, 0x500000001)] }
    ∧ inTransfer {} 0 1 1 s ∧ descElen (s.desc 0) % 4 = 0 ∧ reductionTakes 0 0 = true ∧ given (s.sourceElement 0 0 0 false) = some 0
    ∧ (match (s.traceX 0x400).mergeWords 0 0 0 2 0 0 with
      | .inl q => q.merged.length == 2
      | .inr _ => false) = true :=
  ⟨_, rfl, by unfold inTransfer mayStep; decide +kernel, by decide +kernel, by decide, by decide +kernel, by decide +kernel⟩

theorem test_meets_TransferResults_land : stripReady {} (exchanging {}) ∧ (exchanging {}).cur.eng = 1 ∧ (exchanging {}).me.ops = []
    ∧ 16 % 32 ≠ 0 ∧ (exchanging {}).sound (windowPA 0 32) 32 ∧ landRecordOk 0 = true ∧ landRecordOk (2 ^ 72) = false
    ∧ landRecordOk (2 ^ 72 + 2 ^ 96) = true :=
  ⟨by unfold stripReady; decide, rfl, rfl, by decide, by unfold State.sound; decide, by decide +kernel, by decide +kernel, by decide +kernel⟩

theorem test_meets_AtomicResults : ∃ h o op types, atomicForm (.aadd {} { imm := 0xFFFF }) = some (h, o, op, types)
    ∧ (exchanging {}).cur.eng = 1 ∧ (exchanging {}).inExchange = true ∧ mayStep h 1 (exchanging {}) ∧ (exchanging {}).strip.op = none
    ∧ (transferring 0 32).strip.op = some 1 ∧ descReady (transferring 0 32) 0 ∧ (transferring 0 32).here.recordsOut < 256
    ∧ 0 ∉ (transferring 0 32).strip.done ∧ (0x400 : Int) = descAddr ((transferring 0 32).desc 0) 0 ∧ (transferring 0 32).stripMay 0x400 32 = true
    ∧ (transferring 0 32).sound (windowPA 0 0x400) 32 ∧ 0 ∈ types
    ∧ (match (transferring 0 32).translate 0 (transferring 0 32).me.jobId (transferring 0 32).strip.ahead .atomic 0 with
      | (m, .inr p) => decide (p.pa < 2 ^ 40) && (m.windowAt m.me.jobId p.pa).isNone
      | _ => false) = true :=
  ⟨_, _, _, _, rfl, rfl, by decide, by unfold mayStep; decide, rfl, by decide +kernel,
    ⟨by decide, by decide +kernel, by unfold State.sound; decide +kernel⟩, by decide, by decide, by decide +kernel, by decide,
    by unfold State.sound; decide, by decide, by decide +kernel⟩

/-- A stream of a kind from entry 0 over virtual 0x1000, or from `va` on. -/
def streaming (kind va : Nat) : State :=
  exchanging { streams := [(0, { kind := kind, imm := 0x400, desc := BitVec.ofNat 2048 (va + 2 ^ 64 + 2 * 2 ^ 72 + 2 ^ 88 + 64 * 2 ^ 96
    + 64 * 2 ^ 128 + 4 * 2 ^ 192) })] }

theorem test_meets_StreamEventResults : ((exchanging {}).tile 0).streamsReady = [] ∧ servedNext (streaming 0 0x1000) 0 0
    ∧ ((streaming 0 0x1000).tile 0).trace.ctl.getLsbD 3 = false
    ∧ (match ((streaming 0 0x1000).mod 0 fun t => { t with lastServed := 0, granted := [1] }).readVirtual 0 false [] .read 1 0x1000 64 with
      | (_, .inr (v, _)) => decide (v < 2 ^ 512)
      | _ => false) = true
    ∧ (match ((streaming 3 0x1000).mod 0 fun t => { t with lastServed := 0, granted := [] }).readVirtual 0 false [] .code 2 0x1000 64 with
      | (_, .inr (v, _)) => decide (v < 2 ^ 512)
      | _ => false) = true
    ∧ (match ((streaming 0 (2 ^ 30)).mod 0 fun t => { t with lastServed := 0, granted := [1] }).readVirtual 0 false [] .read 1 (2 ^ 30) 64 with
      | (_, .inl f) => f.cause == 0x10
      | _ => false) = true :=
  ⟨rfl, ⟨[], [], by decide +kernel, .inr ⟨rfl, by decide +kernel⟩⟩, rfl, by decide +kernel⟩

theorem test_meets_StreamEventResults_out : (streaming 1 0x1000).sound (windowPA 0 0x10000) 64
    ∧ (match ((streaming 1 0x1000).mod 0 fun t => { t with lastServed := 0, granted := [1] }).writeVirtual 0 false [] 0x1000 64 0 0 with
      | (_, none) => true
      | _ => false) = true := ⟨by unfold State.sound; decide, by decide +kernel⟩

theorem test_meets_StreamEventResults_walk : ((onTile { streams := [(3, { kind := 1, state := 2 })] }).ctx 0 false).streams.find 3 = some { kind := 1, state := 2 }
    ∧ (match (exchanging {}).translate 0 5 [] .read 0x40 with
      | (_, .inr p) => p.pa == 0x800040
      | _ => false) = true
    ∧ (match (exchanging {}).translate 0 5 [] .write (2 ^ 50) with
      | (_, .inl f) => f.level == 1
      | _ => false) = true := ⟨rfl, by decide +kernel⟩

theorem test_meets_TileEventResults : ∃ s : State, s = { onTile {} with units := [(0, { ctxA :=
      { queue := { f0 := { pos := some 0, slot := some (0x012000428000000, none) }, f1 := { pos := none }, f2 := { pos := none } } } })] }
    ∧ (match s.standing with
      | some (w, x) => (match decodeSlot (isSteward 0) 0 w x with
        | .instr i => multiCycleForm i
        | .bad _ => false)
      | none => false) = false ∧ multiCycleForm (.div {}) = true := ⟨_, rfl, by decide⟩

theorem test_meets_TileEventResults_load : ∃ s : State, s = tileOf { wload := { busy := true, left := 1, total := 12 }, fifos := [(0, { entries := [{ row := 1 }] })] }
    ∧ ((s.tile 0).fifos.look {} (s.tile 0).wload.fifo).entries = { row := 1 } :: [] ∧ (s.tile 0).wload.kind ≠ 1
    ∧ loadedBytes (s.tile 0).wload 11 1 = (768, 8448, (loadedBytes (s.tile 0).wload 11 1).2.2) := ⟨_, rfl, rfl, by decide, rfl⟩

theorem test_meets_TileEventResults_drain : ((tileOf { granted := [2] }).tile 0).granted.contains 2 = true
    ∧ ((tileOf {}).tile 0).granted.contains 23 = false ∧ (0x17FFF8 : Nat) < 0x180000 := by decide

theorem test_meets_TileEventResults_sample : isSteward 0 = false ∧ (((tileOf {}).tile 0).ctx ((tileOf {}).tile 0).run).frozen = false
    ∧ ((tileOf { mon := [(0, {})] }).tile 0).mon.find 0 = some {} := by decide

theorem test_meets_TileEventResults_traps : ((onTile {}).ctx 0 false).traps = []
    ∧ ((onTile { traps := [{ cause := 0x0A, rank := 3 }, { cause := 0x13, rank := 1 }] }).ctx 0 false).traps
      = [{ cause := 0x0A, rank := 3 }] ++ { cause := 0x13, rank := 1 } :: []
    ∧ ((onTile { traps := [{ cause := 0x0A, rank := 3 }, { cause := 0x13, rank := 1 }] }).ctx 0 false).deliverable { cause := 0x13, rank := 1 } = true
    ∧ (onTile {}).me.disposition 0x13 = .freeze ∧ (onTile { disp := 0 }).me.disposition 0x13 = .handle
    ∧ (onTile { disp := 0xAAAAAAAAAAAAAAAA }).me.disposition 0x0A = .report := by decide

theorem test_meets_TileEventResults_faults : (inJob 0 {}).slotOf 0 false = some 0 ∧ ((inJob 0 {}).job 0).valid = false
    ∧ ((inJob 0 {}).ctx 0 false).frozen = false ∧ ((inJob 0 {}).ctx 0 false).takesPart = true ∧ false = ((inJob 0 {}).tile 0).run := by decide

/-! ### Packets (10 R292 to R310) -/

/-- Tile 0 receives in slot 2: bank 1 from its first byte on, 16 units, 256 bytes expected. -/
def landing (t : Tile := {}) : State :=
  exchanging { slots := [(2, { base := 0x10000, perm := 3, limit := 16, expect := 256 })] } t

theorem test_meets_StreamPacketResults : isNext landing { type := 1, lslot := 2, len := 16, off := 12 }
    ∧ landing.slotOpen 0 false 2 0 = true ∧ landing.mayLand 0 false (0x10000 + 64 * 12) 256 = true
    ∧ isNext landing { type := 2, lslot := 2, len := 1, off := 15, payload := 8 } ∧ landing.mayLand 0 false (0x10000 + 64 * 15) 8 = true
    ∧ (landing.ctx 0 false).landed.look 0 2 + 256 ≤ 256 := by unfold isNext; decide +kernel

theorem test_meets_StreamPacketResults_read : ∃ p : Packet, p = { type := 3, lslot := 2, len := 1, payload := BitVec.ofNat 2048 (12 + 256 * 2 ^ 32) }
    ∧ isNext landing p ∧ landing.slotOpen 0 false 2 1 = true ∧ p.payload.toNat % 2 ^ 28 = 12 ∧ p.payload.toNat / 2 ^ 32 % 8192 = 256
    ∧ landing.mayLand 0 false (0x10000 + 64 * 12) 256 = true ∧ landing.sound (windowPA 0 (0x10000 + 64 * 12)) 256 ∧ landing.poison = [] :=
  ⟨_, rfl, by unfold isNext; decide +kernel, by decide +kernel, by decide +kernel, by decide +kernel, by decide +kernel,
    by unfold State.sound; decide +kernel, rfl⟩

theorem test_meets_StreamPacketResults_nack : isNext landing { type := 1, lslot := 3 } ∧ landing.slotOpen 0 false 3 0 = false := by
  unfold isNext; decide +kernel

/-- No receive fault of the packet is declared dead. -/
theorem test_meets_StreamPacketResults_live : notDead landing 0 false { type := 1, lslot := 2 } := by unfold notDead; decide +kernel

theorem test_meets_StreamPacketResults_teardown : ∃ p : Packet, p = { type := 0x12, stile := 1, fA := true } ∧ isNext landing p
    ∧ landing.beatsOnWire 0 0 = false ∧ (landing.tile 0).rxc.find? (·.cid == 0) = none := ⟨_, rfl, by unfold isNext; decide +kernel⟩

/-- An unacknowledged READ of another module. -/
theorem test_meets_StreamPacketResults_host : ∃ s : State, s = onTile { streams := [(3, { kind := 1 })], access := { state := 2 } }
    ∧ (s.ctx 0 false).streams.find 3 = some { kind := 1 } ∧ (s.ctx 0 false).access.state = 2 := ⟨_, rfl, by decide +kernel⟩

theorem test_meets_StreamPacketResults_cmark : ∃ s : State, ∃ p : Packet,
    s = landing { rxc := [{ cid := 0, c := false, slot := 2, label := 0, sdev := 0, stile := 1, anchored := true, runBeats := 3 }] }
    ∧ p = { type := 0x12, stile := 1, payload := 3 } ∧ isNext s p ∧ p.payload.toNat % 2 ^ 32 ≤ 3
    ∧ (s.tile 0).rxc.find? (·.cid == BitVec.ofNat 26 (p.payload.toNat / 2 ^ 32 % 2 ^ 26))
      = some { cid := 0, c := false, slot := 2, label := 0, sdev := 0, stile := 1, anchored := true, runBeats := 3 } :=
  ⟨_, _, rfl, rfl, by unfold isNext; decide +kernel, by decide +kernel, by decide +kernel⟩

/-- A packet to tile 1 that tile 0 keeps, its sequence the highest. -/
def keeping : State := landing { kept := [{ pkt := { type := 1, dtile := 1, seq := 0xFFFF }, c := false, op := 1, elem := 0 }] }

theorem test_meets_StreamPacketResults_ack : ((keeping.tile 0).kept.filter fun k => k.isFor 0 1 0
      && decide ((0xFFFF + 65536 - k.pkt.seq.toNat) % 65536 < 32768))
    = [{ pkt := { type := 1, dtile := 1, seq := 0xFFFF }, c := false, op := 1, elem := 0 }]
    ∧ (circuitSource 0x3F) = .handle true 15 ∧ (keeping.ctx 0 false).frozen = false
    ∧ ((keeping.tile 0).kept.find? fun k => k.isFor 0 1 0 && k.pkt.seq.toNat == 0xFFFF).isSome = true
    ∧ ((keeping.tile 0).kept.filter (·.isFor 0 1 0)).length = 1 := by decide +kernel

theorem test_meets_StreamPacketResults_timer : ∃ s : State, s = landing { rx := [{ sdev := 1023, stile := 1023, label := 65535, unacked := 1 }] }
    ∧ (s.tile 0).rx.find? (fun r => r.sdev == 1023 && r.stile == 1023 && r.label == 65535)
      = some { sdev := 1023, stile := 1023, label := 65535, unacked := 1 } := ⟨_, rfl, by decide +kernel⟩

/-- An add of 7, and one of types 0 and 5, to the word at 0x1000, which is 3. -/
theorem test_meets_RequestPacketResults : ∃ p : Packet, p = { type := 9, dtile := 0x3FC, payload := BitVec.ofNat 2048 (0x1000 * 2 ^ 128 + 7 * 2 ^ 192) }
    ∧ landing.stampConflict (p.payload.getLsbD 32) (landing.serviceActor p).agent (landing.serviceActor p).phase .atomic 0x1000 4 = none
    ∧ landing.sound 0x1000 4 ∧ p.payload.toNat / 2 ^ 24 % 256 < 6 ∧ p.payload.toNat / 2 ^ 16 % 256 < 8
    ∧ 1020 ≤ p.dtile.toNat ∧ landing.flips = [] :=  ⟨_, rfl, by decide +kernel, by unfold State.sound; decide +kernel, by decide +kernel, by decide +kernel, by decide +kernel, rfl⟩

/-- A write of this phase by tile 2 stands in the line. -/
theorem test_meets_RequestPacketResults_conflict : ∃ p : Packet, ∃ s : State,
    p = { type := 9, dtile := 0x3FC, payload := BitVec.ofNat 2048 (2 ^ 32 + 2 ^ 64 + 0x1000 * 2 ^ 128) }
    ∧ s = { landing with stamps := [(0x1000 / 64, 0x0001002)] }
    ∧ (s.stampConflict (p.payload.getLsbD 32) (s.serviceActor p).agent (s.serviceActor p).phase .atomic 0x1000 4).isSome = true :=
  ⟨_, _, rfl, rfl, by decide +kernel⟩

/-- A request of tag 65535 with its last answer to come. -/
def asking (use : ReplyUse) : State := landing { asked := [{ tag := 65535, c := false, op := 1, elem := 0, use := use }] }

theorem test_meets_RequestPacketResults_replies : awaits (asking (.result (some 0x10000))) 0 65535 { tag := 65535, c := false, op := 1, elem := 0, use := .result (some 0x10000) }
    ∧ awaits (asking (.values [(0x10000, 0, 0), (0x10008, 1, 8)])) 0 65535
      { tag := 65535, c := false, op := 1, elem := 0, use := .values [(0x10000, 0, 0), (0x10008, 1, 8)] }
    ∧ [((0x10000 : Nat), (0 : Nat), (0 : Nat)), (0x10008, 1, 8)].Pairwise (fun a b => a.1 + 8 ≤ b.1)
    ∧ awaits (asking (.bytes [(0x10000, 64)])) 0 65535 { tag := 65535, c := false, op := 1, elem := 0, use := .bytes [(0x10000, 64)] }
    ∧ ((asking (.result none)).ctx 0 false).frozen = false ∧ Memory.wf (landing).mem = true := by unfold awaits; decide +kernel

theorem test_meets_RequestPacketResults_cread : ∃ p : Packet, p = { type := 5, dtile := 0x3FC, payload := BitVec.ofNat 2048 (1 + 0xFFFFFFFFF8 * 2 ^ 128) }
    ∧ p.payload.toNat % 65536 = 1 ∧ p.payload.toNat / 2 ^ 128 % 2 ^ 40 = 0xFFFFFFFFF8 ∧ landing.sound 0xFFFFFFFFF8 8 ∧ landing.poison = []
    ∧ landing.dieMon = [] ∧ landing.stampConflict (p.payload.getLsbD 191) (landing.serviceActor p).agent (landing.serviceActor p).phase .read 0xFFFFFFFFF8 8 = none :=
  ⟨_, rfl, by decide +kernel, by decide +kernel, by unfold State.sound; decide +kernel, rfl, rfl, by decide +kernel⟩

/-- A pair waits for its slot at expert 0 of die 0, whose group 1 is tile 767 of this module; 9 slots, then fallback expert 2. -/
def paired : State :=
  { asking (.slot 0 1 0x10000 64 5 0 0x100 (BitVec.ofNat 64 (2 ^ 63 + 1 + 2 * 2 ^ 32 + 9 * 2 ^ 40)) false) with
    route := [(0, BitVec.ofNat 64 (2 ^ 63 + 1 + 2 * 2 ^ 32 + 9 * 2 ^ 40)), (4, BitVec.ofNat 64 (2 ^ 63))]
    group := [(2, BitVec.ofNat 64 (2 ^ 63 + 767 * 2 ^ 32 + 1 * 2 ^ 16 + 3))] }

theorem test_meets_RequestPacketResults_slot : ∃ w0 w1 : Word, w0 = BitVec.ofNat 64 (2 ^ 63 + 1 + 2 * 2 ^ 32 + 9 * 2 ^ 40) ∧ w1 = paired.groupWord 0 1 0 ∧ w0.getLsbD 62 = false ∧ w0.toNat % 256 = 1
    ∧ 8 < w0.toNat / 2 ^ 40 % 65536 ∧ w0.toNat / 2 ^ 40 % 65536 ≤ 9 ∧ w1.getLsbD 63 = true ∧ 1 ≤ w1.toNat / 65536 % 1024
    ∧ w1.toNat / 2 ^ 32 % 1024 + w1.toNat / 65536 % 1024 = 768 ∧ paired.tablePoisoned (groupOffset 0 1) = false
    ∧ paired.tablePoisoned (routeOffset 0 2) = false ∧ (paired.groupWord 0 2 0).getLsbD 63 = false ∧ w0.toNat / 2 ^ 32 % 256 = 2 ∧ (paired.routeWord 0 2 0).getLsbD 63 = true
    ∧ awaits paired 0 65535 { tag := 65535, c := false, op := 1, elem := 0, use := .slot 0 1 0x10000 64 5 0 0x100 (BitVec.ofNat 64 (2 ^ 63 + 1 + 2 * 2 ^ 32 + 9 * 2 ^ 40)) false }
    ∧ (paired.tile 0).kept = [] := ⟨_, _, rfl, rfl, by unfold awaits; decide +kernel⟩

theorem test_meets_RequestPacketResults_slot_room (ddev dtile : Nat) : paired.canSend 0 ddev dtile 1 1 = true := by
  have h : (paired.tile 0).kept = [] := by decide +kernel
  have w : (paired.tile 0).waitOut = [] := by decide +kernel
  simp [State.canSend, Tile.room, h, w]

theorem test_meets_RequestPacketResults_reduction : ∃ s : State, ∃ a b : Merged,
    a = { w := 7, dev := 0, tile := 1, word := 0x1000, op := 0, type := 4, opnd := 0x3F800000, opId := 1, c := false }
    ∧ b = { w := 7, dev := 0, tile := 2, word := 0x1000, op := 0, type := 4, opnd := 0x3F800000, opId := 1, c := false }
    ∧ s = { landing with merged := [a, b] } ∧ s.merged.filter (·.w == 7) = [a, b] ∧ s.sound 0x1000 4 ∧ a.tracked = false
    ∧ s.windowHome 7 = s.device := ⟨_, _, _, rfl, rfl, rfl, by decide +kernel, by unfold State.sound; decide +kernel, by decide, by decide +kernel⟩

theorem test_meets_RequestPacketResults_fault : ((keeping.tile 0).kept.find? fun k => k.isFor 0 1 0 && k.pkt.seq == (0xFFFF : BitVec 16))
      = some { pkt := { type := 1, dtile := 1, seq := 0xFFFF }, c := false, op := 1, elem := 0 }
    ∧ awaits (asking (.result none)) 0 65535 { tag := 65535, c := false, op := 1, elem := 0, use := .result none }
    ∧ ((asking (.result none)).tile 0).kept = [] := by unfold awaits; decide +kernel

/-! ### Circuits (10 R311 to R322, 12 R362) -/

/-- A probe of tile 1 for slot 2 of tile 0, and its circuit; `q` is where it stands. -/
def probe1 : Packet := { type := 0x0E, stile := 1, lslot := 2, payload := BitVec.ofNat 2048 (2 ^ 16 + 0x60 * 2 ^ 80) }

theorem test_meets_CircuitEventResults : probe1.sdev.toNat = landing.device ∧ probe1.ddev.toNat = landing.device
    ∧ probe1.payload.toNat % 65536 % 1024 = 0 ∧ probe1.payload.toNat / 2 ^ 80 % 2 ^ 32 = 0x60
    ∧ max 1 (probe1.payload.toNat / 2 ^ 16 % 256) = 1 ∧ { landing with device := 574 }.device ≠ probe1.sdev.toNat
    ∧ ({ probe1 with ddev := 575 } : Packet).ddev.toNat ≠ landing.device := by decide +kernel

/-- The first plane of the order has a free slot set while its link is UP with its full width, and none has while every link is DOWN. -/
theorem test_meets_CircuitEventResults_planes : ∃ n after, planeOrder (dieOf 1) = [] ++ n :: after
    ∧ mayReserve { landing with links := [(n, { state := 1 })] } (.fabric n) 1 0
    ∧ (∀ m ∈ planeOrder (dieOf 1), ¬ mayReserve landing (.fabric m) 1 0) := by
  refine ⟨_, _, rfl, ?_, ?_⟩ <;> unfold mayReserve <;> decide +kernel

/-- The path from tile 1 to tile 0 begins with a wire; with its four wires taken the probe goes back. -/
theorem test_meets_CircuitEventResults_hop : ∃ g rest a, pathIn 1 0 = g :: rest ∧ (g.alternatives 1 0)[0]? = some a ∧ landing.isOpen a = true
    ∧ landing.circuitFrozen 0x60 = false ∧ ({ pkt := probe1, ahead := pathIn 1 0 } : Probing).cid = 0x60
    ∧ (∀ b ∈ g.alternatives 1 0, { landing with resv := (g.alternatives 1 0).flatMap fun (c : Alternative) => c.entries.map fun n => (n, { state := 2, cid := 7 }) }.isOpen b = false) :=
  ⟨_, _, _, rfl, rfl, by decide +kernel⟩

theorem test_meets_CircuitEventResults_end : ((landing.ctx 0 false).slots.look {} 2).space = 0 ∧ ((landing.ctx 0 false).slots.look {} 2).perm % 2 = 1
    ∧ ((landing.ctx 0 false).slots.look {} 3).perm % 2 = 0 ∧ (landing.ctx 0 false).life = .running
    ∧ probe1.label.getLsbD 15 = false ∧ probe1.lslot.toNat = 2 := by decide +kernel

/-- Tile 0 probes for handle 3 of context A; no backtrack is allowed. -/
def opens (state : Nat) : State :=
  { landing with
    units := [(0, { ctxA := { job := 5, life := .running, handles := [(3, { state := state, dtile := 1, want := 1, back := 0 })] } })]
    resv := [(0x80044, { state := 1, cid := 35 })] }

theorem test_meets_CircuitEventResults_back : circuitSource 35 = .handle false 3 ∧ ((opens 1).probeOf 0 (.handle false 3)).payload.toNat / 2 ^ 80 = 35
    ∧ ((opens 1).probeOf 0 (.handle false 3)).payload.toNat % 2 ^ 80 < 2 ^ 79 ∧ (opens 1).backsAllowed 0 (.handle false 3) < 1 := by
  decide +kernel

theorem test_meets_CircuitEventResults_ready : circuitSource 35 = .handle false 3 ∧ ((opens 1).handle 0 false 3).state = 1
    ∧ ((opens 2).handle 0 false 3).state = 2 ∧ circuitSource 15 = .meter 15 ∧ ∃ s : State, s = landing { meters := [(15, { state := 2 })] }
    ∧ (s.meter 0 15).state = 2 := ⟨by decide +kernel, by decide +kernel, by decide +kernel, by decide +kernel, _, rfl, by decide +kernel⟩

/-- A run of two beats of handle 3, one of them sent. -/
def running (r : TxRun) : State := landing { runs := [(0, r)] }

theorem test_meets_CircuitEventResults_departure : ∃ r : TxRun, r = { src := .handle false 3, op := 1, c := false, data := [(1, 0, 0, 0), (2, 0, 0, 0)], sent := 1, word := some 9 }
    ∧ ((running r).tile 0).runs.find 0 = some r ∧ ((running r).ctx 0 false).frozen = false ∧ r.data[r.sent]? = some (2, 0, 0, 0)
    ∧ r.ddev = (running r).device ∧ r.torn = false ∧ r.late = false ∧ r.source = [] := ⟨_, rfl, by decide +kernel⟩

theorem test_meets_CircuitEventResults_deviation : ∃ r : TxRun, r = { src := .handle false 3, op := 1, c := false, source := [[(0x180000, 64)]] }
    ∧ ((running r).tile 0).runs.find 0 = some r ∧ r.source[r.sent]? = some [(0x180000, 64)]
    ∧ (running r).mayTransfer 0 false 0x180000 64 = false ∧ (running r).flips = [] := ⟨_, rfl, by decide +kernel⟩

/-- The circuit of handle 3 of tile 1 at tile 0, in slot 2, with `n` beats of its run landed. -/
def receives (n : Nat) : State :=
  { landing with
    units := [(0, { ctxA := { job := 5, life := .running, slots := [(2, { base := 0x10000, perm := 1, limit := 16, expect := 1024 })] }
                    banks := [(1, 0x40)]
                    rxc := [{ cid := 99, c := false, slot := 2, label := 0, sdev := 0, stile := 1, runUnit := 15, anchored := true, runBeats := n }] })] }

theorem test_meets_CircuitEventResults_beat : bound (receives 15) 0 99
      { cid := 99, c := false, slot := 2, label := 0, sdev := 0, stile := 1, runUnit := 15, anchored := true, runBeats := 15 }
    ∧ (receives 15).slotOpen 0 false 2 0 = true ∧ (receives 15).mayLand 0 false (0x10000 + 64 * 15) 64 = true
    ∧ ((receives 15).ctx 0 false).landed.look 0 2 + 64 * (15 % 16) + 64 ≤ 1024 ∧ ((receives 15).tile 0).rx = []
    ∧ (((receives 15).tile 0).rxc.map fun q => q.pre.length).foldl (· + ·) 0 < 1024 := by unfold bound; decide +kernel

theorem test_meets_CircuitEventResults_teardown : ((opens 2).tile 0).runsOf (.handle false 3) = [] ∧ ((opens 2).handle 0 false 3).state = 2
    ∧ ((opens 1).handle 0 false 3).state = 1 ∧ ∃ s : State, s = landing { meters := [(15, { state := 4 })] } ∧ (s.meter 0 15).state = 4
    ∧ (s.tile 0).runsOf (.meter 15) = [] := ⟨by decide +kernel, by decide +kernel, by decide +kernel, _, rfl, by decide +kernel⟩

/-- Sixteen beats committed of a torn run of 17. -/
theorem test_meets_CircuitEventResults_report : ∃ r : TxRun, r = { src := .handle false 3, op := 1, c := false, torn := true, data := List.replicate 17 (9, 0, 0, 0), sent := 17 }
    ∧ ((running r).tile 0).runsOf (.handle false 3) = [(0, r)] ∧ r.data.length = 16 * 1 + 1 ∧ r.data[16 * 1]? = some (9, 0, 0, 0)
    ∧ circuitSource 35 = .handle false 3 := ⟨_, rfl, by decide +kernel⟩

/-- The same handle in the middle of a run, and torn by its lease with no run. -/
theorem test_meets_CircuitEventResults_stands : ∃ s r, r = ({ src := .handle false 3, op := 1, c := false, data := [(9, 0, 0, 0)], sent := 1 } : TxRun)
    ∧ s = (opens 2).mod 0 (fun t => { t with runs := [(0, r)] }) ∧ (s.tile 0).runsOf (.handle false 3) = [(0, r)] ∧ r.ended = false
    ∧ (s.handle 0 false 3).state = 2 := ⟨_, _, rfl, rfl, by decide +kernel⟩

theorem test_meets_CircuitEventResults_torn : ∃ s : State, s = landing { ctxA := {} } ∧ ((s.tile 0).runsOf (.handle false 3)).filter (·.2.torn) = []
    ∧ ((s.modHandle 0 false 3 fun e => { e with state := 4, cause := 1, tearing := true }).handle 0 false 3).tearing = true :=
  ⟨_, rfl, by decide +kernel⟩

/-- A flow's answer waits for the end of its cycle. -/
theorem test_meets_CircuitEventResults_flow : landing.ended = false ∧ ({ landing with ended := true }).ended = true ∧ circuitSource 15 = .meter 15 := by
  decide +kernel

theorem test_meets_CircuitEventResults_timers : ∃ s : State, s = landing { meters := [(0, { state := 3 }), (1, { state := 2 }), (2, { state := 1, count := 2 }), (15, { state := 1, count := 1 })] }
    ∧ (s.meter 0 0).state = 3 ∧ (s.meter 0 1).state = 2 ∧ (s.meter 0 2).state = 1 ∧ risingKeys (s.tile 0).meters
    ∧ (s.tile 0).meters.find 15 = some { state := 1, count := 1 } ∧ (opens 1).resv.find 0x80044 = some { state := 1, cid := 35 } :=
  ⟨_, rfl, by unfold risingKeys; decide +kernel⟩

/-! ### Phases and whistles (01 R23 to R28, 14 R397 to R407) -/

/-- Job 5 in slot 7 with tile 0 in it, whose core waits in a PHEND. -/
def phased (b : Job) (x : Ctx) : State :=
  { onTile { x with job := 5, life := .running } with jobs := [(7, { b with opened := true, id := 5 })], cycle := 3396 }

theorem test_meets_PhaseEventResults : boundaryIdle (phased {} {}) 7 ∧ ((phased {} {}).job 7).conditionsAt = none
    ∧ (phased {} {}).spansModules 5 = false ∧ ((phased {} {}).job 7).phase % 2 = 0 ∧ ((phased {} {}).job 7).lastStart + 3396 ≤ (phased {} {}).cycle
    ∧ ((phased { phase := 1, lastStart := 1 } {}).job 7).lastStart + 3396 > (phased {} {}).cycle
    ∧ ((phased { phase := 1, lastStart := 1 } {}).job 7).phase % 2 = 1 := by unfold boundaryIdle; decide +kernel

theorem test_meets_PhaseEventResults_spanning : ∃ s : State, s = { phased { bplane := 71 } {} with
        placed := [(0, { state := 4, job := 5, task := task 2 })], links := [(71, { state := 1 })] }
    ∧ boundaryIdle s 7 ∧ s.spansModules 5 = true ∧ (s.job 7).released = false ∧ (s.job 7).flitSent = false ∧ s.planeUp 71 = true :=
  ⟨_, rfl, by unfold boundaryIdle; decide +kernel⟩

theorem test_meets_PhaseEventResults_timed : ((phased { conditionsAt := some 1, phase := 1 } {}).job 7).conditionsAt.isSome = true
    ∧ boundaryIdle (phased { conditionsAt := some 1, phase := 1 } {}) 7
    ∧ (phased { conditionsAt := some 1 } { arrived := true }).conditionsHold 7 = true
    ∧ (phased { conditionsAt := some 1 } {}).conditionsHold 7 = false := by unfold boundaryIdle; decide +kernel

theorem test_meets_PhaseEventResults_barrier : ∃ s : State, s = phased { conditionsAt := some 1, flitSent := true, begun := true } {}
    ∧ s.jobSlot 5 = some 7 ∧ boundaryIdle s 7 ∧ (s.job 7).flitSent = true ∧ (s.job 7).released = false ∧ (s.job 7).begun = true
    ∧ (s.job 7).conditionsAt.isSome = true ∧ (s.job 7).phase % 2 = 0 := ⟨_, rfl, by unfold boundaryIdle; decide +kernel⟩

theorem test_meets_PhaseEventResults_sequence : ∃ s : State, ∃ x : Ctx, s = phased { sequence := true, begun := true } {} ∧ x = s.ctx 0 false
    ∧ risingKeys s.units ∧ (s.job 7).sequence = true ∧ (s.job 7).held = false ∧ (s.job 7).suspended = false ∧ (s.job 7).armed = none
    ∧ takes s 7 0 x ∧ x.life = .running ∧ 0 ∈ s.units.map (·.1) ∧ (s.tile 0).bankOwner 23 = (s.tile 0).run ∧ (s.job 7).opened = true
    ∧ (∀ e ∈ s.placed, e.2.tiles ≠ []) :=
  ⟨_, _, rfl, rfl, by unfold risingKeys takes; decide +kernel⟩

/-- No context of that state has ended its task. -/
theorem test_meets_PhaseEventResults_tend (v : Nat) (d : Bool) : ((phased { sequence := true } {}).ctx v d).tend = false := by
  rcases Nat.eq_zero_or_pos v with h | h
  · subst h; cases d <;> decide +kernel
  · have hn : (phased { sequence := true } {}).tile v = {} := by
      have g : ¬ 0 = v := by omega
      simp [State.tile, phased, onTile, Tab.look, g]
    show (((phased { sequence := true } {}).tile v).ctx d).tend = false
    rw [hn]
    cases d <;> rfl

theorem test_meets_PhaseEventResults_pulse : ((phased {} {}).ctx 0 false).jobId = ((phased {} {}).job 7).id
    ∧ ((phased {} { frozen := true }).ctx 0 false).frozen = true ∧ ((phased {} { atPhend := true }).ctx 0 false).atPhend = true
    ∧ ((phased {} {}).ctx 0 false).tend = false ∧ ((phased {} {}).ctx 0 false).life ≠ .waiting
    ∧ (((phased {} {}).modCtx 0 false fun x => { x with life := .waiting }).ctx 0 false).life = .waiting := by decide +kernel

theorem test_meets_PhaseEventResults_straggler : ∃ s : State, s = phased { begun := true, conditionsAt := some 1 } {}
    ∧ risingKeys s.units ∧ boundaryIdle s 7 ∧ (s.job 7).valid = false ∧ (s.job 7).begun = true ∧ s.jobSlot 5 = some 7
    ∧ takes s 7 0 (s.ctx 0 false) ∧ (s.ctx 0 false).arrived = false ∧ s.members 7 = [0]
    ∧ ((phased { valid := true, runState := 1 } {}).job 7).valid = true ∧ ((phased { valid := true, runState := 1 } {}).job 7).runState ≠ 2 :=
  ⟨_, rfl, by unfold risingKeys boundaryIdle takes; decide +kernel⟩

/-- Job 5 in slot 7 with tile 767 in it. -/
def waved (b : Job) (x : Ctx) (t : Tile := {}) : State :=
  { State.reset with
    power := true, cycle := 9000, time := 9000 * 1310720, jobs := [(7, { b with opened := true, id := 5 })]
    units := [(767, { t with ctxA := { x with job := 5, life := .running } })] }

theorem test_meets_WhistleEventResults : takes (waved {} {}) 7 767 ((waved {} {}).ctx 767 false) ∧ ((waved {} {}).ctx 767 false).stopped = false
    ∧ ((waved {} {}).job 7).held = false := by unfold takes; decide +kernel

/-- A whistle of module 575 for job 5. -/
def heard (kind : Nat) : Packet := { type := 0x13, sdev := 575, payload := BitVec.ofNat 2048 (5 + kind * 2 ^ 32 + 575 * 2 ^ 144 + 4 * 2 ^ 160 + 9100 * 2 ^ 192) }

theorem test_meets_WhistleEventResults_whistle : firstSeen (waved {} {}) (heard 0) 7 0 ∧ ((waved {} {}).job 7).valid = false
    ∧ takes (waved {} {}) 7 767 ((waved {} {}).ctx 767 false) ∧ risingKeys (waved {} {}).units ∧ ∃ s : State, ∃ v : Whistle,
    v = { time := 0, frac := 0, dev := 575, tile := 1, eng := 0, cause := 0x22, info0 := 0 } ∧ s = waved { valid := true, winner := some v } {}
    ∧ firstSeen s (heard 0) 7 0 ∧ (s.job 7).valid = true ∧ (s.job 7).settled = false ∧ (s.job 7).winner = some v :=
  ⟨by unfold firstSeen; decide +kernel, by decide +kernel, by unfold takes; decide +kernel, by unfold risingKeys; decide +kernel, _, _, rfl, rfl,
    by unfold firstSeen; decide +kernel⟩

theorem test_meets_WhistleEventResults_settle : ∃ s : State, ∃ w : Whistle, w = { time := 1, frac := 0, dev := 0, tile := 767, eng := 0, cause := 0x22, info0 := 0 }
    ∧ s = waved { valid := true, winner := some w, lcycle := 5600 } { frozen := true } { freeze := [(1, 5601)] } ∧ (s.job 7).winner = some w
    ∧ (s.job 7).lcycle + 3400 = s.cycle ∧ (s.job 7).settled = false ∧ w.cause < 256 ∧ s.frozenTiles 7 = [767]
    ∧ (s.job 7).opened = true ∧ (s.job 7).valid = true ∧ s.servo.lock = false := ⟨_, _, rfl, rfl, by decide +kernel⟩

theorem test_meets_WhistleEventResults_release : ∃ s : State, s = waved { valid := true, settled := true, runState := 1, ref := 5600 } { frozen := true } { freeze := [(1, 5601)] }
    ∧ firstSeen s (heard 1) 7 1 ∧ firstSeen s (heard 2) 7 2 ∧ (s.job 7).valid = true ∧ (s.job 7).settled = true ∧ (s.job 7).runState = 1
    ∧ 767 ∈ s.frozenTiles 7 := ⟨_, rfl, by unfold firstSeen; decide +kernel⟩

theorem test_meets_WhistleEventResults_tile : ∃ s : State, ∃ h : Hidden, h = { epc := 1, enpc := 2, ennpc := 3, ebits := 0, ustate0 := 0, ustate1 := 0 }
    ∧ s = waved { valid := true, release := some 8999, stepFor := some 4, ref := 5600 } { frozen := true, hidden := some h } { freeze := [(1, 5601)] }
    ∧ (s.job 7).release = some 8999 ∧ (s.ctx 767 false).frozen = true ∧ (s.ctx 767 false).hidden = some h
    ∧ (s.ctx 767 false).jobId = (s.job 7).id ∧ s.cycle = 8999 + (((s.tile 767).freeze.look 0 1).toNat - (s.job 7).ref) :=
  ⟨_, _, rfl, rfl, by decide +kernel⟩

theorem test_meets_WhistleEventResults_again : ∃ s : State, s = waved { valid := true, release := some 8000, stepFor := some 4 } {}
    ∧ (s.job 7).release = some 8000 ∧ (s.job 7).stepFor = some 4 ∧ takes s 7 767 (s.ctx 767 false) := ⟨_, rfl, by unfold takes; decide +kernel⟩

theorem test_meets_WhistleEventResults_timeout : ∃ s : State, s = waved {} {} { stepping := some { eng := 4, whole := false, since := 0 } }
    ∧ (s.tile 767).stepping = some { eng := 4, whole := false, since := 0 } ∧ (s.ctx 767 (s.tile 767).run).hidden = none := ⟨_, rfl, by decide +kernel⟩

/-! ### Stewards, links, time, power (08 R257, 11, 12 R352, 10 R323, 13 R368 to R370, 15 R413 to R426) -/

/-- A shadow of steward 768 whose counter 15 gains one. -/
def shadowed (ahead : List Nat) : State :=
  { onTile { access := { ahead := ahead } } with
    shadows := [(3, { slot := 0, lo := 0, hi := 64, tables := [], root := 0, sig := some 15, steward := 768 })] }

theorem test_meets_StewardEventResults : ∃ h : Shadow, (shadowed []).shadows.find 3 = some h ∧ (∀ i, h.sig = some i → i < 16)
    ∧ (shadowed []).aheadOf 3 = false ∧ (shadowed [3]).aheadOf 3 = true ∧ (shadowed []).shadows.find 4 = none :=
  ⟨_, rfl, by simp, by decide +kernel⟩

/-- Entry 9 LOADING, its header read; a header that gives its lines at an unmapped address is one a load can meet. -/
def loading : State := (placed9.launch 9 0).1

theorem test_meets_StewardEventResults_launch : risingKeys loading.placed ∧ (loading.placement 9).state = 2
    ∧ (match loading.imageLines (loading.placement 9) (recField (loading.placement 9).header 0 4) 0 with
      | (_, .inr lines) => decide (lines.length ≤ 4096)
      | _ => false) = true
    ∧ (match loading.imageLines { loading.placement 9 with header := BitVec.ofNat 1024 (1 + 0x40000000 * 2 ^ 64) } 1 0 with
      | (_, .inl _) => true
      | _ => false) = true ∧ (loading.placement 8).state ≠ 2 ∧ (loading.placement 9).tiles = [0] := by unfold risingKeys; decide +kernel

/-- Entry 9 is being saved at virtual 0x2000; context A of tile 0 is parked. -/
def saving (x : Ctx) : State :=
  (placed9.modPlacement 9 fun e => { e with state := 5, saving := true, saveAs := some 0x2000 }).modCtx 0 false fun y =>
    { y with life := .parked, streams := x.streams }

theorem test_meets_StewardEventResults_save : ∃ e base, e = (saving {}).placement 9 ∧ base = 0x2000 ∧ risingKeys (saving {}).placed ∧ 3 ≤ e.state
    ∧ e.saving = true ∧ e.saveAs = some base ∧ e.tiles = [0]
    ∧ ((saving {}).ctx 0 e.bank).streams = []
    ∧ ((saving { streams := [(15, { kind := 0 })] }).ctx 0 e.bank).streams = [(15, { kind := 0 })]
    ∧ (match (saving {}).savePieces e ((saving {}).saveHead e base) with
      | (_, none) => true
      | _ => false) = true
    ∧ (match { saving {} with mem := [] }.savePieces e ((saving {}).saveHead e base) with
      | (_, some _) => true
      | _ => false) = true ∧ (placed9.placement 9).saving = false := ⟨_, _, rfl, rfl, by unfold risingKeys; decide +kernel⟩

/-- Entry 9 LOADING from the save area at 0x2000. -/
def restoring : State := (loads.place 9 0 0 (task 1) 0 0 false).modPlacement 9 fun e => { e with state := 2, saveAs := some 0x2000 }

theorem test_meets_StewardEventResults_restore : ∃ e, e = restoring.placement 9 ∧ risingKeys restoring.placed ∧ e.saveAs = some 0x2000 ∧ e.state = 2
    ∧ (match restoring.readHeader e with
      | (m, .inr h) => match m.imageLines { e with header := h } (recField h 0 4) 0 with
        | (_, .inr lines) => decide (lines.length ≤ 4096)
        | _ => false
      | _ => false) = true
    ∧ (match { restoring with mem := [] }.readHeader e with
      | (_, .inl _) => true
      | _ => false) = true ∧ (placed9.placement 9).saveAs = none := ⟨_, rfl, by unfold risingKeys; decide +kernel⟩

theorem test_meets_StewardEventResults_wait : ∃ s : State, s = { onSteward {} with units := [(768, { started := true, lmon := { line := some 0x40, asleep := true } })] }
    ∧ (s.tile 768).lmon.asleep = true ∧ ((onSteward {}).tile 768).lmon.asleep = false := ⟨_, rfl, by decide +kernel⟩

/-- Job 5 maps line 0x2_0000 of its HBM; the stamp there is 2^19 phases old, and one of the phase before. -/
theorem test_meets_StewardEventResults_sweep : ∃ s : State, s = { onTile {} with
        jobs := [(7, { opened := true, id := 5, phase := 2 ^ 19, ranges := [(0, 0x8000000000000000), (1, 0x800000)] })], stamps := [(0, 5), (1, 0x7FFFF005)] }
    ∧ (s.job 7).opened = true ∧ (s.job 7).tracks 0 = true ∧ (∀ i, i < 7 → (s.job i).opened = false)
    ∧ 2 ^ 19 ≤ ((s.job 7).phase % 2 ^ 20 + 2 ^ 20 - (s.stamp 0).toNat / 4096) % 2 ^ 20
    ∧ ((s.job 7).phase % 2 ^ 20 + 2 ^ 20 - (s.stamp 1).toNat / 4096) % 2 ^ 20 < 2 ^ 19 := ⟨_, rfl, by decide +kernel⟩

theorem test_meets_LinkAndTimeResults : ∃ s : State, s = { onTile {} with links := [(311, { state := 3, tries := 3 }), (310, { state := 1 })] }
    ∧ (s.links.look {} 311).state = 3 ∧ ¬ (s.links.look {} 311).tries < 3 ∧ (s.links.look {} 309).tries < 3 ∧ (s.links.look {} 310).state = 1
    ∧ stewardAgent 0x60F = true ∧ stewardAgent 0x610 = false ∧ (s.links.look {} 310).state ≠ 3 := ⟨_, rfl, by decide +kernel⟩

/-- Time messages leave by port 0 where it is UP, and by none where no port is. -/
theorem test_meets_LinkAndTimeResults_port : timePort { onTile {} with links := [(0, { state := 1 })] } (some 0) ∧ timePort (onTile {}) none := by
  refine ⟨⟨fun q h => ?_, by simp⟩, by simp, fun _ q _ => ?_⟩
  · cases h; exact ⟨by omega, by decide +kernel, fun r h => absurd h (by omega)⟩
  · show ¬ (0 = 1 ∨ 0 = 2)
    decide

/-- A module whose time servo is as given. -/
def timed (x : Servo) : State := { onTile {} with servo := x }

theorem test_meets_LinkAndTimeResults_roles : ∃ a b : Word, (timed { config := a }).servo.isMaster = true ∧ (timed { config := b }).servo.isMaster = false
    ∧ (timed { config := b }).power = true ∧ (timed { config := b }).servo.domain = 0 := ⟨0x700, 0x600, by decide +kernel⟩

theorem test_meets_LinkAndTimeResults_follow : (timed { pending := some { domain := 0, seq := 3, origin := 0, received := 0 } }).servo.pending
    = some { domain := 0, seq := 3, origin := 0, received := 0 } ∧ (timed {}).servo.pending = none ∧ (timed {}).servo.domain = 0 := by decide +kernel

/-- A module in a stage of its start-up. -/
def starting (b : Boot) : State := { State.reset with boot := { b with aux := true } }

/-- An image that no check takes: its magic is wrong. -/
def badImage (kind : Nat) : SignedImage :=
  { magic := 0, kind := kind, svn := 0, length := 0, digest := 0, esig := 0, lsig := 0, reservedZero := true, body := [] }

theorem test_meets_PowerEventResults : (starting {}).boot.aux = true ∧ State.reset.boot.aux = false ∧ (starting { stage := 1 }).boot.failed = false
    ∧ (starting { stage := 1 }).boot.image 1 = none ∧ (starting { stage := 1, images := [badImage 1] }).boot.image 1 = some (badImage 1)
    ∧ imageCheck (badImage 1) 1 ≠ 0 ∧ imageCheck (badImage 2) 2 ≠ 0 ∧ (starting { stage := 7, images := [badImage 2] }).boot.image 2 = some (badImage 2)
    ∧ ((starting { stage := 7 }).tile 768).started = false := by
  refine ⟨rfl, rfl, rfl, rfl, rfl, ?_, ?_, rfl, rfl⟩ <;> simp [imageCheck, badImage]

/-- Configuration: no image of kind 3 leaves the module as it is; one that is no image of it ends with its code. -/
theorem test_meets_PowerEventResults_configuration : (starting { stage := 3 }).configure [] = .inl (starting { stage := 3 })
    ∧ (starting { stage := 3 }).configure [badImage 4] = .inr 5 := ⟨rfl, by simp [State.configure, badImage]⟩

theorem test_meets_PowerEventResults_results : ({ badUnit := some 767 } : StageResult).badUnit = some 767 ∧ ({} : StageResult).badUnit = none
    ∧ ({ badStack := true } : StageResult).badStack = true ∧ ({ badSublink := true } : StageResult).badStack = false
    ∧ ({ nuton := 7 } : StageResult).nuton < 8 ∧ 8 ≤ ({ nuton := 8 } : StageResult).nuton := by decide

theorem test_meets_PowerEventResults_heat : State.reset.sensors.warn ≤ 380 ∧ 379 < State.reset.sensors.warn ∧ State.reset.sensors.critical ≤ 420
    ∧ 419 < State.reset.sensors.critical ∧ State.reset.sensors.hot.find 31 = none ∧ ((phased {} {}).job 7).opened = true
    ∧ ((phased {} {}).job 7).valid = false := by decide +kernel

/-! ### Agents, the host, the sideband (07 R218, 08 R234, 15 R417 to R423) -/

theorem test_meets_AgentAndHostResults : controlEvent (.barrierPlaneWrite 0 7 71) = some (0, 0x50838) ∧ stewardAgent 0 = false
    ∧ agentPlace 0x5FF = some (767, true) ∧ agentPlace 0x60F = some (783, false) ∧ controlEvent (.retrainWrite 0xFFF 71) = some (0xFFF, 0x308E0)
    ∧ stewardAgent 0xFFF = false := by decide +kernel

theorem test_meets_AgentAndHostResults_quiet : stewardAgent 0x600 = true ∧ (phased { begun := true } {}).quiet 0 false = false
    ∧ (phased { begun := true } { frozen := true }).quiet 0 false = true ∧ (onTile {}).quiet 0 false = true
    ∧ (onSteward {}).quiet 768 false = false := by decide +kernel

theorem test_meets_AgentAndHostResults_windows : (onTile {}).badPA true (2 ^ 40) = some 1 ∧ (onTile {}).badPA false 0x10000 = none
    ∧ (0x10000 : Nat) / 2 ^ 52 ≠ 0xE ∧ windowPA 767 0 = windowPA 767 (scratchSize 767 - 8) - (scratchSize 767 - 8)
    ∧ (phased { begun := true } {}).acceptance 0 0 false = .refused ∧ (onTile {}).acceptance 0 0 false = .accepted
    ∧ (onTile {}).badPA false (windowPA 0 0) = none := by decide +kernel

/-- A debugger in a session; job 5 in slot 7 is frozen and may be released. -/
def debugging (p : Spdm) : State :=
  { waved { valid := true, settled := true, runState := 1 } { frozen := true } with spdm := { p with session := true }, boot := { aux := true } }

/-- The first word of a context's scratchpad: it takes a write while the context is quiet. -/
theorem test_meets_AgentWriteResults_pad : plainPad (onTile {}) 0 0 8 ∧ allAccepted (onTile {}) 0 0 8 true
    ∧ plainPad (phased { begun := true } {}) 0 0 8 ∧ someRefused (phased { begun := true } {}) 0 0 8 true
    ∧ someRefused (phased { begun := true } {}) 0 0 8 false ∧ (phased { begun := true } {}).flips = [] := by
  refine ⟨by unfold plainPad; decide +kernel, fun w _ h => ?_, by unfold plainPad; decide +kernel, ⟨0, by omega, by omega, by decide +kernel⟩,
    ⟨0, by omega, by omega, by decide +kernel⟩, rfl⟩
  obtain rfl : w = 0 := by omega
  decide +kernel

/-- The same words under a debug session. -/
theorem test_meets_DebugMessageResults_pad : plainPad (debugging {}) 767 0 8 ∧ allAccepted (debugging {}) 767 0 8 true
    ∧ (debugging {}).flips = [] ∧ ∃ s : State, s = { waved { begun := true } {} with spdm := { session := true } } ∧ s.spdm.session = true
      ∧ plainPad s 767 0 8 ∧ someRefused s 767 0 8 true ∧ s.badPA true (windowPA 767 0) = none := by
  refine ⟨by unfold plainPad; decide +kernel, fun w _ h => ?_, rfl, _, rfl, rfl, by unfold plainPad; decide +kernel,
    ⟨0, by omega, by omega, by decide +kernel⟩, by decide +kernel⟩
  obtain rfl : w = 0 := by omega
  decide +kernel

theorem test_meets_AgentAndHostResults_host : (onTile {}).power = true ∧ ((2 ^ 40 - 64) + min 64 64 ≤ 2 ^ 40)
    ∧ (linesOf (2 ^ 40 - 64) 64) = [2 ^ 34 - 1] ∧ 0x11000000000 + 0xFFFFFFF8 < 0x11100000000 ∧ State.reset.power = false
    ∧ (onTile {}).acceptance 783 0 false = .accepted := by decide +kernel

theorem test_meets_SidebandResults : (starting {}).boot.aux = true ∧ State.reset.boot.aux = false
    ∧ (attestRequest (.getVersion [])).isSome = true ∧ (starting {}).spdm.versionDone = false ∧ (starting {}).boot.aliasKey = none
    ∧ (starting { aliasKey := some 1 }).boot.aliasKey = some 1 ∧ reqByte [0, 0, 0, 5] 3 = 5 ∧ reqByte [0, 0, 0, 6] 3 = 6
    ∧ reqByte [0, 0, 1, 0xFF] 2 % 2 = 1 ∧ (starting {}).sensorReading 20 = some 0 ∧ (starting {}).sensorReading 1000 = none := by decide +kernel

theorem test_meets_SidebandResults_debug : (debugging {}).spdm.session = true ∧ debugMessage .debugReset = true ∧ (starting {}).spdm.session = false
    ∧ (debugging {}).jobSlot 5 = some 7 ∧ (debugging {}).jobSlot 6 = none ∧ (debugging {}).mayRelease 7 = true
    ∧ (debugging {}).mayStep 767 = true ∧ (debugging {}).mayStep (767 + 5 * 4096) = false ∧ (debugging {}).badPA true (windowPA 767 0) = none
    ∧ ((debugging {}).badPA true (2 ^ 40)).isSome = true ∧ (debugging {}).badPA true (0xF * 2 ^ 52 + 0xFFFFFFF8) = none
    ∧ (debugging {}).acceptance 767 0 false = .accepted ∧ ((phased {} {}).job 7).valid = false
    ∧ (debugging {}).ns + 4000 ≤ 2 ^ 32 := by decide +kernel

/-! ### The step, the decoder and the invariant -/

/-- The module with a slot of engine `e` where its next step fetches it. -/
def onSlot (e : Nat) (w : Slot) : State := State.reset.withFetchWord 64 (w.toNat + e * 2 ^ 60)

theorem test_meets_StepRunsDecodedInstruction : isRow (.monitorWake 768) (.monitorWake 768) ∧ ({ onTile {} with inbox := [.monitorWake 768] }).inbox = [.monitorWake 768]
    ∧ State.reset.inbox = [] ∧ State.reset.power = false ∧ (onTile {}).ready = [] ∧ (onTile {}).ended = false
    ∧ ({ onTile {} with ended := true }).ended = true := ⟨rfl, rfl, rfl, rfl, rfl, rfl, rfl⟩

/-- ADDI s0, s0, 0 at position 0 of tile 0, as the core's turn comes. -/
theorem test_meets_StepRunsDecodedInstruction_core : ∃ m n, coreStands (onSlot 0 0x0200000000000000) m n 0
    ∧ n.me.queue.f0 = { pos := some 0, slot := some (0x0200000000000000, some 0), annul := false, link := n.linkWord 0 0 } ∧ m.me.ust = 0
    ∧ lineReady n 0 0x0200000000000000 0 (n.linkWord 0 0) ∧ decodeSlot (isSteward 0) 0 0x0200000000000000 (some 0) = .instr (.addi { imm := 0 }) :=
  ⟨_, _, ⟨⟨by decide +kernel, by decide +kernel, by decide +kernel, [], by decide +kernel, rfl, by decide +kernel⟩, by decide +kernel, rfl⟩, by decide +kernel,
    by decide +kernel, ⟨by decide +kernel, fun _ _ _ _ => ⟨rfl, rfl⟩, by decide +kernel⟩, by decide +kernel⟩

/-- The same instruction's entry annulled; a division at micro-step 4. -/
theorem test_meets_AnnulledEntriesPass : ∃ s m n, s = (onSlot 0 0x0200000000000000).modCtx 0 false
      (fun x => { x with queue := { x.queue with f0 := { x.queue.f0 with annul := true } } })
    ∧ coreStands s m n 0 ∧ n.me.queue.f0.annul = true :=
  ⟨_, _, _, rfl, ⟨⟨by decide +kernel, by decide +kernel, by decide +kernel, [], by decide +kernel, rfl, by decide +kernel⟩, by decide +kernel, rfl⟩, by decide +kernel⟩

/-- Tile 0 awaits a result for s2, its stack limit 4. -/
def awaiting (r : Late) : State := (onSlot 0 0x0200000000000000).modCtx 0 false fun x => { x with late := some r, slim := 4 }

/-- A result above the limit and one below it, both due; one whose cycle no unit has given yet. -/
theorem test_meets_LateResultsReachS2 : ∃ m, coreActing (awaiting { at_ := some 0, v := 5 }) m 0 ∧ m.me.late = some { at_ := some 0, v := 5 }
    ∧ m.me.belowLimit 2 5 = false ∧ 0 ≤ (awaiting { at_ := some 0, v := 5 }).cycle :=
  ⟨_, ⟨by decide +kernel, by decide +kernel, by decide +kernel, [], by decide +kernel, rfl, by decide +kernel⟩, by decide +kernel, by decide +kernel,
    by decide +kernel⟩

theorem test_meets_LateResultsReachS2_limit : ∃ m, coreActing (awaiting { at_ := some 0, v := 3 }) m 0 ∧ m.me.late = some { at_ := some 0, v := 3 }
    ∧ m.me.belowLimit 2 3 = true ∧ m.reports 0x06 = false :=
  ⟨_, ⟨by decide +kernel, by decide +kernel, by decide +kernel, [], by decide +kernel, rfl, by decide +kernel⟩, by decide +kernel, by decide +kernel,
    by decide +kernel⟩

theorem test_meets_LateResultsReachS2_wait : ∃ m, coreActing (awaiting { at_ := none }) m 0 ∧ m.me.late = some { at_ := none } :=
  ⟨_, ⟨by decide +kernel, by decide +kernel, by decide +kernel, [], by decide +kernel, rfl, by decide +kernel⟩, by decide +kernel⟩

theorem test_meets_StepRunsDecodedInstruction_micro : ∃ s m n, s = (onSlot 0 0x0060000000000000).modCtx 0 false (fun x => { x with ust := 4 })
    ∧ coreStands s m n 0 ∧ n.me.queue.f0 = { pos := some 0, slot := some (0x0060000000000000, some 0), annul := false, link := n.linkWord 0 0 }
    ∧ m.me.ust ≠ 0 ∧ m.me.unchecked = false ∧ n.multiHere.isSome = true :=
  ⟨_, _, _, rfl, ⟨⟨by decide +kernel, by decide +kernel, by decide +kernel, [], by decide +kernel, rfl, by decide +kernel⟩, by decide +kernel, rfl⟩, by decide +kernel,
    by decide +kernel⟩

/-- VFMA of 02 on the vector strip. -/
theorem test_meets_StepRunsDecodedInstruction_strip : ∃ n, n = { onSlot 3 0x0040200707824A21 with ready := [], cur := { unit := 0, eng := 3 } }
    ∧ (onSlot 3 0x0040200707824A21).inbox = [] ∧ (onSlot 3 0x0040200707824A21).power = true ∧ ((onSlot 3 0x0040200707824A21).tile 0).stepping = none
    ∧ (onSlot 3 0x0040200707824A21).ready = [{ unit := 0, eng := 3 }] ∧ n.here.stripActs 3 n.cycle = true ∧ n.strip.pos = 0
    ∧ n.fetch 0 n.bank 0 = some (0x0040200707824A21, some 0) ∧ n.strip.slot = none
    ∧ lineReady n 3 0x0040200707824A21 0 (n.linkWord 0 0)
    ∧ (match decodeSlot (isSteward 0) 3 0x0040200707824A21 (some 0) with
      | .instr (.vfma _ _) => true
      | _ => false) = true :=
  ⟨_, rfl, by decide +kernel, by decide +kernel, by decide +kernel, by decide +kernel, by decide +kernel, by decide +kernel, by decide +kernel,
    by decide +kernel, ⟨by decide +kernel, fun _ _ _ _ => ⟨rfl, rfl⟩, by decide +kernel⟩, by decide +kernel⟩

/-- MMA of 02 on the matrix strip, its first micro-steps made. -/
theorem test_meets_StepRunsDecodedInstruction_strip_micro : ∃ n, n = ({ onSlot 2 0x0040A0203F819000 with ready := [], cur := { unit := 0, eng := 2 } }).modMe
      (fun x => x.setStrip 2 { x.strip 2 with ust := 3, slot := some (0x0040A0203F819000, some 0) }) ∧ n.strip.slot.isSome = true ∧ n.multiHere.isSome = true ∧ n.here.stripActs 2 n.cycle = true :=
  ⟨_, rfl, by decide +kernel⟩

theorem test_meets_EncodingsDecodeBack : ∃ w, WellFormed (.addi { imm := 0 }) ∧ encode (.addi { imm := 0 }) = some (w, none)
    ∧ engineOf (.addi { imm := 0 }) = some 0 ∧ privilegedOp 0 w.op = false := ⟨0x0200000000000000, by decide +kernel⟩

theorem test_meets_StepsKeepMemoryCanonical : Memory.wf (onSlot 0 0x0200000000000000).mem = true
    ∧ ∃ t, step (onSlot 0 0x0200000000000000) = .next t := ⟨by decide +kernel, _, rfl⟩

end Sys2Proof.Tests
end

section
/-!
SUPPORT. The clock of the module: the operations of a cycle's end and beginning leave it, but for the one that sets the next cycle.
-/
namespace Sys2Proof.Machine

/-- What the passing of a cycle is told by: the cycle, device time, the servo, and whether the cycle's end has been worked out. -/
def State.clock (s : State) : Nat × Nat × Servo × Bool := (s.cycle, s.time, s.servo, s.ended)

/-- What each step of a fold leaves, the fold leaves. -/
theorem foldl_keeps {α β σ : Type} (g : σ → β) {f : σ → α → σ} (hf : ∀ s a, g (f s a) = g s) (l : List α) (s : σ) :
    g (l.foldl f s) = g s := by
  induction l generalizing s with
  | nil => rfl
  | cons a l ih => rw [List.foldl_cons, ih, hf]

@[simp] theorem State.clock_mod (s : State) (u : Nat) (f : Tile → Tile) : (s.mod u f).clock = s.clock := rfl

/-! ### Packets and the ports -/

@[simp] theorem State.clock_dieSample (s : State) (die src sel v : Nat) : (s.dieSample die src sel v).clock = s.clock := by
  unfold State.dieSample; split <;> rfl

@[simp] theorem State.clock_carryPacket (s : State) (n : Nat) (plane : Option Nat) (p : Packet) :
    (s.carryPacket n plane p).clock = s.clock := by
  unfold State.carryPacket
  simp only []
  split
  · split <;> rfl
  · split
    · rfl
    · split
      · rfl
      · exact State.clock_dieSample ..

@[simp] theorem State.clock_postService (s : State) (p : Packet) : (s.postService p).clock = s.clock := State.clock_carryPacket ..

@[simp] theorem State.clock_sendRed (s : State) (w : Nat) (p : Packet) : (s.sendRed w p).clock = s.clock := State.clock_carryPacket ..

@[simp] theorem State.clock_inject (s : State) (u : Nat) (plane : Option Nat) (p : Packet) :
    (s.inject u plane p).clock = s.clock := by
  unfold State.inject
  simp only []
  split
  · rfl
  · rw [State.clock_carryPacket]; rfl

@[simp] theorem State.clock_launchOrdered (s : State) (u : Nat) (k : Kept) : (s.launchOrdered u k).clock = s.clock := by
  unfold State.launchOrdered
  simp only []
  rw [State.clock_inject]; rfl

@[simp] theorem State.clock_launchOrWait (s : State) (u : Nat) (k : Kept) : (s.launchOrWait u k).clock = s.clock := by
  unfold State.launchOrWait
  simp only []
  split
  · exact State.clock_launchOrdered ..
  · rfl

@[simp] theorem State.clock_launchWaiting (s : State) (u : Nat) : (s.launchWaiting u).clock = s.clock := by
  unfold State.launchWaiting
  simp only []
  split
  · rfl
  · refine foldl_keeps State.clock (fun s k => ?_) _ _
    split
    · rfl
    · exact State.clock_launchOrWait ..

@[simp] theorem State.clock_drainPorts (s : State) : s.drainPorts.clock = s.clock :=
  foldl_keeps State.clock (fun s _ => State.clock_carryPacket s _ _ _) _ _

@[simp] theorem State.clock_flushWindow (s : State) (w dev : Nat) : (s.flushWindow w dev).clock = s.clock := by
  unfold State.flushWindow
  simp only []
  split
  · rw [State.clock_sendRed]; rfl
  · split <;> rfl

@[simp] theorem State.clock_flushWindows (s : State) : s.flushWindows.clock = s.clock := by
  refine foldl_keeps State.clock (fun s w => ?_) _ _
  split
  · split
    · split
      · exact State.clock_flushWindow ..
      · rfl
    · rfl
  · rfl

/-! ### The end of a tile's cycle -/

@[simp] theorem State.clock_landLoad (s : State) (r : Nat) (c : Bool) (u a n : Nat) (sg pr : Bool) (d : Nat) :
    (s.landLoad r c u a n sg pr d).clock = s.clock := by
  unfold State.landLoad
  simp only []
  split
  · rfl
  · split <;> rfl

@[simp] theorem State.clock_serveSibling (s : State) (u : Nat) (c : Bool) : (s.serveSibling u c).clock = s.clock := by
  unfold State.serveSibling
  split
  · simp only []
    split
    · rfl
    · exact State.clock_landLoad ..
  · rfl

@[simp] theorem State.clock_checkArrival (s : State) (u : Nat) : (s.checkArrival u).clock = s.clock := by
  unfold State.checkArrival
  simp only []
  split
  · rfl
  · split
    · split <;> rfl
    · split
      · rfl
      · split
        · split <;> rfl
        · rfl

@[simp] theorem State.clock_closeTile (s : State) (u : Nat) : (s.closeTile u).clock = s.clock := by
  unfold State.closeTile
  simp only [State.clock_checkArrival]
  exact (State.clock_launchWaiting _ u).trans (State.clock_serveSibling ..)

/-! ### The boundary units -/

@[simp] theorem State.clock_sendPulse (s : State) (j n : Nat) : (s.sendPulse j n).clock = s.clock := by
  refine foldl_keeps State.clock (fun s u => ?_) _ _
  rfl

@[simp] theorem State.clock_kickoff (s : State) (j : Nat) : (s.kickoff j).clock = s.clock := by
  unfold State.kickoff
  simp only []
  split
  · split
    · rfl
    · split
      · exact State.clock_sendPulse ..
      · rfl
  · split
    · exact State.clock_sendPulse ..
    · rfl

@[simp] theorem State.clock_countStraggle (s : State) (j : Nat) : (s.countStraggle j).clock = s.clock := by
  unfold State.countStraggle
  simp only []
  split
  · split <;> rfl
  · split <;> rfl

@[simp] theorem State.clock_sendBarrier (s : State) (j : Nat) : (s.sendBarrier j).clock = s.clock := by
  unfold State.sendBarrier
  simp only []
  split
  · rfl
  · exact State.clock_carryPacket ..

@[simp] theorem State.clock_boundaryUnit (s : State) (j : Nat) : (s.boundaryUnit j).clock = s.clock := by
  have count := s.clock_countStraggle j
  unfold State.boundaryUnit
  simp only []
  split
  · rfl
  · split
    · exact State.clock_kickoff ..
    · split
      · split <;> exact count
      · split
        · split
          · exact count
          · exact (State.clock_sendBarrier ..).trans count
        · split <;> exact count

/-! ### Gangs, queues and suspensions -/

@[simp] theorem State.clock_noteLeaving (s : State) : s.noteLeaving.clock = s.clock := by
  refine foldl_keeps State.clock (fun s e => ?_) _ _
  rfl

@[simp] theorem State.clock_updateReady (s : State) : s.updateReady.clock = s.clock := by
  refine foldl_keeps State.clock (fun s e => ?_) _ _
  simp only []
  split <;> rfl

@[simp] theorem State.clock_chooseReserving (s : State) : s.chooseReserving.clock = s.clock := by
  unfold State.chooseReserving
  extract_lets waits m
  have hm : m.clock = s.clock := by
    unfold m
    split
    · split <;> rfl
    · rfl
  split
  · exact hm
  · split <;> exact hm

@[simp] theorem State.clock_makeRoom (s : State) (u : Nat) (c : Bool) : (s.makeRoom u c).clock = s.clock := by
  unfold State.makeRoom; split <;> rfl

@[simp] theorem State.clock_fetchMatrix (s : State) (u : Nat) (c : Bool) : (s.fetchMatrix u c).clock = s.clock := by
  unfold State.fetchMatrix; rfl

@[simp] theorem State.clock_takeTile (s : State) (u : Nat) (c : Bool) : (s.takeTile u c).clock = s.clock := by
  unfold State.takeTile
  rw [State.clock_mod, State.clock_fetchMatrix, State.clock_makeRoom]

@[simp] theorem State.clock_noteSuspension (s : State) (j n : Nat) : (s.noteSuspension j n).clock = s.clock := by
  unfold State.noteSuspension
  extract_lets b gangs away gone
  split
  · rfl
  · split
    · split <;> rfl
    · split
      · split
        · exact State.clock_sendPulse ..
        · rfl
      · rfl

@[simp] theorem State.clock_noteSuspensions (s : State) (n : Nat) : (s.noteSuspensions n).clock = s.clock :=
  foldl_keeps State.clock (fun s j => State.clock_noteSuspension s j n) _ _

@[simp] theorem State.clock_rejoin (s : State) : s.rejoin.clock = s.clock := by
  unfold State.rejoin
  extract_lets back m
  split
  · rfl
  · rw [State.clock_noteSuspensions]
    refine foldl_keeps State.clock (fun s e => ?_) _ _
    refine foldl_keeps State.clock (fun s u => ?_) _ _
    exact State.clock_takeTile ..

@[simp] theorem State.clock_tellSensors (s : State) : s.tellSensors.clock = s.clock := by
  unfold State.tellSensors
  extract_lets now changed m
  have hm : m.clock = s.clock := by
    refine foldl_keeps State.clock (fun s e => ?_) _ _
    rfl
  split
  · rfl
  · exact hm

/-! ### Probes -/

@[simp] theorem State.clock_bindCircuit (s : State) (p : Packet) (a b n : Nat) : (s.bindCircuit p a b n).clock = s.clock := by
  unfold State.bindCircuit
  simp only []
  split
  · rw [State.clock_postService]; rfl
  · rw [State.clock_postService]
    split <;> rfl

@[simp] theorem State.clock_failProbe (s : State) (p : Packet) (cause : Nat) : (s.failProbe p cause).clock = s.clock :=
  State.clock_postService ..

@[simp] theorem State.clock_probeThrough (s : State) (q : Probing) : (s.probeThrough q).clock = s.clock := by
  unfold State.probeThrough
  simp only []
  split
  · exact State.clock_bindCircuit ..
  · split
    · rfl
    · exact State.clock_bindCircuit ..

theorem State.clock_backtrack (s : State) (q : Probing) (k : Probing → State) (hk : ∀ q, (k q).clock = s.clock) :
    (s.backtrack q k).clock = s.clock := by
  unfold State.backtrack
  simp only []
  split
  · exact State.clock_failProbe ..
  · exact hk _

@[simp] theorem State.clock_tryPlanes (s : State) (q : Probing) (ps : List Nat) : (s.tryPlanes q ps).clock = s.clock := by
  unfold State.tryPlanes
  simp only []
  split
  · exact State.clock_failProbe ..
  · rfl

@[simp] theorem State.clock_probeBlocked (s : State) (q : Probing) : (s.probeBlocked q).clock = s.clock := by
  unfold State.probeBlocked
  split
  · exact State.clock_backtrack _ _ _ fun _ => rfl
  · split
    · exact State.clock_postService ..
    · split
      · exact State.clock_backtrack _ _ _ fun q => State.clock_tryPlanes s q _
      · exact State.clock_failProbe ..

theorem State.clock_moveProbe (s : State) (granted : List Nat) (q : Probing) : (s.moveProbe granted q).1.clock = s.clock := by
  unfold State.moveProbe
  split
  · rfl
  · split
    · exact State.clock_probeThrough ..
    · simp only []
      split
      · exact State.clock_probeBlocked ..
      · split
        · rfl
        · refine (foldl_keeps State.clock (fun s e => ?_) _ s :)
          rfl

@[simp] theorem State.clock_moveProbes (s : State) : s.moveProbes.clock = s.clock := by
  unfold State.moveProbes
  extract_lets qs
  refine foldl_keeps (fun acc : State × List Nat => acc.1.clock) (fun acc e => ?_) qs ({ s with probes := [] }, [])
  exact State.clock_moveProbe acc.1 acc.2 e.2

/-! ### The end of a cycle -/

@[simp] theorem State.clock_dueDrains (s : State) : s.dueDrains.clock = s.clock := by
  unfold State.dueDrains
  extract_lets m n back
  have hm : m.clock = s.clock := by
    refine foldl_keeps State.clock (fun s e => ?_) _ _
    split <;> rfl
  have hn : n.clock = m.clock := by
    refine foldl_keeps State.clock (fun s e => ?_) _ _
    refine foldl_keeps State.clock (fun s b => ?_) _ _
    rfl
  exact hn.trans hm

/-- The end of a cycle is worked out within it: the clock stands. -/
theorem State.clock_closeCycle (s : State) : s.closeCycle.clock = (s.cycle, s.time, s.servo, true) := by
  unfold State.closeCycle
  extract_lets tiles a b c
  have ha : a.clock = s.clock := foldl_keeps State.clock (fun s u => State.clock_closeTile s u) _ _
  have hb : b.clock = s.clock := by
    rw [← ha, ← State.clock_noteLeaving a]
    exact foldl_keeps State.clock (fun s j => State.clock_boundaryUnit s j) _ _
  have hc : c.moveProbes.dueFlows.dueDrains.clock = s.clock := by
    rw [State.clock_dueDrains, ← hb]
    show c.moveProbes.clock = b.clock
    simp [c]
  simp only [State.clock, Prod.mk.injEq, and_true] at hc ⊢
  obtain ⟨hcycle, htime, hservo, -⟩ := hc
  exact ⟨hcycle, htime, hservo⟩

/-! ### Stores, traces and rows -/

@[simp] theorem State.clock_clearLines (s : State) (pa n : Nat) : (s.clearLines pa n).clock = s.clock := by
  refine foldl_keeps State.clock (fun s l => ?_) _ _
  rfl

@[simp] theorem State.clock_clearWords (s : State) (ws : List Nat) : (ws.foldl State.clearPoison s).clock = s.clock := by
  refine foldl_keeps State.clock (fun s w => ?_) _ _
  rfl

@[simp] theorem State.clock_fireInjection (s : State) (pa n : Nat) : (s.fireInjection pa n).clock = s.clock := by
  unfold State.fireInjection
  simp only []
  split
  · split
    · split <;> rfl
    · rfl
  · rfl

@[simp] theorem State.clock_wakeMonitors (s : State) (b : Option Nat) (pa n : Nat) : (s.wakeMonitors b pa n).clock = s.clock := by
  unfold State.wakeMonitors
  split
  · refine foldl_keeps State.clock (fun s e => ?_) _ _
    rfl
  · rfl

@[simp] theorem State.clock_storePA (s : State) (pa n v : Nat) (b : Option Nat) : (s.storePA pa n v b).clock = s.clock := by
  unfold State.storePA
  rw [State.clock_wakeMonitors, State.clock_fireInjection, State.clock_clearWords, State.clock_clearLines]
  rfl

@[simp] theorem State.clock_traceWrite (s : State) (u : Nat) (a b : Word) : (s.traceWrite u a b).clock = s.clock := by
  unfold State.traceWrite
  simp only []
  split
  · rfl
  · rw [State.clock_mod, State.clock_storePA]

@[simp] theorem State.clock_traceFlush (s : State) (u : Nat) : (s.traceFlush u).clock = s.clock := by
  unfold State.traceFlush
  extract_lets p sorted m
  split
  · rfl
  · exact foldl_keeps State.clock (fun s e => State.clock_traceWrite s u _ _) _ _

@[simp] theorem State.clock_writeRow (s : State) (u a n v bad : Nat) : (s.writeRow u a n v bad).clock = s.clock := by
  unfold State.writeRow
  extract_lets b stored poisoned
  have hp : poisoned.clock = stored.clock := by
    unfold poisoned
    split
    · rfl
    · refine foldl_keeps State.clock (fun s i => ?_) _ _
      split <;> rfl
  rw [State.clock_mod, hp]
  exact State.clock_storePA ..

@[simp] theorem State.clock_landRow (s : State) (u : Nat) (r : RowDue) : (s.landRow u r).clock = s.clock := by
  unfold State.landRow
  split
  · exact State.clock_writeRow ..
  · rfl

@[simp] theorem State.clock_landRows (s : State) (u : Nat) : (s.landRows u).clock = s.clock :=
  foldl_keeps State.clock (fun s r => State.clock_landRow s u r) _ _

@[simp] theorem State.clock_countRoute (s : State) (p : Packet) : (s.countRoute p).clock = s.clock :=
  State.clock_postService ..

@[simp] theorem State.clock_grantRoutes (s : State) : s.grantRoutes.clock = s.clock := by
  unfold State.grantRoutes
  refine foldl_keeps State.clock (fun s e => ?_) _ _
  refine (foldl_keeps State.clock (fun s p => ?_) e.2.waiting _).trans rfl
  change (if _ then _ else s.countRoute p : State).clock = s.clock
  split
  · rfl
  · exact State.clock_countRoute ..

/-! ### The beginning of a cycle -/

/-- The next cycle begins one cycle later and, in device time, one step of the clock. -/
theorem State.clock_nextCycle (s : State) :
    s.nextCycle.clock = (s.cycle + 1, s.time + s.timeStep, s.servo, false) := by
  unfold State.nextCycle
  extract_lets flushed now begun landed back lands ours inbox m
  have hf : flushed.clock = s.clock := foldl_keeps State.clock (fun s e => State.clock_traceFlush s _) _ _
  have hl : landed.clock = begun.clock := by
    refine (foldl_keeps State.clock (fun s e => ?_) begun.units _).trans (State.clock_grantRoutes begun)
    split
    · rfl
    · exact State.clock_landRows ..
  simp only [State.clock, Prod.mk.injEq] at hf
  obtain ⟨hcycle, htime, hservo, -⟩ := hf
  have hstep : flushed.timeStep = s.timeStep := by rw [State.timeStep, hservo, hcycle]; rfl
  show landed.clock = _
  rw [hl]
  simp only [State.clock, begun, now, hcycle, htime, hservo, hstep]

/-- Device time gains 20/17 ns in a cycle, within 50 ppm while the servo steers the clock (13 R368). -/
theorem State.timeStep_bounds (s : State) : 1310655 ≤ s.timeStep ∧ s.timeStep ≤ 1310785 := by
  unfold State.timeStep steered timePerCycle
  split <;> omega

/-- Device time gains 20/17 ns in a cycle while the servo has no lock. -/
theorem State.timeStep_free {s : State} (h : s.servo.lock = false) : s.timeStep = 1310720 := by
  simp [State.timeStep, h, timePerCycle]

end Sys2Proof.Machine
end

section
/-!
PROOF. A step serves the due event, or gives its engine the turn, or ends the cycle, or begins the next one (01 R12, R15, R29;
02 R43 to R46; 04 R107, R108).
-/
open Sys2Proof Sys2Proof.Machine Sys2Proof.Claims
namespace Sys2Proof.Machine

/-! ### Which part of a step acts -/

/-- A due event has the meaning of its row of the opcode table. -/
theorem serve_of_isRow {e : Event} {i : Instr} (h : isRow e i) (s : State) : serve e s = exec i s := by
  cases e
  case outside => cases h
  all_goals
    cases h
    rfl

theorem step_event {s : State} {e : Event} {rest : List Event} (h : s.inbox = e :: rest) :
    step s = serve e { s with inbox := rest } := by
  simp only [step, h]

theorem step_poweredOff {s : State} (hi : s.inbox = []) (hp : s.power = false) : step s = .fault .poweredOff := by
  simp [step, hi, hp]

theorem step_turn {s : State} {a : Agent} {rest : List Agent} (hi : s.inbox = []) (hp : s.power = true) (hr : s.ready = a :: rest) :
    step s = turn a { s with ready := rest } := by
  simp [step, hi, hp, hr]

theorem step_cycle {s : State} (hi : s.inbox = []) (hp : s.power = true) (hr : s.ready = []) :
    step s = .next (if s.ended then s.nextCycle else s.closeCycle) := by
  simp [step, hi, hp, hr]

/-! ### The checks of an issue -/

/-- Words without inverted bits are checked without effect. -/
theorem State.checkWords_clean (s : State) (agent : State → Nat) (ws : List Nat) (h : ∀ a ∈ ws, s.flips.find a = none) :
    ws.foldl (fun s a => s.checkWord (agent s) a) s = s := by
  induction ws with
  | nil => rfl
  | cons a ws ih =>
    have ha : s.checkWord (agent s) a = s := by simp [State.checkWord, h a (by simp)]
    rw [List.foldl_cons, ha]
    exact ih fun b hb => h b (by simp [hb])

/-- From a line that its engine may issue from, the slot's instruction issues. -/
theorem State.issueChecks_ready {s : State} {p : Pos} {w : Slot} {nxt : Option Slot} {link : BitVec 32} {i : Instr}
    (hl : lineReady s s.cur.eng w p link) (hd : decodeSlot (isSteward s.cur.unit) s.cur.eng w nxt = .instr i) :
    s.issueChecks p (some (w, nxt)) link = (s, .inr i) := by
  obtain ⟨hpresent, hwords, heng, hreserved, hvalid⟩ := hl
  obtain ⟨words, hw⟩ : ∃ ws, ws = (issueWords (linkNvs link) (posSlot p) (isTwoSlot s.cur.eng w)).map
      fun i => windowPA s.cur.unit (lineOffset (posLine p)) + 8 * i := ⟨_, rfl⟩
  have sound : ∀ a ∈ words, s.flips.find a = none ∧ s.poisoned a = false := by
    intro a ha
    rw [hw] at ha
    obtain ⟨k, hk, rfl⟩ := List.mem_map.1 ha
    exact hwords k hk _ rfl
  have hpoison : words.find? s.poisoned = none := List.find?_eq_none.2 fun a ha => by simp [(sound a ha).2]
  unfold State.issueChecks
  simp only [hpresent, if_true, ← hw]
  have hsame : (if s.flips.isEmpty then s
      else words.foldl (fun m a => m.checkWord (agentOf s.cur.unit m.bank) a) s) = s := by
    split
    · rfl
    · exact s.checkWords_clean (fun m => agentOf s.cur.unit m.bank) words fun a ha => (sound a ha).1
  simp only [hsame, hpoison, ite_self, heng, hreserved, Nat.not_lt.2 hvalid, hd, ne_eq, not_true_eq_false, if_false]

/-! ### The turn of the control core -/

/-- A step in which a control core may act is the turn of that core. -/
theorem step_coreActing {s m : State} {u : Nat} (h : coreActing s m u) : step s = coreTurn m := by
  obtain ⟨hi, hp, hstep, rest, hr, rfl, hacts⟩ := h
  rw [step_turn hi hp hr]
  unfold turn
  simp only [State.here] at hacts ⊢
  have hst : (({ s with ready := rest, cur := { unit := u, eng := 0 } } : State).tile u).stepping = none := hstep
  simp [hst, hacts]

/-- A core with no result outstanding goes on with its refreshed queue. -/
theorem step_coreStands {s m n : State} {u : Nat} {p : Pos} {w : Option (Slot × Option Slot)} {link : BitVec 32}
    (h : coreStands s m n u) (hf : n.me.queue.f0 = { pos := some p, slot := w, annul := false, link := link }) :
    step s = if (m.me.ust != 0 && !m.me.unchecked) && n.multiHere.isSome then exec (.microStep u 0) n
      else match n.issueChecks p w link with
        | (s, .inl t) => .next (s.raise t none)
        | (s, .inr i) => exec i s := by
  obtain ⟨hact, hlate, rfl⟩ := h
  have hu : m.cur.unit = u := by obtain ⟨-, -, -, rest, -, rfl, -⟩ := hact; rfl
  rw [step_coreActing hact]
  unfold coreTurn
  simp only [hlate, hu]
  simp only [hf]
  rfl

/-! ### The turn of a strip -/

/-- A turn of a strip is what its instruction gives, with the slip of a timed strip that waits. -/
theorem stripTurnSlips_eq (s : State) : stripTurnSlips s = follows (stripTurn s) afterTurn := by
  unfold stripTurnSlips
  cases stripTurn s with
  | next m =>
    simp only [follows, afterTurn]
    rw [← apply_ite Host.Outcome.next]
    congr 2
    simp [and_assoc]
  | fault r => rfl
  | refused r => rfl

/-- A step in which a strip may act is the turn of that strip; engine 6 stands for an access strip that reads through the multicast
path. -/
theorem step_strip {s n : State} {u e a : Nat} {rest : List Agent} (hi : s.inbox = []) (hp : s.power = true)
    (hstep : (s.tile u).stepping = none) (hr : s.ready = { unit := u, eng := a } :: rest) (h1 : 1 ≤ e) (h4 : e ≤ 4)
    (ha : a = e ∨ (a = 6 ∧ e = 1)) (hn : n = { s with ready := rest, cur := { unit := u, eng := e } })
    (hacts : n.here.stripActs e n.cycle = true) (hcast : e = 1 → n.usesCast = decide (a = 6)) :
    step s = follows (stripTurn n) afterTurn := by
  have heng : (if a = 6 then 1 else a) = e := by split <;> omega
  have hnot : ¬(e = 5 ∨ (e = 7 ∧ isSteward u = true)) := by omega
  have hst : n.here.stepping = none := by subst hn; exact hstep
  have hmulti : ¬(e = 1 ∧ n.usesCast ≠ (a == 6)) := by
    rintro ⟨h, hne⟩
    exact hne (hcast h)
  rw [step_turn hi hp hr, ← stripTurnSlips_eq]
  unfold turn
  simp only [heng]
  rw [← hn, if_neg hnot, hst, if_neg (by omega), if_neg (by omega), if_neg (by omega), hacts, if_neg (by simp), if_neg hmulti]

/-- A strip whose instruction is to be checked issues it from a line that its engine may issue from. -/
theorem stripTurn_issues {s : State} {p : Pos} {w : Slot} {nxt : Option Slot} {i : Instr} (hpos : s.strip.pos = p) (hp : p ≠ noPos)
    (hs : s.strip.slot = none ∨ s.multiHere = none) (hf : s.fetch s.cur.unit s.bank p = some (w, nxt))
    (hl : lineReady s s.cur.eng w p (s.linkWord s.cur.unit (posLine p)))
    (hd : decodeSlot (isSteward s.cur.unit) s.cur.eng w nxt = .instr i) : stripTurn s = exec i s := by
  have hno : ¬(s.strip.slot.isSome = true ∧ s.multiHere.isSome = true) := by
    rcases hs with h | h <;> simp [h]
  unfold stripTurn
  simp only [hpos, hf, State.issueChecks_ready hl hd]
  rw [if_neg hp, if_neg hno]

/-- A strip that holds the slot of an instruction of several micro-steps goes on with it (02 R72). -/
theorem stripTurn_continues {s : State} (hp : s.strip.pos ≠ noPos) (hs : s.strip.slot.isSome = true)
    (hm : s.multiHere.isSome = true) : stripTurn s = exec (.microStep s.cur.unit s.cur.eng) s := by
  unfold stripTurn
  simp only []
  rw [if_neg hp, if_pos ⟨hs, hm⟩]

/-! ### The cycles -/

/-- With no turn left a step works out the end of the cycle, and the clock stands. -/
theorem step_closes {s : State} (hi : s.inbox = []) (hp : s.power = true) (hr : s.ready = []) (he : s.ended = false) :
    ∃ t, step s = .next t ∧ t.ended = true ∧ t.cycle = s.cycle ∧ t.time = s.time := by
  have hc := s.clock_closeCycle
  simp only [State.clock, Prod.mk.injEq] at hc
  obtain ⟨hcycle, htime, -, hended⟩ := hc
  exact ⟨s.closeCycle, by simp [step_cycle hi hp hr, he], hended, hcycle, htime⟩

/-- After the end of a cycle the next one begins, one step of the clock later. -/
theorem step_begins {s : State} (hi : s.inbox = []) (hp : s.power = true) (hr : s.ready = []) (he : s.ended = true) :
    ∃ t, step s = .next t ∧ t.ended = false ∧ t.cycle = s.cycle + 1 ∧ t.time = s.time + s.timeStep := by
  have hc := s.clock_nextCycle
  simp only [State.clock, Prod.mk.injEq] at hc
  obtain ⟨hcycle, htime, -, hended⟩ := hc
  exact ⟨s.nextCycle, by simp [step_cycle hi hp hr, he], hended, hcycle, htime⟩

end Sys2Proof.Machine

namespace Sys2Proof

/-- Settles O53: the step's four cases, each by the lemma that says which part of a step acts. -/
theorem stepRunsDecodedInstruction : Obligations.StepRunsDecodedInstruction := by
  unfold Obligations.StepRunsDecodedInstruction
  refine ⟨?_, ?_, fun s => step_poweredOff, ?_, ?_, ?_⟩
  · intro s e rest i hin hrow
    rw [step_event hin, serve_of_isRow hrow]
  · intro s o rest hin
    exact step_event hin
  · intro s m n u hstands
    have hcur : n.cur = { unit := u, eng := 0 } := by
      obtain ⟨⟨-, -, -, rest, -, rfl, -⟩, -, rfl⟩ := hstands; rfl
    refine ⟨?_, ?_⟩
    · intro p w nxt link i hf hfresh hl hd
      have hno : ((m.me.ust != 0 && !m.me.unchecked) && n.multiHere.isSome) = false := by
        rcases hfresh with h | h | h <;> simp [h]
      have hissue : n.issueChecks p (some (w, nxt)) link = (n, .inr i) :=
        State.issueChecks_ready (by rw [hcur]; exact hl) (by rw [hcur]; exact hd)
      simp [step_coreStands hstands hf, hno, hissue]
    · intro p w link hf hust hchecked hmulti
      simp [step_coreStands hstands hf, hust, hchecked, hmulti]
  · intro s n u e a p w nxt rest hi hpow hstep hr h1 h4 ha hn hacts hcast hpos hp
    have hcur : n.cur = { unit := u, eng := e } := by rw [hn]
    rw [step_strip hi hpow hstep hr h1 h4 ha hn hacts hcast]
    refine ⟨?_, ?_⟩
    · intro i hs hf hl hd
      rw [stripTurn_issues hpos hp hs (by rw [hcur]; exact hf) (by rw [hcur]; exact hl) (by rw [hcur]; exact hd)]
    · intro hslot hmulti
      rw [stripTurn_continues (hpos ▸ hp) hslot hmulti, hcur]
  · intro s hi hp hr
    refine ⟨step_closes hi hp hr, fun he => ?_⟩
    obtain ⟨t, ht, hended, hcycle, htime⟩ := step_begins hi hp hr he
    have hb := s.timeStep_bounds
    exact ⟨t, ht, hended, hcycle, fun hlock => by rw [htime, State.timeStep_free hlock], by omega, by omega⟩

end Sys2Proof
end


section
/-!
PROOF. The freeze of a context that still holds the hidden copies of an earlier one (04 R110; 14 R390, R398).
-/
open Sys2Proof Sys2Proof.Machine
namespace Sys2Proof.Machine

/-- Tile (0, 0) runs context A of an open job without a whistle; the context is not frozen, yet holds hidden copies. -/
def unfrozenWithCopies : State :=
  { State.reset with
    units := [(0, { ctxA := { life := .running, hidden := some { epc := 0, enpc := 0, ennpc := 0, ebits := 0, ustate0 := 0, ustate1 := 0 } } })]
    jobs := [(0, { opened := true })] }

/-- Its deadline fault begins a whistle, and the context is not frozen by it. -/
theorem deadlineFault_unfrozenWithCopies : ∃ t, exec (.deadlineFault 0 false) unfrozenWithCopies = .next t
    ∧ (t.job 0).valid = true ∧ (t.ctx 0 false).stopped = true ∧ (t.ctx 0 false).frozen = false :=
  ⟨_, rfl, by decide +kernel⟩

end Sys2Proof.Machine

namespace Sys2Proof

/-- Refutes O42: of a deadline fault it says that the context is then frozen, of every state in which it was not. The capture of a
freeze (`Ctx.capture`) leaves a context that holds hidden copies as it is, so one that holds them and is not frozen, as in
`unfrozenWithCopies`, stays unfrozen. The statement lacks the hypothesis that the hidden copies are free, which the
statement of the freeze wave has. -/
theorem not_tileEventResults : ¬ Obligations.TileEventResults := by
  unfold Obligations.TileEventResults
  rintro ⟨-, -, -, freezes, -⟩
  obtain ⟨t, ht, -, -, -, -, -, -, frozen⟩ :=
    freezes unfrozenWithCopies 0 0x18 0 false (.deadlineFault 0 false) (by decide) (.inl ⟨rfl, rfl, rfl⟩)
  obtain ⟨m, hm, -, -, thawed⟩ := deadlineFault_unfrozenWithCopies
  obtain rfl : m = t := Host.Outcome.next.inj (hm.symm.trans ht)
  have hslot : unfrozenWithCopies.slotOf 0 false = some 0 := by decide +kernel
  have h := frozen 0 rfl hslot rfl rfl rfl
  rw [thawed] at h
  exact absurd h (by decide)

end Sys2Proof
end


section
/-!
SUPPORT. Writes of one 64-bit word by an agent: what reaches control space, what reaches a window, and what is refused (07 R218;
08 R230).
-/
open Sys2Proof Sys2Proof.Machine Sys2Proof.Claims
namespace Sys2Proof.Machine

/-! ### Tables -/

@[simp] theorem Tab.find_put {α : Type} (t : Tab α) (k n : Nat) (v : α) :
    (t.put k v).find n = if n = k then some v else t.find n := by
  induction t with
  | nil => simp [Tab.put, Tab.find, eq_comm]
  | cons e t ih =>
    obtain ⟨k', v'⟩ := e
    simp only [Tab.put]
    split
    · simp [Tab.find, eq_comm]
    · split
      · next h =>
        subst h
        simp only [Tab.find, eq_comm]
        split <;> rfl
      · simp only [Tab.find, ih]
        by_cases hn : n = k
        · subst hn; simp; omega
        · simp [hn]

theorem Tab.look_del {α : Type} (d : α) (t : Tab α) (k n : Nat) : (t.del k).look d n = if n = k then d else t.look d n := by
  induction t with
  | nil => simp [Tab.del, Tab.look]
  | cons e t ih =>
    obtain ⟨k', v'⟩ := e
    simp only [Tab.del] at ih ⊢
    by_cases h : k' = k
    · subst h
      rw [List.filter_cons_of_neg (by simp), ih, Tab.look]
      by_cases hn : n = k'
      · simp [hn]
      · simp [hn, Ne.symm hn]
    · rw [List.filter_cons_of_pos (by simpa using h), Tab.look, ih, Tab.look]
      by_cases hn : k' = n
      · subst hn; simp [h]
      · simp [hn]

/-! ### Words -/

theorem byteMask_all : byteMask 0 8 = BitVec.allOnes 64 := by decide

@[simp] theorem blend_all (old v : Word) : blend (byteMask 0 8) old v = v := by
  rw [byteMask_all, blend, BitVec.and_allOnes, BitVec.not_allOnes, BitVec.and_zero, BitVec.zero_or]

@[simp] theorem and_byteMask_all (v : Word) : v &&& byteMask 0 8 = v := by
  rw [byteMask_all, BitVec.and_allOnes]

/-- An aligned word touches no word but itself. -/
theorem wordSpan {off : Nat} (h : off % 8 = 0) : (off + 8 + 7) / 8 - off / 8 = 1 := by omega

/-- The state with other poisoned words and inverted bits. -/
def State.withErrors (s : State) (p : Tab Unit) (f : Tab Flip) : State := { s with poison := p, flips := f }

/-- Clearing the poison of words changes the tables of poison and of inverted bits alone. -/
theorem State.clearWords_eq (s : State) (ws : List Nat) : ∃ p f, ws.foldl State.clearPoison s = s.withErrors p f := by
  induction ws generalizing s with
  | nil => exact ⟨s.poison, s.flips, rfl⟩
  | cons w ws ih =>
    obtain ⟨p, f, h⟩ := ih (s.clearPoison w)
    exact ⟨p, f, h⟩

/-! ### Control space -/

/-- A write of an aligned word of control space. -/
theorem State.controlWrite_word (s : State) {off : Nat} (v : Word) (h : off % 8 = 0) : ∃ p f,
    s.controlWrite off 8 v.toNat = (s.withErrors p f).controlPut off (byteMask 0 8) v := by
  obtain ⟨p, f, hc⟩ := s.clearWords_eq (wordsWithin (controlPA off) 8)
  refine ⟨p, f, ?_⟩
  have hoff : off / 8 * 8 = off := by omega
  have hv : v.toNat % 18446744073709551616 = v.toNat := Nat.mod_eq_of_lt v.isLt
  unfold State.controlWrite
  simp only [wordSpan h, hc, hoff, List.range_succ, List.range_zero, List.nil_append, List.foldl_cons, List.foldl_nil]
  simp only [Nat.mul_zero, Nat.add_zero, Nat.lt_irrefl, if_false, Nat.sub_self, Nat.pow_zero, Nat.mul_one, Nat.div_one, Nat.reduceMul,
    Nat.reducePow, hv, BitVec.ofNat_toNat, BitVec.setWidth_eq]

/-- What a steward writes to control space. -/
theorem State.agentControl_steward (s : State) {agent off : Nat} (v : Word) (ha : stewardAgent agent = true) (h : off % 8 = 0) : ∃ p f,
    s.agentControl agent off 8 v.toNat = (s.withErrors p f).controlPut off (byteMask 0 8) v := by
  obtain ⟨p, f, hw⟩ := s.controlWrite_word v h
  exact ⟨p, f, by simp [State.agentControl, ha, hw]⟩

/-- The registers of links lie in two blocks of control space. -/
theorem linkAt_outside {off : Nat} (h : off < 0x30000 ∨ 0x30900 ≤ off ∧ off < 0x32000 ∨ 0x34000 ≤ off) : linkAt off = none := by
  unfold linkAt subLinkAt
  rw [if_neg (by omega)]
  exact if_neg (by omega)

/-- A write of the barrier-plane register of a job slot. -/
theorem State.controlPut_plane (s : State) {j : Nat} (v : Word) (h : j < 8) :
    s.controlPut (0x50800 + 8 * j) (byteMask 0 8) v = s.modJob j fun b => b.planePut v := by
  have hlink : (linkAt (0x50800 + 8 * j)).isSome = false := by rw [linkAt_outside (by omega)]; rfl
  have hj : (0x50800 + 8 * j - 0x50800) / 8 = j := by omega
  unfold State.controlPut
  simp only [Bool.and_eq_true, decide_eq_true_eq, hlink, Bool.false_eq_true, if_false]
  simp (disch := omega) only [if_neg, if_pos, blend_all, hj]

/-- A write of the notice-line address of a die. -/
theorem State.controlPut_notice (s : State) {d : Nat} (v : Word) (h : d < 4) :
    s.controlPut (0x31000 + 8 * d) (byteMask 0 8) v = s.noticePut d v := by
  have hd : (0x31000 + 8 * d - 0x31000) / 8 = d := by omega
  unfold State.controlPut
  simp only [Bool.and_eq_true, decide_eq_true_eq]
  simp (disch := omega) only [if_neg, if_pos, blend_all, hd]

/-- A write of the configuration of a monitor of a die. -/
theorem State.controlPut_monitor (s : State) {d k : Nat} (v : Word) (hd : d < 4) (hk : k < 8) :
    s.controlPut (0xC0000 + 0x1000 * d + 0x200 * k + 0x118) (byteMask 0 8) v
      = { s with dieMon := s.dieMon.put (8 * d + k) (Monitor.configure v) } := by
  obtain ⟨off, hoff⟩ : ∃ off, off = 0xC0000 + 0x1000 * d + 0x200 * k + 0x118 := ⟨_, rfl⟩
  have hlink : (linkAt off).isSome = false := by rw [linkAt_outside (by omega)]; rfl
  have hn : 8 * ((off - 0xC0000) / 0x1000) + off % 0x1000 / 0x200 = 8 * d + k := by omega
  have hw : off % 0x200 / 8 = 35 := by omega
  rw [← hoff]
  unfold State.controlPut
  simp only [Bool.and_eq_true, decide_eq_true_eq, hlink, Bool.false_eq_true, if_false, beq_iff_eq]
  simp (disch := omega) only [if_neg, if_pos, blend_all, hn]

/-- A write of the JOB of a route unit. -/
theorem State.controlPut_routeJob (s : State) {d : Nat} (v : Word) (hd : d < 4) :
    s.controlPut (0x78000 + 0x1000 * d) (byteMask 0 8) v = s.routeJobPut d v := by
  obtain ⟨off, hoff⟩ : ∃ off, off = 0x78000 + 0x1000 * d := ⟨_, rfl⟩
  have hlink : (linkAt off).isSome = false := by rw [linkAt_outside (by omega)]; rfl
  have hn : (off - 0x78000) / 0x1000 = d := by omega
  have hmask : ¬ (byteMask 0 8).extractLsb' 32 32 = 0 := by decide
  rw [← hoff]
  unfold State.controlPut
  simp only [Bool.and_eq_true, decide_eq_true_eq, hlink, Bool.false_eq_true, if_false, beq_iff_eq]
  simp (disch := omega) only [if_neg, if_pos, blend_all, hn]

/-! ### Refusal -/

/-- The host is no unit of this module. -/
theorem agentPlace_host : agentPlace 0xFFF = none := rfl

/-- What a refusal does. -/
theorem State.refusedWrite_writeRefused (s : State) (agent pa info1 : Nat) :
    refusedWrite s (s.writeRefused agent pa info1) agent pa info1 := by
  refine ⟨fun v d hp hv => ?_, fun v d hp hv => ?_, fun ha => ?_⟩
  · simp [State.writeRefused, hp, isSteward, hv]
  · have hs : isSteward v = false := by simp [isSteward, hv]
    simp only [State.writeRefused, hp, hs, Bool.false_eq_true, if_false]
    refine ⟨rfl, fun w hw => ?_, { cause := 0x11, eng := 1, i0 := BitVec.ofNat 64 pa, i1 := BitVec.ofNat 64 info1
                                   pos := (s.ctx v d).access.pos, ust := (s.ctx v d).access.ust, rank := 1 }, ?_⟩
    · exact (State.tile_mod_other _ _ hw).trans (State.tile_mod_other _ _ hw)
    · simp [State.pend, State.modStrip, Ctx.setStrip, Ctx.strip]
  · subst ha
    rfl

/-! ### Windows -/

/-- An injection that fires is used up; nothing else of a tile changes. -/
theorem State.tile_fireInjection (s : State) (pa n w : Nat) : ∃ j, (s.fireInjection pa n).tile w = { s.tile w with inject := j } := by
  unfold State.fireInjection
  simp only []
  split
  · split
    · split
      · by_cases hw : w = pa / 2 ^ 22 % 1024
        · subst hw
          exact ⟨none, State.tile_mod_same s _ fun t => { t with inject := none }⟩
        · exact ⟨_, State.tile_mod_other s (fun t => { t with inject := none }) hw⟩
      · exact ⟨_, rfl⟩
    · exact ⟨_, rfl⟩
  · exact ⟨_, rfl⟩

/-- What a write of an aligned word to a window does, before the word takes its value: the word loses its poison, and an injection that
waits for it fires. -/
def State.wordStored (s : State) (u off : Nat) : State :=
  ((wordsWithin (windowPA u off) 8).foldl State.clearPoison s).fireInjection (windowPA u off) 8

@[simp] theorem State.mem_wordStored (s : State) (u off : Nat) : (s.wordStored u off).mem = s.mem := by
  rw [State.wordStored, State.mem_fireInjection, foldl_mem State.clearPoison fun _ _ => rfl]

theorem State.tile_wordStored (s : State) (u off w : Nat) : ∃ j, (s.wordStored u off).tile w = { s.tile w with inject := j } := by
  obtain ⟨p, f, h⟩ := s.clearWords_eq (wordsWithin (windowPA u off) 8)
  rw [State.wordStored, h]
  exact State.tile_fireInjection (s.withErrors p f) _ _ w

@[simp] theorem State.ctx_wordStored (s : State) (u off w : Nat) (d : Bool) : (s.wordStored u off).ctx w d = s.ctx w d := by
  obtain ⟨j, h⟩ := s.tile_wordStored u off w
  rw [State.ctx, h]
  cases d <;> rfl

/-- A write of an aligned word above the memories of a window. -/
theorem State.windowWrite_word (s : State) {u off : Nat} (whole : Bool) (v : Word) (h : off % 8 = 0) (hoff : 0x240000 ≤ off) :
    s.windowWrite u off 8 whole v.toNat = (s.wordStored u off).windowPut u off whole (byteMask 0 8) v := by
  have hspill : s.spoilSpill u off 8 = s := by
    have : (s.tile u).spillsInto off 8 = false := by
      simp only [Tile.spillsInto, Bool.and_eq_false_imp, List.any_eq_false]
      intro _ i hi
      simp; omega
    simp [State.spoilSpill, this]
  have hmem : ¬(off + 8 ≤ scratchSize u ∨ (0x200000 ≤ off ∧ off + 8 ≤ 0x240000)) := by
    have : scratchSize u ≤ 0x180000 := by unfold scratchSize; split <;> omega
    omega
  have h8 : off / 8 * 8 = off := by omega
  have hv : v.toNat % 18446744073709551616 = v.toNat := Nat.mod_eq_of_lt v.isLt
  unfold State.windowWrite State.wordStored
  simp only [hspill, if_neg hmem, wordSpan h, h8, List.range_succ, List.range_zero, List.nil_append, List.foldl_cons, List.foldl_nil]
  simp only [Nat.mul_zero, Nat.add_zero, Nat.lt_irrefl, if_false, Nat.sub_self, Nat.pow_zero, Nat.mul_one, Nat.div_one, Nat.reduceMul,
    Nat.reducePow, hv, BitVec.ofNat_toNat, BitVec.setWidth_eq]

/-- An aligned word is one part of a write. -/
theorem wordParts_word {off : Nat} (v : Word) (h : off % 8 = 0) : wordParts off 8 v.toNat = [(off, 8, v.toNat)] := by
  have h8 : off / 8 * 8 = off := by omega
  have hv : v.toNat % 18446744073709551616 = v.toNat := Nat.mod_eq_of_lt v.isLt
  simp [wordParts, wordSpan h, List.range_succ, h8, bits, hv]

/-- A write of an aligned word to a window is its one part. -/
theorem State.storeWindow_word (s : State) {u off : Nat} (v : Word) (steward : Bool) (h : off % 8 = 0) :
    s.storeWindow u off 8 v.toNat steward = s.storePart u steward (off, 8, v.toNat) := by
  unfold State.storeWindow
  simp only [wordParts_word v h, List.any_cons, List.any_nil, Bool.or_false, List.foldl_cons, List.foldl_nil]
  cases hs : s.storePart u steward (off, 8, v.toNat) <;> simp

/-- What a steward's own right to a word gives; `none` for any other agent, and for a word that is no steward's own. -/
def State.stewardsOwn (s : State) (u off : Nat) (v : Word) (steward : Bool) : Option State :=
  if steward then s.stewardWord u off v else none

theorem State.storePart_own {s m : State} {u off : Nat} {v : Word} {steward : Bool} (h : off % 8 = 0)
    (ho : s.stewardsOwn u off v steward = some m) : s.storePart u steward (off, 8, v.toNat) = some m := by
  have h8 : off / 8 * 8 = off := by omega
  unfold State.storePart
  simp only [State.stewardsOwn] at ho
  simp [h8, h, ho]

/-- A word that is no steward's own is written, left or refused as 07 R218 says. -/
theorem State.storePart_accepted {s : State} {u off : Nat} {v : Word} {steward : Bool} (h : off % 8 = 0)
    (ho : s.stewardsOwn u off v steward = none) (ha : s.acceptance u off steward = .accepted) :
    s.storePart u steward (off, 8, v.toNat) = some (s.windowWrite u off 8 (s.quiet u ((s.tile u).targetContext off)) v.toNat) := by
  have h8 : off / 8 * 8 = off := by omega
  unfold State.storePart
  simp only [State.stewardsOwn] at ho
  simp [h8, h, ho, ha]

/-- See `State.storePart_accepted`. -/
theorem State.storePart_ignored {s : State} {u off : Nat} {v : Word} {steward : Bool} (h : off % 8 = 0)
    (ho : s.stewardsOwn u off v steward = none) (ha : s.acceptance u off steward = .ignored) :
    s.storePart u steward (off, 8, v.toNat) = some s := by
  have h8 : off / 8 * 8 = off := by omega
  unfold State.storePart
  simp only [State.stewardsOwn] at ho
  simp [h8, h, ho, ha]

/-- See `State.storePart_accepted`. -/
theorem State.storePart_refused {s : State} {u off : Nat} {v : Word} {steward : Bool} (h : off % 8 = 0)
    (ho : s.stewardsOwn u off v steward = none) (ha : s.acceptance u off steward = .refused) :
    s.storePart u steward (off, 8, v.toNat) = none := by
  have h8 : off / 8 * 8 = off := by omega
  unfold State.storePart
  simp only [State.stewardsOwn] at ho
  simp [h8, h, ho, ha]

/-! ### Writes of one word by an agent -/

/-- A steward's own word takes what the steward's right gives. -/
theorem State.agentWindow_own {s m : State} {agent u off : Nat} {v : Word} (h : off % 8 = 0)
    (ho : s.stewardsOwn u off v (stewardAgent agent) = some m) : s.agentWindow agent u off 8 v.toNat = m := by
  simp [State.agentWindow, State.storeWindow_word s v _ h, State.storePart_own h ho]

theorem State.agentWindow_accepted {s : State} {agent u off : Nat} {v : Word} (h : off % 8 = 0) (hoff : 0x240000 ≤ off)
    (ho : s.stewardsOwn u off v (stewardAgent agent) = none) (ha : s.acceptance u off (stewardAgent agent) = .accepted) :
    s.agentWindow agent u off 8 v.toNat
      = (s.wordStored u off).windowPut u off (s.quiet u ((s.tile u).targetContext off)) (byteMask 0 8) v := by
  simp [State.agentWindow, State.storeWindow_word s v _ h, State.storePart_accepted h ho ha, State.windowWrite_word s _ v h hoff]

theorem State.agentWindow_ignored {s : State} {agent u off : Nat} {v : Word} (h : off % 8 = 0)
    (ho : s.stewardsOwn u off v (stewardAgent agent) = none) (ha : s.acceptance u off (stewardAgent agent) = .ignored) :
    s.agentWindow agent u off 8 v.toNat = s := by
  simp [State.agentWindow, State.storeWindow_word s v _ h, State.storePart_ignored h ho ha]

theorem State.agentWindow_refused {s : State} {agent u off : Nat} {v : Word} (h : off % 8 = 0)
    (ho : s.stewardsOwn u off v (stewardAgent agent) = none) (ha : s.acceptance u off (stewardAgent agent) = .refused) :
    s.agentWindow agent u off 8 v.toNat = s.writeRefused agent (windowPA u off) 0 := by
  simp [State.agentWindow, State.storeWindow_word s v _ h, State.storePart_refused h ho ha]

/-! ### Words of a control-core block -/

/-- An offset of a block lies in that block. -/
theorem blockBase_div (c : Bool) {o : Nat} (h : o < 0x10000) : (blockBase c + o) / 0x10000 = if c then 0x2C else 0x2B := by
  cases c <;> simp only [blockBase, Bool.false_eq_true, if_false, if_true] <;> omega

theorem blockBase_mod (c : Bool) {o : Nat} (h : o < 0x10000) : (blockBase c + o) % 0x10000 = o := by
  cases c <;> simp only [blockBase, Bool.false_eq_true, if_false, if_true] <;> omega

theorem blockOf_block (c : Bool) {o : Nat} (h : o < 0x10000) : blockOf (blockBase c + o) = some (c, o) := by
  unfold blockOf
  rw [blockBase_div c h, blockBase_mod c h]
  cases c <;> simp

theorem blockBase_bounds (c : Bool) {o : Nat} (h : o < 0x10000) : 0x2B0000 ≤ blockBase c + o ∧ blockBase c + o < 0x2D0000 := by
  cases c <;> simp only [blockBase, Bool.false_eq_true, if_false, if_true] <;> omega

/-- A block belongs to its own context. -/
theorem Tile.targetContext_block (t : Tile) (c : Bool) {o : Nat} (h : o < 0x10000) : t.targetContext (blockBase c + o) = c := by
  have hb := blockBase_bounds c h
  unfold Tile.targetContext
  simp only [blockBase_div c h]
  rw [if_neg (by omega)]
  cases c
  · rw [if_neg (by simp; omega), if_pos (by simp)]
  · rw [if_pos (by simp)]

/-- The maps list of a block what `coreListed` says; a steward has the block of context A alone. -/
theorem windowListed_block {u : Nat} {c : Bool} {o : Nat} (h : o < 0x10000) (hu : c = true → u < 768) :
    windowListed u (blockBase c + o) = coreListed (isSteward u) c o := by
  unfold windowListed
  simp only [blockBase_div c h, blockBase_mod c h]
  cases c
  · rfl
  · have hs : isSteward u = false := by simpa [isSteward] using hu rfl
    simp [hs]

/-- A block's word: the words that its map lists are written while its context is quiet, the mailboxes at any time, others never. -/
theorem State.acceptance_block (s : State) {u : Nat} {c : Bool} {o : Nat} (steward : Bool) (h : o < 0x10000)
    (hu : c = true → u < 768) : s.acceptance u (blockBase c + o) steward
      = if coreListed (isSteward u) c o = false then .ignored
        else if isMailbox u (blockBase c + o) = true ∨ s.quiet u c = true then .accepted else .refused := by
  have hb := blockBase_bounds c h
  have hblk : (blockBase c + o) / 0x10000 = 0x2B ∨ (blockBase c + o) / 0x10000 = 0x2C := by
    rw [blockBase_div c h]; cases c <;> simp
  have hd : ((blockBase c + o) / 0x10000 == 0x2D) = false := by simp; omega
  unfold State.acceptance
  simp only [Tile.targetContext_block _ c h, windowListed_block h hu, hd]
  by_cases hl : coreListed (isSteward u) c o = false
  · rw [if_pos (by simp [hl]), if_pos hl]
  · rw [if_neg (by simp [hl]; omega), if_neg hl]
    by_cases hm : isMailbox u (blockBase c + o) = true
    · rw [if_pos (.inl hm), if_pos (.inl hm)]
    · rw [if_neg (by simp [hm]; omega)]
      cases hq : s.quiet u c <;> simp [hm]

/-- A block's word takes a write as `corePut` says. -/
theorem State.windowPut_block (s : State) {u : Nat} {c : Bool} {o : Nat} (whole : Bool) (mask v : Word) (h : o < 0x10000)
    (hu : c = true → u < 768) : s.windowPut u (blockBase c + o) whole mask v = s.corePut u c o mask v := by
  have hb := blockBase_bounds c h
  have hscratch : scratchSize u ≤ 0x180000 := by unfold scratchSize; split <;> omega
  unfold State.windowPut
  simp only [blockBase_div c h, blockBase_mod c h]
  rw [if_neg (by omega)]
  cases c
  · simp
  · have hs : isSteward u = false := by simpa [isSteward] using hu rfl
    simp only [hs, Bool.false_eq_true, if_false, if_true, Nat.reduceEqDiff, false_and]
    simp (disch := omega) only [if_neg]

/-! ### What a write of a block's word leaves -/

theorem onlyContext_refl (s : State) (u : Nat) (c : Bool) : onlyContext s s u c := ⟨rfl, fun _ _ _ => rfl⟩

theorem onlyContext_trans {s m t : State} {u : Nat} {c : Bool} (h : onlyContext s m u c) (k : onlyContext m t u c) :
    onlyContext s t u c :=
  ⟨k.1.trans h.1, fun v d hv => (k.2 v d hv).trans (h.2 v d hv)⟩

/-- A change of a tile that leaves its contexts. -/
theorem State.ctx_mod_keeps (s : State) (u : Nat) {f : Tile → Tile} (h : ∀ t d, (f t).ctx d = t.ctx d) (w : Nat) (d : Bool) :
    (s.mod u f).ctx w d = s.ctx w d := by
  by_cases hw : w = u
  · subst hw
    rw [State.ctx, State.tile_mod_same, h]
    rfl
  · rw [State.ctx, State.tile_mod_other _ _ hw]
    rfl

theorem State.onlyContext_modCtx (s : State) (u : Nat) (c : Bool) (f : Ctx → Ctx) : onlyContext s (s.modCtx u c f) u c :=
  ⟨rfl, fun _ _ hv => State.ctx_modCtx_other s f hv⟩

theorem State.onlyContext_wordStored (s : State) (u off : Nat) (c : Bool) : onlyContext s (s.wordStored u off) u c :=
  ⟨s.mem_wordStored u off, fun v d _ => s.ctx_wordStored u off v d⟩

/-- Dues change no context. -/
theorem State.foldl_due_frame (s : State) (ks : List Nat) (f : Nat → Event) :
    (ks.foldl (fun s k => s.due (f k)) s).mem = s.mem ∧ ∀ v d, (ks.foldl (fun s k => s.due (f k)) s).ctx v d = s.ctx v d := by
  induction ks generalizing s with
  | nil => exact ⟨rfl, fun _ _ => rfl⟩
  | cons k ks ih => exact ih (s.due (f k))

/-- Completing what can be completed changes the operations and streams of its context alone. -/
theorem State.drainOps_frame (s : State) (u : Nat) (c : Bool) : onlyContext s (s.drainOps u c) u c
    ∧ ∃ os ss, (s.drainOps u c).ctx u c = { s.ctx u c with ops := os, streams := ss } := by
  unfold State.drainOps
  simp only []
  split
  · exact ⟨onlyContext_refl .., _, _, rfl⟩
  · obtain ⟨hmem, hctx⟩ := State.foldl_due_frame (s.modCtx u c fun x => { x with
        ops := (settleOps (s.ctx u c).ops [] true).1
        streams := x.streams.filter fun e => e.2.state != 2 || (settleOps (s.ctx u c).ops [] true).1.any (·.id == e.2.op) })
      (settleOps (s.ctx u c).ops [] true).2 (.timelineIncrement u c)
    refine ⟨⟨hmem, fun v d hv => (hctx v d).trans (State.ctx_modCtx_other s _ hv)⟩, _, _, (hctx u c).trans (State.ctx_modCtx_same ..)⟩

/-- A transfer given up changes the operations and streams of its context alone. -/
theorem State.abandon_frame (s : State) (u : Nat) (c : Bool) : onlyContext s (s.abandon u c) u c
    ∧ ∃ os ss, (s.abandon u c).ctx u c = { s.ctx u c with ops := os, streams := ss } := by
  unfold State.abandon
  split
  · exact ⟨onlyContext_refl .., _, _, rfl⟩
  · next id _ =>
    obtain ⟨honly, os, ss, hctx⟩ := (s.modOp u c id fun o => { o with closed := true, sig := none }).drainOps_frame u c
    refine ⟨onlyContext_trans (State.onlyContext_modCtx ..) honly, os, ss, ?_⟩
    rw [hctx, State.modOp, State.ctx_modCtx_same]

@[simp] theorem Ctx.strip_withOps (x : Ctx) (os : List Op) (ss : Tab Stream) (e : Nat) :
    ({ x with ops := os, streams := ss } : Ctx).strip e = x.strip e := by
  unfold Ctx.strip; split <;> rfl

theorem Ctx.strip_setStrip_other (x : Ctx) {e k : Nat} (t : Strip) (he : 1 ≤ e ∧ e ≤ 4) (hk : 1 ≤ k ∧ k ≤ 4) (h : k ≠ e) :
    (x.setStrip e t).strip k = x.strip k := by
  obtain ⟨h1, h4⟩ := he
  obtain ⟨k1, k4⟩ := hk
  have hstrip : e = 1 ∨ e = 2 ∨ e = 3 ∨ e = 4 := by omega
  have hother : k = 1 ∨ k = 2 ∨ k = 3 ∨ k = 4 := by omega
  obtain rfl | rfl | rfl | rfl := hstrip <;> obtain rfl | rfl | rfl | rfl := hother <;> simp [Ctx.setStrip, Ctx.strip] at h ⊢

/-- A write of a strip's status word (09 R265): the strip takes it, and the operations and streams of its context may change. -/
theorem State.corePut_strip (s : State) {u : Nat} {c : Bool} {e : Nat} (v : Word) (hu : u < 768) (h1 : 1 ≤ e) (h4 : e ≤ 4) :
    onlyContext s (s.corePut u c (0x7000 + 8 * e) (byteMask 0 8) v) u c
    ∧ ∃ os ss, (s.corePut u c (0x7000 + 8 * e) (byteMask 0 8) v).ctx u c
      = Ctx.setStrip { s.ctx u c with ops := os, streams := ss } e (((s.ctx u c).strip e).statusPut v) := by
  have hs : isSteward u = false := by simpa [isSteward] using hu
  have he : (0x7000 + 8 * e - 0x7000) / 8 = e := by omega
  unfold State.corePut
  simp only [blend_all, hs, Bool.false_eq_true, if_false, he]
  iterate 12 rw [if_neg (by omega)]
  rw [if_pos (by omega)]
  generalize hm : (if 0x7000 + 8 * e = 0x7008
    ∧ (v.extractLsb' 0 23 ≠ (s.ctx u c).access.pos ∨ v.extractLsb' 40 16 = 0) then s.abandon u c else s) = m
  have habandon : onlyContext s m u c ∧ ∃ os ss, m.ctx u c = { s.ctx u c with ops := os, streams := ss } := by
    subst hm
    split
    · exact s.abandon_frame u c
    · exact ⟨onlyContext_refl .., _, _, rfl⟩
  obtain ⟨honly, os, ss, hctx⟩ := habandon
  generalize hn : (if 0x7000 + 8 * e = 0x7010
    ∧ (v.extractLsb' 0 23 ≠ (m.ctx u c).matrix.pos ∨ v.extractLsb' 40 16 = 0) then m.mod u fun t => { t with scan := none } else m) = n
  have hscan : n.mem = m.mem ∧ ∀ w d, n.ctx w d = m.ctx w d := by
    subst hn
    split
    · exact ⟨rfl, m.ctx_mod_keeps u fun t d => by cases d <;> rfl⟩
    · exact ⟨rfl, fun _ _ => rfl⟩
  obtain ⟨hmem, hsame⟩ := hscan
  refine ⟨onlyContext_trans honly (onlyContext_trans ⟨hmem, fun w d _ => hsame w d⟩ (State.onlyContext_modCtx ..)), os, ss, ?_⟩
  rw [State.modStrip, State.ctx_modCtx_same, hsame, hctx, Ctx.strip_withOps]

/-- A write of a timeline counter (13 R373), which a tile has four of and a steward sixteen. -/
theorem State.corePut_timeline (s : State) {u k : Nat} {c : Bool} (v : Word) (hk : k < 16) (h : 768 ≤ u ∨ k < 4) :
    s.corePut u c (0x6400 + 8 * k) (byteMask 0 8) v = s.modCtx u c fun x => x.timelinePut k v := by
  have hn : (0x6400 + 8 * k - 0x6400) / 8 = k := by omega
  have hs : (isSteward u || decide (k < 4)) = true := by simpa [isSteward] using h
  unfold State.corePut
  simp only [blend_all, hn, hs, if_true]
  iterate 3 rw [if_neg (by omega)]
  rw [if_pos (by omega)]

/-- A timeline counter is never lowered. -/
theorem Ctx.look_timelinePut (x : Ctx) (k n : Nat) (v : Word) :
    (x.timelinePut k v).tl.look 0 n = if n = k then max (x.tl.look 0 n) v.toNat else x.tl.look 0 n := by
  unfold Ctx.timelinePut
  split
  · next h =>
    simp only [Tab.look_put]
    split
    · next hn => subst hn; exact (Nat.max_eq_right h).symm
    · rfl
  · next h =>
    split
    · next hn => subst hn; exact (Nat.max_eq_left (by omega)).symm
    · rfl

/-! ### What a steward writes of its own right -/

/-- A block's word that is neither of a receive fault nor of a stream is no steward's own. -/
theorem State.stewardsOwn_block (s : State) (u : Nat) (c : Bool) {o : Nat} (v : Word) (steward : Bool) (h : o < 0x10000)
    (ho : o < 0x5200 ∨ 0x5300 ≤ o ∧ o < 0x5800 ∨ 0x6000 ≤ o) : s.stewardsOwn u (blockBase c + o) v steward = none := by
  unfold State.stewardsOwn State.stewardWord
  rw [blockOf_block c h]
  split
  · split
    · rfl
    · simp only []
      rw [if_neg (by omega), if_neg (by omega)]
  · rfl

/-- Nor is a word outside the blocks. -/
theorem State.stewardsOwn_outside (s : State) (u : Nat) {off : Nat} (v : Word) (steward : Bool) (h : off < 0x2B0000 ∨ 0x2D0000 ≤ off) :
    s.stewardsOwn u off v steward = none := by
  have hb : blockOf off = none := by
    unfold blockOf
    rw [if_neg (by omega), if_neg (by omega)]
  unfold State.stewardsOwn State.stewardWord
  rw [hb]
  split
  · split <;> rfl
  · rfl

/-- SERVED and DEAD of a receive fault (10 R303). -/
theorem State.stewardsOwn_fault (s : State) {u k : Nat} (c : Bool) (v : Word) (hu : u < 768) (hk : k < 64) :
    s.stewardsOwn u (blockBase c + (0x5800 + 0x20 * k)) v true = some (s.markFault u c k (v.getLsbD 62) (v.getLsbD 61)) := by
  have hs : isSteward u = false := by simpa [isSteward] using hu
  have hn : (0x5800 + 0x20 * k - 0x5800) / 0x20 = k := by omega
  unfold State.stewardsOwn State.stewardWord
  simp only [blockOf_block c (show 0x5800 + 0x20 * k < 0x10000 by omega), hs, Bool.false_eq_true, if_false, if_true, hn]
  rw [if_pos (by omega)]

/-- RETRY of a stream (09 R282). -/
theorem State.stewardsOwn_retry (s : State) {u k : Nat} (c : Bool) {v : Word} (hu : u < 768) (hk : k < 16) (hv : v.getLsbD 62 = true) :
    s.stewardsOwn u (blockBase c + (0x5200 + 16 * k)) v true = some (s.retryStream u c k) := by
  have hs : isSteward u = false := by simpa [isSteward] using hu
  have hn : (0x5200 + 16 * k - 0x5200) / 16 = k := by omega
  unfold State.stewardsOwn State.stewardWord
  simp only [blockOf_block c (show 0x5200 + 16 * k < 0x10000 by omega), hs, Bool.false_eq_true, if_false, if_true, hn]
  rw [if_neg (by omega), if_pos ⟨by omega, by omega, by omega, hv⟩]

/-- A receive fault that is marked. -/
theorem State.markFault_frame (s : State) (u : Nat) (c : Bool) (k : Nat) (served dead : Bool) :
    onlyContext s (s.markFault u c k served dead) u c ∧ ∀ n, ((s.markFault u c k served dead).ctx u c).rfq.find n
      = if n = k then ((s.ctx u c).rfq.find n).map fun r => { r with served := r.served || served, dead := r.dead || dead }
        else (s.ctx u c).rfq.find n := by
  refine ⟨State.onlyContext_modCtx .., fun n => ?_⟩
  rw [State.markFault, State.ctx_modCtx_same]
  cases hf : (s.ctx u c).rfq.find k with
  | none => split <;> simp_all
  | some r => simp only [Tab.find_put]; split <;> simp_all

/-- A stream that is retried. -/
theorem State.retryStream_frame (s : State) (u : Nat) (c : Bool) (k : Nat) :
    onlyContext s (s.retryStream u c k) u c ∧ ∀ n, ((s.retryStream u c k).ctx u c).streams.find n
      = if n = k then ((s.ctx u c).streams.find n).map fun q => if q.state = 1 then { q with state := 0, cause := 0 } else q
        else (s.ctx u c).streams.find n := by
  refine ⟨State.onlyContext_modCtx .., fun n => ?_⟩
  rw [State.retryStream, State.ctx_modCtx_same]
  cases hf : (s.ctx u c).streams.find k with
  | none => split <;> simp_all
  | some q =>
    by_cases hq : q.state = 1
    · simp only [hq, if_true, Tab.find_put]; split <;> simp_all
    · simp only [hq, if_false]; split <;> simp_all

/-! ### Error logs, monitors and the trace -/

/-- The records of block 0x2E that the maps list are written at any time. -/
theorem State.acceptance_record (s : State) {u off : Nat} (steward : Bool) (h : off / 0x10000 = 0x2E) (hl : windowListed u off = true) :
    s.acceptance u off steward = .accepted := by
  unfold State.acceptance
  simp only [h, hl]
  rw [if_neg (by simp; omega), if_pos (by simp)]

/-- Clearing VALID of an error log. -/
theorem State.windowPut_log (s : State) (u : Nat) {a : Nat} (whole : Bool) {v : Word} (ha : a < 8) (hv : v.getLsbD 63 = true) :
    s.windowPut u (0x2E0000 + 0x20 * a) whole (byteMask 0 8) v = s.clearLog u a := by
  have hblk : (0x2E0000 + 0x20 * a) / 0x10000 = 0x2E := by omega
  have ho : (0x2E0000 + 0x20 * a) % 0x10000 = 0x20 * a := by omega
  have hn : 0x20 * a / 0x20 = a := by omega
  have hscratch : scratchSize u ≤ 0x180000 := by unfold scratchSize; split <;> omega
  unfold State.windowPut
  simp only [hblk, ho, hn, and_byteMask_all, hv, if_true, true_and]
  iterate 3 rw [if_neg (by omega)]
  rw [if_pos (by omega), if_pos (by omega)]

/-- A write of the configuration of a tile's monitor. -/
theorem State.windowPut_monitor (s : State) {u a : Nat} (whole : Bool) (v : Word) (hu : u < 768) (ha : a < 2) :
    s.windowPut u (0x2E1000 + 0x200 * a + 0x118) whole (byteMask 0 8) v
      = s.mod u fun t => { t with mon := t.mon.put a (Monitor.configure v) } := by
  obtain ⟨off, hoff⟩ : ∃ off, off = 0x2E1000 + 0x200 * a + 0x118 := ⟨_, rfl⟩
  have hs : isSteward u = false := by simpa [isSteward] using hu
  have hscratch : scratchSize u ≤ 0x180000 := by unfold scratchSize; split <;> omega
  have hn : (off % 0x10000 - 0x1000) / 0x200 = a := by omega
  rw [← hoff]
  unfold State.windowPut
  simp only [blend_all, hs, Bool.false_eq_true, if_false, hn]
  iterate 13 rw [if_neg (by omega)]
  rw [if_pos (by omega), if_pos (by omega)]

/-- A write of the trace control. -/
theorem State.windowPut_trace (s : State) {u : Nat} (whole : Bool) (v : Word) (hu : u < 768) :
    s.windowPut u 0x2E3000 whole (byteMask 0 8) v = s.mod u fun t => { t with trace := t.trace.control v } := by
  have hs : isSteward u = false := by simpa [isSteward] using hu
  have hscratch : scratchSize u ≤ 0x180000 := by unfold scratchSize; split <;> omega
  unfold State.windowPut
  simp only [blend_all, hs, Bool.false_eq_true, if_false]
  iterate 15 rw [if_neg (by omega)]
  exact if_pos trivial

/-! ### Bytes of a scratchpad -/

/-- A byte elsewhere is as it was, in whatever form memory is listed. -/
theorem readByte_writeByte_other (m : List Host.Cell) {a b : Nat} (v : Byte) (h : b ≠ a) :
    readByte (writeByte m a v) b = readByte m b := by
  induction m with
  | nil =>
    simp only [writeByte]
    split
    · rfl
    · simp [readByte, h.symm]
  | cons e t ih =>
    obtain ⟨c, w⟩ := e
    simp only [writeByte]
    split
    · split
      · rfl
      · simp [readByte, h.symm]
    · split
      · next hac =>
        subst hac
        split <;> simp [readByte, h.symm]
      · simp only [readByte, ih]

theorem readByte_writeBytes_outside (n : Nat) : ∀ (m : List Host.Cell) (a v b : Nat), b < a ∨ a + n ≤ b →
    readByte (writeBytes m a n v) b = readByte m b := by
  induction n with
  | zero => intro m a v b _; rfl
  | succ n ih =>
    intro m a v b h
    rw [writeBytes, ih _ _ _ _ (by omega), readByte_writeByte_other _ _ (by omega)]

/-- A write in two parts. -/
theorem writeBytes_add (k l : Nat) : ∀ (m : List Host.Cell) (a v : Nat),
    writeBytes m a (k + l) v = writeBytes (writeBytes m a k v) (a + k) l (v / 256 ^ k) := by
  induction k with
  | zero => intro m a v; simp [writeBytes]
  | succ k ih =>
    intro m a v
    rw [show k + 1 + l = (k + l) + 1 by omega, writeBytes, ih, writeBytes, Nat.div_div_eq_div_mul, Nat.pow_succ, Nat.mul_comm 256,
      show a + 1 + k = a + (k + 1) by omega]

/-- Bytes above those written do not matter. -/
theorem writeBytes_mod (n : Nat) : ∀ (m : List Host.Cell) (a v : Nat), writeBytes m a n (v % 256 ^ n) = writeBytes m a n v := by
  induction n with
  | zero => intro m a v; rfl
  | succ n ih =>
    intro m a v
    have hbyte : BitVec.ofNat 8 (v % 256 ^ (n + 1)) = BitVec.ofNat 8 v := by
      apply BitVec.eq_of_toNat_eq
      simp only [BitVec.toNat_ofNat]
      exact Nat.mod_mod_of_dvd _ (Nat.dvd_mul_left (2 ^ 8) (256 ^ n))
    rw [writeBytes, writeBytes, hbyte, Nat.pow_succ, Nat.mod_mul_left_div_self, ih]

/-- The bytes that a write to canonical memory leaves. -/
theorem onlyBytes_of_mem {s t : State} {pa n v : Nat} (h : t.mem = writeBytes s.mem pa n v) : onlyBytes s t pa n v := by
  refine ⟨fun hwf i hi => ?_, fun x hx => ?_⟩
  · rw [h, readByte_writeBytes n _ _ _ _ hwf, if_pos (by omega), Nat.add_sub_cancel_left]
    rfl
  · rw [h, readByte_writeBytes_outside n _ _ _ _ hx]

/-! ### What a store to a window leaves -/

/-- From `s` to `t` the tiles have changed by used-up injections alone, and jobs and outputs not at all. -/
def injectionsOnly (s t : State) : Prop :=
  t.jobs = s.jobs ∧ t.out = s.out ∧ ∀ w, ∃ j, t.tile w = { s.tile w with inject := j }

theorem injectionsOnly_refl (s : State) : injectionsOnly s s := ⟨rfl, rfl, fun _ => ⟨_, rfl⟩⟩

theorem injectionsOnly_trans {s m t : State} (h : injectionsOnly s m) (k : injectionsOnly m t) : injectionsOnly s t := by
  obtain ⟨hj, ho, ht⟩ := h
  obtain ⟨kj, ko, kt⟩ := k
  refine ⟨kj.trans hj, ko.trans ho, fun w => ?_⟩
  obtain ⟨i, hi⟩ := ht w
  obtain ⟨j, hj⟩ := kt w
  exact ⟨j, by rw [hj, hi]⟩

theorem injectionsOnly_ctx {s t : State} (h : injectionsOnly s t) (w : Nat) (d : Bool) : t.ctx w d = s.ctx w d := by
  obtain ⟨-, -, ht⟩ := h
  obtain ⟨j, hj⟩ := ht w
  rw [State.ctx, hj]
  cases d <;> rfl

/-- A word's permission does not look at injections. -/
theorem injectionsOnly_acceptance {s t : State} (h : injectionsOnly s t) (u off : Nat) (steward : Bool) :
    t.acceptance u off steward = s.acceptance u off steward := by
  have hc := injectionsOnly_ctx h
  obtain ⟨hj, -, ht⟩ := h
  obtain ⟨j, hu⟩ := ht u
  have htarget : (t.tile u).targetContext off = (s.tile u).targetContext off := by rw [hu]; rfl
  have hquiet : ∀ d, t.quiet u d = s.quiet u d := by
    intro d
    simp only [State.quiet, State.slotOf, State.jobSlot, State.job, hc, hj, hu]
  simp only [State.acceptance, htarget, hquiet]

/-- A fold whose steps change nothing but injections. -/
theorem injectionsOnly_foldl {α : Type} {f : State → α → State} (hf : ∀ s a, injectionsOnly s (f s a)) (l : List α) (s : State) :
    injectionsOnly s (l.foldl f s) := by
  induction l generalizing s with
  | nil => exact injectionsOnly_refl s
  | cons a l ih => exact injectionsOnly_trans (hf s a) (ih _)

theorem State.fireInjection_jobs_out (s : State) (pa n : Nat) :
    (s.fireInjection pa n).jobs = s.jobs ∧ (s.fireInjection pa n).out = s.out := by
  unfold State.fireInjection
  simp only []
  split
  · split
    · split <;> exact ⟨rfl, rfl⟩
    · exact ⟨rfl, rfl⟩
  · exact ⟨rfl, rfl⟩

theorem injectionsOnly_fireInjection (s : State) (pa n : Nat) : injectionsOnly s (s.fireInjection pa n) :=
  ⟨(s.fireInjection_jobs_out pa n).1, (s.fireInjection_jobs_out pa n).2, s.tile_fireInjection pa n⟩

theorem injectionsOnly_of_eq {s t : State} (hunits : t.units = s.units) (hjobs : t.jobs = s.jobs) (hout : t.out = s.out) :
    injectionsOnly s t :=
  ⟨hjobs, hout, fun w => ⟨(s.tile w).inject, by rw [State.tile, hunits]; rfl⟩⟩

theorem injectionsOnly_wakeMonitors (s : State) (b : Option Nat) (pa n : Nat) : injectionsOnly s (s.wakeMonitors b pa n) := by
  unfold State.wakeMonitors
  split
  · refine injectionsOnly_foldl (fun s e => ?_) _ _
    exact injectionsOnly_of_eq rfl rfl rfl
  · exact injectionsOnly_refl s

theorem injectionsOnly_clearLines (s : State) (pa n : Nat) : injectionsOnly s (s.clearLines pa n) := by
  refine injectionsOnly_foldl (fun s l => ?_) _ _
  exact injectionsOnly_of_eq rfl rfl rfl

/-- A store uses up injections; it changes memory, poison, inverted bits and dues, and nothing else. -/
theorem injectionsOnly_storePA (s : State) (pa n v : Nat) (b : Option Nat) : injectionsOnly s (s.storePA pa n v b) := by
  have hmem : injectionsOnly s { s with mem := storeBytes s.mem pa n v } := injectionsOnly_of_eq rfl rfl rfl
  have hwords (t : State) : injectionsOnly t ((wordsWithin pa n).foldl State.clearPoison t) := by
    refine injectionsOnly_foldl (fun s w => ?_) _ _
    exact injectionsOnly_of_eq rfl rfl rfl
  exact injectionsOnly_trans (injectionsOnly_trans (injectionsOnly_trans (injectionsOnly_trans hmem (injectionsOnly_clearLines _ pa n))
    (hwords _)) (injectionsOnly_fireInjection _ pa n)) (injectionsOnly_wakeMonitors _ b pa n)

end Sys2Proof.Machine
end


section
/-!
SUPPORT. Writes of a scratchpad by an agent (07 R218), word by word.
-/
open Sys2Proof Sys2Proof.Machine Sys2Proof.Claims
namespace Sys2Proof.Machine

/-- No scratchpad reaches the words that a steward may write of its own right. -/
theorem scratchSize_le (u : Nat) : scratchSize u ≤ 0x180000 := by unfold scratchSize; split <;> omega

theorem windowPA_window {u off : Nat} (hu : u < 784) (ho : off < 2 ^ 22) : windowPA u off / 2 ^ 52 = 0xE ∧ windowPA u off / 2 ^ 22 % 1024 = u
    ∧ windowPA u off / 2 ^ 22 * 2 ^ 22 = windowPA u 0 := by
  unfold windowPA
  omega

/-- Below a steward's status word a store to a scratchpad is the write of its bytes. -/
theorem storeBytes_pad (m : List Host.Cell) {u off n : Nat} (v : Nat) (hu : u < 784) (ho : off < 2 ^ 22)
    (hstatus : 768 ≤ u → off + n ≤ 0x7FFB8) : storeBytes m (windowPA u off) n v = writeBytes m (windowPA u off) n v := by
  obtain ⟨-, htile, hbase⟩ := windowPA_window hu ho
  unfold storeBytes
  simp only [htile, hbase]
  refine if_neg fun ⟨_, h768, _, hreach⟩ => ?_
  have := hstatus h768
  unfold windowPA at hreach
  omega

theorem State.spoilSpill_of_none {s : State} {u : Nat} (h : ∀ c, (s.ctx u c).spill = none) (off n : Nat) : s.spoilSpill u off n = s := by
  unfold State.spoilSpill
  split
  · simp only [h]
  · rfl

/-- A part of a scratchpad write, in a word that accepts it. -/
theorem State.storePart_pad {s : State} {u lo len v : Nat} {steward : Bool} (hu : u < 784) (hpad : plainPad s u lo len)
    (ha : s.acceptance u (lo / 8 * 8) steward = .accepted) : ∃ t, s.storePart u steward (lo, len, v) = some t
      ∧ t.mem = writeBytes s.mem (windowPA u lo) len v ∧ injectionsOnly s t := by
  obtain ⟨hlen, hsize, hA, hB, hstatus⟩ := hpad
  have hscratch := scratchSize_le u
  have hown := s.stewardsOwn_outside u (off := lo / 8 * 8) (BitVec.ofNat 64 (v * 2 ^ (8 * (lo % 8)))) steward (by omega)
  have hspill : ∀ c, (s.ctx u c).spill = none := fun c => by cases c <;> assumption
  refine ⟨s.storePA (windowPA u lo) len v, ?_, ?_, injectionsOnly_storePA ..⟩
  · unfold State.stewardsOwn at hown
    unfold State.storePart
    simp only [hown, ha, State.windowWrite, State.spoilSpill_of_none hspill]
    rw [if_pos (.inl hsize)]
  · rw [State.mem_storePA, storeBytes_pad _ _ hu (by omega) hstatus]

/-- The bytes of a write before its `i`-th word. -/
def bytesBefore (off n i : Nat) : Nat := min (off + n) (off / 8 * 8 + 8 * i) - off

/-- The part of a write in its `i`-th word. -/
def wordPart (off n v i : Nat) : Nat × Nat × Nat :=
  (off + bytesBefore off n i, bytesBefore off n (i + 1) - bytesBefore off n i,
    bits v (8 * bytesBefore off n i) (8 * (bytesBefore off n (i + 1) - bytesBefore off n i)))

theorem wordParts_eq (off n v : Nat) : wordParts off n v = (List.range ((off + n + 7) / 8 - off / 8)).map (wordPart off n v) := by
  unfold wordParts
  refine List.map_congr_left fun i hi => ?_
  have hi : i < (off + n + 7) / 8 - off / 8 := List.mem_range.mp hi
  have hlo : max off (off / 8 * 8 + 8 * i) = off + bytesBefore off n i := by unfold bytesBefore; omega
  have hhi : min (off + n) (off / 8 * 8 + 8 * i + 8) = off + bytesBefore off n (i + 1) := by unfold bytesBefore; omega
  simp only [hlo, hhi, wordPart, Nat.add_sub_add_left, Nat.add_sub_cancel_left]

theorem bytesBefore_bounds {off n i : Nat} (hn : 0 < n) (hi : i < (off + n + 7) / 8 - off / 8) :
    bytesBefore off n i < bytesBefore off n (i + 1) ∧ bytesBefore off n (i + 1) ≤ n ∧ (off + bytesBefore off n i) / 8 = off / 8 + i := by
  unfold bytesBefore
  omega

/-- The parts before a word, and the part in it, are the parts before the next. -/
theorem writeBytes_wordPart (m : List Host.Cell) (pa v off n i : Nat) :
    writeBytes (writeBytes m pa (bytesBefore off n i) v) (pa + bytesBefore off n i) (bytesBefore off n (i + 1) - bytesBefore off n i)
        (bits v (8 * bytesBefore off n i) (8 * (bytesBefore off n (i + 1) - bytesBefore off n i)))
      = writeBytes m pa (bytesBefore off n (i + 1)) v := by
  have h256 (k : Nat) : 2 ^ (8 * k) = 256 ^ k := Nat.pow_mul 2 8 k
  have hle : bytesBefore off n i ≤ bytesBefore off n (i + 1) := by unfold bytesBefore; omega
  unfold bits
  rw [h256, h256, writeBytes_mod, ← writeBytes_add, Nat.add_sub_cancel' hle]

/-- A part of a write that no spill stands in the way of is one too. -/
theorem plainPad_wordPart {s t : State} {u off n k : Nat} (hctx : ∀ d, t.ctx u d = s.ctx u d) (h : plainPad s u off n)
    (hk : k < (off + n + 7) / 8 - off / 8) :
    plainPad t u (off + bytesBefore off n k) (bytesBefore off n (k + 1) - bytesBefore off n k) := by
  obtain ⟨hn, hsize, hA, hB, hstatus⟩ := h
  obtain ⟨hlt, hle, -⟩ := bytesBefore_bounds hn hk
  refine ⟨by omega, by omega, hctx false ▸ hA, hctx true ▸ hB, fun hu => ?_⟩
  have := hstatus hu
  omega

/-- A part of a write is in a word of it. -/
theorem acceptance_wordPart {s : State} {u off n k : Nat} {steward : Bool} (hn : 0 < n) (hk : k < (off + n + 7) / 8 - off / 8) :
    s.acceptance u ((off + bytesBefore off n k) / 8 * 8) steward = s.acceptance u (8 * (off / 8 + k)) steward := by
  obtain ⟨-, -, hword⟩ := bytesBefore_bounds hn hk
  rw [hword, Nat.mul_comm]

/-- Words that accept a write take their parts. -/
theorem State.foldl_storePart_pad {s : State} {u off n : Nat} (v : Nat) {steward : Bool} (hu : u < 784) (hpad : plainPad s u off n)
    (ha : allAccepted s u off n steward) : ∀ k, k ≤ (off + n + 7) / 8 - off / 8 → ∃ t,
      (((List.range k).map (wordPart off n v)).foldl (fun s p => (s.storePart u steward p).getD s) s) = t
        ∧ t.mem = writeBytes s.mem (windowPA u off) (bytesBefore off n k) v ∧ injectionsOnly s t
  | 0, _ => ⟨s, rfl, by simp [bytesBefore, show min (off + n) (off / 8 * 8) - off = 0 by omega, writeBytes], injectionsOnly_refl s⟩
  | k + 1, hk => by
    obtain ⟨t, ht, hmem, hinj⟩ := State.foldl_storePart_pad v hu hpad ha k (by omega)
    have hacc := ha (off / 8 + k) (by omega) (by omega)
    rw [← injectionsOnly_acceptance hinj, ← acceptance_wordPart hpad.1 (by omega)] at hacc
    obtain ⟨m, hm, hmmem, hminj⟩ := State.storePart_pad (v := (wordPart off n v k).2.2) hu
      (plainPad_wordPart (injectionsOnly_ctx hinj u) hpad (by omega)) hacc
    refine ⟨m, ?_, ?_, injectionsOnly_trans hinj hminj⟩
    · rw [List.range_succ, List.map_append, List.foldl_append, ht, List.map_singleton, List.foldl_cons, List.foldl_nil]
      exact congrArg (·.getD t) hm
    · rw [hmmem, hmem, ← writeBytes_wordPart s.mem (windowPA u off) v off n k]
      congr 1
      unfold windowPA
      omega

/-- A write that every word of a scratchpad accepts is the write of its bytes. -/
theorem State.storeWindow_pad_accepted {s : State} {u off n : Nat} (v : Nat) {steward : Bool} (hu : u < 784) (hpad : plainPad s u off n)
    (ha : allAccepted s u off n steward) : ∃ t, s.storeWindow u off n v steward = some t
      ∧ t.mem = writeBytes s.mem (windowPA u off) n v ∧ injectionsOnly s t := by
  obtain ⟨t, ht, hmem, hinj⟩ := State.foldl_storePart_pad v hu hpad ha _ (Nat.le_refl _)
  have hnone : ((wordParts off n v).any fun p => (s.storePart u steward p).isNone) = false := by
    rw [wordParts_eq, List.any_eq_false]
    intro p hp
    obtain ⟨k, hk, rfl⟩ := List.mem_map.mp hp
    have hk : k < (off + n + 7) / 8 - off / 8 := List.mem_range.mp hk
    have hacc := ha (off / 8 + k) (by omega) (by omega)
    rw [← acceptance_wordPart hpad.1 hk] at hacc
    obtain ⟨m, hm, -, -⟩ := State.storePart_pad (v := (wordPart off n v k).2.2) hu (plainPad_wordPart (fun _ => rfl) hpad hk) hacc
    have hm : s.storePart u steward (wordPart off n v k) = some m := hm
    simp [hm]
  refine ⟨t, ?_, ?_, hinj⟩
  · simp only [State.storeWindow, hnone, Bool.false_eq_true, if_false]
    rw [wordParts_eq, ht]
  · have hall : bytesBefore off n ((off + n + 7) / 8 - off / 8) = n := by
      obtain ⟨hn, -⟩ := hpad
      unfold bytesBefore
      omega
    rw [hmem, hall]

/-- A write that a word of a scratchpad refuses is refused. -/
theorem State.storeWindow_pad_refused {s : State} {u off n : Nat} (v : Nat) {steward : Bool} (hpad : plainPad s u off n)
    (hr : someRefused s u off n steward) : s.storeWindow u off n v steward = none := by
  obtain ⟨w, hlo, hhi, hw⟩ := hr
  obtain ⟨hn, hsize, -⟩ := hpad
  have hscratch := scratchSize_le u
  have hk : w - off / 8 < (off + n + 7) / 8 - off / 8 := by omega
  rw [show w = off / 8 + (w - off / 8) by omega, ← acceptance_wordPart hn hk] at hw
  have hnone : ((wordParts off n v).any fun p => (s.storePart u steward p).isNone) = true := by
    rw [wordParts_eq, List.any_eq_true]
    refine ⟨_, List.mem_map.mpr ⟨w - off / 8, List.mem_range.mpr hk, rfl⟩, ?_⟩
    generalize hlow : off + bytesBefore off n (w - off / 8) = lo at hw
    have hown := s.stewardsOwn_outside u (off := lo / 8 * 8) (BitVec.ofNat 64 ((wordPart off n v (w - off / 8)).2.2 * 2 ^ (8 * (lo % 8))))
      steward (by unfold bytesBefore at hlow; omega)
    unfold State.stewardsOwn at hown
    simp only [State.storePart, wordPart, hlow] at hown ⊢
    simp only [hown, hw, Option.isNone_none]
  simp only [State.storeWindow, hnone, if_true]

end Sys2Proof.Machine
end


section
/-!
SUPPORT. Control space (01 R36; 07 R221; 13 R385; 14 R409): open to stewards alone.
-/
open Sys2Proof Sys2Proof.Machine Sys2Proof.Claims
namespace Sys2Proof.Machine

/-- An event of control space is one write of a word. -/
theorem exec_controlEvent {i : Instr} {agent off : Nat} (s : State) (h : controlEvent i = some (agent, off)) :
    ∃ v, exec i s = .next (s.agentControl agent off 8 v) := by
  unfold controlEvent at h
  split at h
  · split at h
    · next hj =>
      cases h
      exact ⟨_, congrArg Host.Outcome.next (if_pos hj)⟩
    · cases h
  · cases h; exact ⟨_, rfl⟩
  · cases h; exact ⟨_, rfl⟩
  · cases h; exact ⟨_, rfl⟩
  · split at h
    · next hl =>
      cases h
      refine ⟨2 ^ 60, ?_⟩
      change Host.Outcome.next _ = _
      rw [if_pos hl]
    · cases h
  · cases h

/-- Other agents are refused; the host's writes have no effect. -/
theorem controlEvent_closed {i : Instr} {agent off : Nat} (s : State) (h : controlEvent i = some (agent, off))
    (ha : stewardAgent agent = false) : (agent = 0xFFF → exec i s = .next s)
      ∧ ∀ v d, agentPlace agent = some (v, d) → ∃ t, exec i s = .next t ∧ refusedWrite s t agent (0xF * 2 ^ 52 + off) 3 := by
  obtain ⟨w, hw⟩ := exec_controlEvent s h
  refine ⟨fun hhost => ?_, fun v d hplace => ⟨_, hw, ?_⟩⟩
  · rw [hw, State.agentControl, ha, if_neg (by decide), if_pos hhost]
  · have hhost : agent ≠ 0xFFF := fun h => by rw [h, agentPlace_host] at hplace; cases hplace
    simp only [State.agentControl, ha, Bool.false_eq_true, if_false, if_neg hhost]
    exact s.refusedWrite_writeRefused ..

/-- A barrier plane changes for an open, whistled job that is frozen (14 R409). -/
theorem exec_barrierPlaneWrite_steward (s : State) {agent j : Nat} (v : Word) (ha : stewardAgent agent = true) (hj : j < 8) :
    ∃ t, exec (.barrierPlaneWrite agent j v) s = .next t ∧ t.mem = s.mem ∧ t.units = s.units
      ∧ t.job j = (s.job j).planePut v ∧ ∀ k, k ≠ j → t.job k = s.job k := by
  obtain ⟨p, f, h⟩ := s.agentControl_steward v ha (off := 0x50800 + 8 * j) (by omega)
  rw [State.controlPut_plane _ v hj] at h
  refine ⟨_, congrArg Host.Outcome.next ((if_pos hj).trans h), rfl, rfl, State.job_modJob_same .., fun k hk => ?_⟩
  exact State.job_modJob_other _ _ hk

theorem Job.planePut_eq (b : Job) (v : Word) : b.planePut v = if b.opened = true ∧ b.valid = true ∧ b.runState = 1 ∧ v.toNat ≤ 71 then
    { b with bplane := v.toNat, moved := b.moved || v.toNat != b.bplane } else b := by
  simp only [Job.planePut, Bool.and_eq_true, beq_iff_eq, decide_eq_true_eq, and_assoc]

theorem exec_noticeLineSet_steward (s : State) {agent : Nat} (d : Nat) (v : Word) (ha : stewardAgent agent = true) :
    ∃ t, exec (.noticeLineSet agent d v) s = .next t ∧ t.mem = s.mem ∧ t.units = s.units
      ∧ t.noticeAddr.look 0 (d % 4) = (v &&& 0xFFFFFFFFC0).toNat ∧ t.noticeCount.look 0 (d % 4) = 0
      ∧ ∀ k, k ≠ d % 4 → t.noticeAddr.look 0 k = s.noticeAddr.look 0 k ∧ t.noticeCount.look 0 k = s.noticeCount.look 0 k := by
  obtain ⟨p, f, h⟩ := s.agentControl_steward v ha (off := 0x31000 + 8 * (d % 4)) (by omega)
  rw [State.controlPut_notice _ v (Nat.mod_lt d (by omega))] at h
  refine ⟨_, congrArg Host.Outcome.next h, rfl, rfl, ?_, ?_, fun k hk => ⟨?_, ?_⟩⟩ <;> simp [State.noticePut, State.withErrors, *]

theorem exec_monitorConfigWrite_die (s : State) {agent : Nat} (d k : Nat) (v : Word) (ha : stewardAgent agent = true) :
    ∃ t, exec (.monitorConfigWrite agent true d k v) s = .next t ∧ t.mem = s.mem ∧ t.units = s.units
      ∧ t.dieMon.look {} (8 * (d % 4) + k % 8) = Monitor.configure v
      ∧ ∀ n, n ≠ 8 * (d % 4) + k % 8 → t.dieMon.look {} n = s.dieMon.look {} n := by
  obtain ⟨p, f, h⟩ := s.agentControl_steward v ha (off := 0xC0000 + 0x1000 * (d % 4) + 0x200 * (k % 8) + 0x118) (by omega)
  rw [State.controlPut_monitor _ v (Nat.mod_lt d (by omega)) (Nat.mod_lt k (by omega))] at h
  refine ⟨_, congrArg Host.Outcome.next h, rfl, rfl, ?_, fun n hn => ?_⟩ <;> simp [State.withErrors, *]

theorem exec_routeUnitJobWrite_steward (s : State) {agent : Nat} (d : Nat) (v : Word) (ha : stewardAgent agent = true) :
    ∃ t, exec (.routeUnitJobWrite agent d v) s = .next t ∧ t.mem = s.mem ∧ t.units = s.units
      ∧ t.routeUnit.look {} (d % 4) = { job := v.extractLsb' 32 32, granted := (s.routeUnit.look {} (d % 4)).granted
                                        waiting := (s.routeUnit.look {} (d % 4)).waiting }
      ∧ ∀ k, k ≠ d % 4 → t.routeUnit.look {} k = s.routeUnit.look {} k := by
  obtain ⟨p, f, h⟩ := s.agentControl_steward v ha (off := 0x78000 + 0x1000 * (d % 4)) (by omega)
  rw [State.controlPut_routeJob _ v (Nat.mod_lt d (by omega))] at h
  refine ⟨_, congrArg Host.Outcome.next h, rfl, rfl, ?_, fun k hk => ?_⟩ <;> simp [State.routeJobPut, State.withErrors, *]

end Sys2Proof.Machine
end


section
/-!
SUPPORT. Words of a control-core block: what a steward may write at any time, and what a quiet context lets be written (07 R218; 09
R265, R282; 10 R303; 13 R373).
-/
open Sys2Proof Sys2Proof.Machine Sys2Proof.Claims
namespace Sys2Proof.Machine

theorem blockBase_aligned (c : Bool) : blockBase c % 8 = 0 := by cases c <;> rfl

/-- SERVED of a receive fault. -/
theorem exec_rfqServed_steward (s : State) {agent u : Nat} (c : Bool) (k : Nat) (ha : stewardAgent agent = true) (hu : u < 768) :
    exec (.rfqServed agent u c k) s = .next (s.markFault u c (k % 64) true false) := by
  have hc := blockBase_aligned c
  have hown := s.stewardsOwn_fault c 0x4000000000000000 hu (Nat.mod_lt k (by decide : 64 > 0))
  rw [← ha, ← Nat.add_assoc] at hown
  exact congrArg Host.Outcome.next (State.agentWindow_own (by omega) hown)

/-- DEAD of a receive fault. -/
theorem exec_rfqDead_steward (s : State) {agent u : Nat} (c : Bool) (k : Nat) (ha : stewardAgent agent = true) (hu : u < 768) :
    exec (.rfqDead agent u c k) s = .next (s.markFault u c (k % 64) false true) := by
  have hc := blockBase_aligned c
  have hown := s.stewardsOwn_fault c 0x2000000000000000 hu (Nat.mod_lt k (by decide : 64 > 0))
  rw [← ha, ← Nat.add_assoc] at hown
  exact congrArg Host.Outcome.next (State.agentWindow_own (by omega) hown)

/-- RETRY of a stream. -/
theorem exec_streamRetry_steward (s : State) {agent u : Nat} (c : Bool) (k : Nat) (ha : stewardAgent agent = true) (hu : u < 768) :
    exec (.streamRetry agent u c k) s = .next (s.retryStream u c (k % 16)) := by
  have hc := blockBase_aligned c
  have hown := s.stewardsOwn_retry c hu (Nat.mod_lt k (by decide : 16 > 0)) (v := 0x4000000000000000) (by decide)
  rw [← ha, ← Nat.add_assoc] at hown
  exact congrArg Host.Outcome.next (State.agentWindow_own (by omega) hown)

/-- A write of a word of a block that is no steward's own. -/
theorem State.agentWindow_block (s : State) (agent : Nat) {u : Nat} {c : Bool} {o : Nat} (v : Word) (h8 : o % 8 = 0)
    (ho : 0x6240 ≤ o ∧ o < 0x10000) (hu : c = true → u < 768) : s.agentWindow agent u (blockBase c + o) 8 v.toNat
      = if coreListed (isSteward u) c o = false then s
        else if s.quiet u c = true then (s.wordStored u (blockBase c + o)).corePut u c o (byteMask 0 8) v
        else s.writeRefused agent (windowPA u (blockBase c + o)) 0 := by
  obtain ⟨hlo, hhi⟩ := ho
  have hb := blockBase_bounds c hhi
  have hc := blockBase_aligned c
  have hown := s.stewardsOwn_block u c v (stewardAgent agent) hhi (by omega)
  have hmail : isMailbox u (blockBase c + o) = false := by
    have hblk : (blockBase c + o) / 0x10000 = 0x2B ∨ (blockBase c + o) / 0x10000 = 0x2C := by omega
    unfold isMailbox
    rw [blockBase_mod c hhi]
    simp only [Bool.and_eq_false_imp, Bool.or_eq_false_iff, Bool.or_eq_true, Bool.and_eq_true, decide_eq_true_eq, beq_iff_eq,
      decide_eq_false_iff_not]
    omega
  have hacc := s.acceptance_block (stewardAgent agent) hhi hu
  simp only [hmail, Bool.false_eq_true, false_or] at hacc
  split
  · next hl => exact State.agentWindow_ignored (by omega) hown (hacc.trans (if_pos hl))
  · next hl =>
    rw [if_neg hl] at hacc
    split
    · next hq =>
      rw [State.agentWindow_accepted (by omega) (by omega) hown (hacc.trans (if_pos hq)), State.windowPut_block _ _ _ _ hhi hu]
    · next hq => exact State.agentWindow_refused (by omega) hown (hacc.trans (if_neg hq))

/-- Status words of strips are listed. -/
theorem coreListed_status {e : Nat} (c : Bool) (h1 : 1 ≤ e) (h4 : e ≤ 4) : coreListed false c (0x7000 + 8 * e) = true := by
  have hall : ∀ e < 5, 1 ≤ e → ∀ c, coreListed false c (0x7000 + 8 * e) = true := by decide
  exact hall e (by omega) h1 c

/-- A tile has four timeline counters, a steward sixteen. -/
theorem coreListed_timeline (u k : Nat) (c : Bool) (hk : k < 16) : coreListed (isSteward u) c (0x6400 + 8 * k) = decide (768 ≤ u ∨ k < 4) := by
  have hsteward : ∀ k < 16, ∀ c, coreListed true c (0x6400 + 8 * k) = true := by decide
  have htile : ∀ k < 16, ∀ c, coreListed false c (0x6400 + 8 * k) = decide (k < 4) := by decide
  by_cases hu : 768 ≤ u
  · have hs : isSteward u = true := by simpa [isSteward] using hu
    rw [hs, hsteward k hk c, decide_eq_true (.inl hu)]
  · have hs : isSteward u = false := by simpa [isSteward] using hu
    rw [hs, htile k hk c]
    exact decide_eq_decide.mpr (by omega)

theorem exec_stripStatusWrite (s : State) (agent : Nat) {u : Nat} (c : Bool) {e : Nat} (v : Word) (hu : u < 768) (h1 : 1 ≤ e) (h4 : e ≤ 4) :
    exec (.stripStatusWrite agent u c e v) s = .next (if s.quiet u c = true then
        (s.wordStored u (blockBase c + (0x7000 + 8 * e))).corePut u c (0x7000 + 8 * e) (byteMask 0 8) v
      else s.writeRefused agent (windowPA u (blockBase c + (0x7000 + 8 * e))) 0) := by
  have hs : isSteward u = false := by simpa [isSteward] using hu
  have h := s.agentWindow_block agent (c := c) (o := 0x7000 + 8 * e) v (by omega) (by omega) fun _ => hu
  rw [hs, coreListed_status c h1 h4, if_neg (by decide)] at h
  change Host.Outcome.next _ = _
  rw [if_pos ⟨h1, h4⟩, Nat.add_assoc, h]

theorem exec_timelineWindowWrite (s : State) (agent : Nat) {u : Nat} {c : Bool} (k : Nat) (v : Word) (hu : c = true → u < 768) :
    exec (.timelineWindowWrite agent u c k v) s = .next (if 768 ≤ u ∨ k % 16 < 4 then
        (if s.quiet u c = true then (s.wordStored u (blockBase c + (0x6400 + 8 * (k % 16)))).modCtx u c fun x => x.timelinePut (k % 16) v
          else s.writeRefused agent (windowPA u (blockBase c + (0x6400 + 8 * (k % 16)))) 0)
      else s) := by
  have hk : k % 16 < 16 := Nat.mod_lt k (by decide)
  have h := s.agentWindow_block agent (o := 0x6400 + 8 * (k % 16)) v (by omega) (by omega) hu
  rw [coreListed_timeline u _ c hk, ← Nat.add_assoc] at h
  refine congrArg Host.Outcome.next (h.trans ?_)
  by_cases hlist : 768 ≤ u ∨ k % 16 < 4
  · simp only [hlist, decide_true, Bool.true_eq_false, if_false, if_true, State.corePut_timeline _ v hk hlist, Nat.add_assoc]
  · simp only [hlist, decide_false, if_true, if_false]

end Sys2Proof.Machine
end


section
/-!
SUPPORT. The status word of a strip and the timeline counters (09 R265; 13 R373), and the records of a unit (13 R377, R385; 07 R221).
-/
open Sys2Proof Sys2Proof.Machine Sys2Proof.Claims
namespace Sys2Proof.Machine

/-- A status word with another position, or with no partial state, restarts the strip there. -/
theorem Strip.statusPut_restart (x : Strip) {v : Word} (h : v.extractLsb' 0 23 ≠ x.pos ∨ v.extractLsb' 40 16 = 0) :
    x.statusPut v = { x.clean with pos := v.extractLsb' 0 23, el := v.getLsbD 23 } := by
  unfold Strip.statusPut
  refine if_pos ?_
  simp only [Bool.or_eq_true, bne_iff_ne, beq_iff_eq]
  exact h.imp id fun h0 => by rw [h0]; rfl

/-- One with the strip's own position and a partial state replaces that state. -/
theorem Strip.statusPut_resume (x : Strip) {v : Word} (hpos : v.extractLsb' 0 23 = x.pos) (h0 : v.extractLsb' 40 16 ≠ 0) :
    x.statusPut v = { x with ust := (v.extractLsb' 40 16).toNat, el := v.getLsbD 23
                             loose := x.loose || (v.extractLsb' 40 16).toNat != x.ust } := by
  have hn : (v.extractLsb' 40 16).toNat ≠ 0 := fun h => h0 (BitVec.eq_of_toNat_eq h)
  unfold Strip.statusPut
  refine if_neg ?_
  simp only [Bool.or_eq_true, bne_iff_ne, beq_iff_eq, not_or, ne_eq, Decidable.not_not]
  exact ⟨hpos, hn⟩

theorem Strip.statusPut_frame (x : Strip) (v : Word) : (x.statusPut v).state = x.state ∧ (x.statusPut v).pos = v.extractLsb' 0 23
    ∧ (x.statusPut v).el = v.getLsbD 23 ∧ (x.statusPut v).guards = x.guards := by
  by_cases h : v.extractLsb' 0 23 ≠ x.pos ∨ v.extractLsb' 40 16 = 0
  · rw [x.statusPut_restart h]
    exact ⟨rfl, rfl, rfl, rfl⟩
  · obtain ⟨hpos, h0⟩ := not_or.mp h
    rw [x.statusPut_resume (Decidable.not_not.mp hpos) h0]
    exact ⟨rfl, (Decidable.not_not.mp hpos).symm, rfl, rfl⟩

/-- A strip of a quiet context takes its status word. -/
theorem exec_stripStatusWrite_quiet (s : State) (agent : Nat) {u : Nat} {c : Bool} {e : Nat} (v : Word) (hu : u < 768) (h1 : 1 ≤ e)
    (h4 : e ≤ 4) (hq : s.quiet u c = true) : ∃ t, exec (.stripStatusWrite agent u c e v) s = .next t ∧ onlyContext s t u c
      ∧ (t.ctx u c).strip e = ((s.ctx u c).strip e).statusPut v
      ∧ ∀ k, 1 ≤ k → k ≤ 4 → k ≠ e → (t.ctx u c).strip k = (s.ctx u c).strip k := by
  obtain ⟨honly, os, ss, hctx⟩ := (s.wordStored u (blockBase c + (0x7000 + 8 * e))).corePut_strip (c := c) v hu h1 h4
  rw [State.ctx_wordStored] at hctx
  refine ⟨_, (exec_stripStatusWrite s agent c v hu h1 h4).trans (congrArg _ (if_pos hq)),
    onlyContext_trans (State.onlyContext_wordStored ..) honly, ?_, fun k hk1 hk4 hne => ?_⟩
  · rw [hctx, Ctx.strip_setStrip_same]
  · rw [hctx, Ctx.strip_setStrip_other _ _ ⟨h1, h4⟩ ⟨hk1, hk4⟩ hne, Ctx.strip_withOps]

/-- A timeline counter of a quiet context is raised; where a tile has no such counter nothing happens. -/
theorem exec_timelineWindowWrite_quiet (s : State) (agent : Nat) {u : Nat} {c : Bool} (k : Nat) (v : Word) (hu : c = true → u < 768)
    (hq : s.quiet u c = true) : ∃ t, exec (.timelineWindowWrite agent u c k v) s = .next t ∧ onlyContext s t u c
      ∧ ∀ n, (t.ctx u c).tl.look 0 n = if n = k % 16 ∧ (768 ≤ u ∨ k % 16 < 4) then max ((s.ctx u c).tl.look 0 n) v.toNat
          else (s.ctx u c).tl.look 0 n := by
  have h := exec_timelineWindowWrite s agent k v hu
  by_cases hlist : 768 ≤ u ∨ k % 16 < 4
  · rw [if_pos hlist, if_pos hq] at h
    refine ⟨_, h, onlyContext_trans (State.onlyContext_wordStored ..) (State.onlyContext_modCtx ..), fun n => ?_⟩
    rw [State.ctx_modCtx_same, State.ctx_wordStored, Ctx.look_timelinePut]
    simp only [hlist, and_true]
  · rw [if_neg hlist] at h
    refine ⟨s, h, onlyContext_refl .., fun n => ?_⟩
    simp only [hlist, and_false, if_false]

/-! ### Records of a unit -/

/-- Error logs of any unit, and monitors and the trace control of a tile, are listed. -/
theorem windowListed_record {u off : Nat} (hblk : off / 0x10000 = 0x2E) (h : off % 0x10000 < 0x118
    ∨ u < 768 ∧ (0x1000 ≤ off % 0x10000 ∧ off % 0x10000 < 0x1400 ∨ 0x3000 ≤ off % 0x10000 ∧ off % 0x10000 < 0x3018)) :
    windowListed u off = true := by
  unfold windowListed isSteward
  simp only [hblk, Bool.or_eq_true, Bool.and_eq_true, Bool.not_eq_true', decide_eq_true_eq, decide_eq_false_iff_not]
  omega

/-- A write of a listed word of the records. -/
theorem State.agentWindow_record (s : State) (agent : Nat) {u off : Nat} (v : Word) (h : off % 8 = 0) (hblk : off / 0x10000 = 0x2E)
    (hl : windowListed u off = true) : ∃ q, s.agentWindow agent u off 8 v.toNat = (s.wordStored u off).windowPut u off q (byteMask 0 8) v :=
  ⟨_, State.agentWindow_accepted h (by omega) (s.stewardsOwn_outside u v _ (by omega)) (s.acceptance_record _ hblk hl)⟩

/-- What a change of a tile outside its contexts does to what a store of a word left. -/
theorem State.mod_wordStored_frame (s : State) (u off : Nat) {f : Tile → Tile} (h : ∀ t d, (f t).ctx d = t.ctx d) :
    ((s.wordStored u off).mod u f).mem = s.mem ∧ (∀ w d, ((s.wordStored u off).mod u f).ctx w d = s.ctx w d)
    ∧ ∃ j, ((s.wordStored u off).mod u f).tile u = f { s.tile u with inject := j } := by
  obtain ⟨j, hj⟩ := s.tile_wordStored u off u
  refine ⟨?_, fun w d => ?_, j, ?_⟩
  · rw [State.mod_mem, State.mem_wordStored]
  · rw [State.ctx_mod_keeps _ _ h, State.ctx_wordStored]
  · rw [State.tile_mod_same, hj]

/-- Clearing VALID of an error log. -/
theorem exec_errorLogClear (s : State) (agent u a : Nat) : ∃ t, exec (.errorLogClear agent u a) s = .next t ∧ t.mem = s.mem
    ∧ (∀ w d, t.ctx w d = s.ctx w d)
    ∧ (t.tile u).elog.look {} (a % 8) = { (s.tile u).elog.look {} (a % 8) with valid := false, ue := false, ovf := false, inj := false }
    ∧ (∀ k, k ≠ a % 8 → (t.tile u).elog.look {} k = (s.tile u).elog.look {} k)
    ∧ (t.tile u).hang.look 0 0 = (if a % 8 = 6 then (s.tile u).hang.look 0 0 &&& 0x3FFFFFFFFFFFFFFF else (s.tile u).hang.look 0 0) := by
  have ha : a % 8 < 8 := Nat.mod_lt a (by decide)
  obtain ⟨q, h⟩ := s.agentWindow_record agent 0x8000000000000000 (off := 0x2E0000 + 0x20 * (a % 8)) (by omega) (by omega)
    (windowListed_record (by omega) (by omega))
  rw [State.windowPut_log _ u q ha (by decide)] at h
  obtain ⟨hmem, hctx, j, htile⟩ := s.mod_wordStored_frame u (0x2E0000 + 0x20 * (a % 8))
    (f := fun t => { t with
      elog := t.elog.put (a % 8) { t.elog.look {} (a % 8) with valid := false, ue := false, ovf := false, inj := false }
      hang := if a % 8 = 6 then t.hang.put 0 ((t.hang.look 0 0) &&& 0x3FFFFFFFFFFFFFFF) else t.hang })
    fun t d => by cases d <;> rfl
  refine ⟨_, congrArg Host.Outcome.next h, hmem, hctx, ?_, fun k hk => ?_, ?_⟩
  · rw [State.clearLog, htile]
    simp
  · rw [State.clearLog, htile]
    simp [hk]
  · rw [State.clearLog, htile]
    dsimp only
    split
    · rw [Tab.look_put, if_pos rfl]
    · rfl

theorem exec_traceControlWrite (s : State) (agent : Nat) {u : Nat} (v : Word) (hu : u < 768) :
    ∃ t, exec (.traceControlWrite agent u v) s = .next t ∧ t.mem = s.mem ∧ (∀ w d, t.ctx w d = s.ctx w d)
      ∧ (t.tile u).trace = (s.tile u).trace.control v := by
  obtain ⟨q, h⟩ := s.agentWindow_record agent (u := u) v (off := 0x2E3000) (by decide) (by decide)
    (windowListed_record (by decide) (.inr ⟨hu, by decide⟩))
  rw [State.windowPut_trace _ q v hu] at h
  obtain ⟨hmem, hctx, j, htile⟩ := s.mod_wordStored_frame u 0x2E3000 (f := fun t => { t with trace := t.trace.control v })
    fun t d => by cases d <;> rfl
  exact ⟨_, congrArg Host.Outcome.next h, hmem, hctx, by rw [htile]⟩

theorem exec_monitorConfigWrite_tile (s : State) (agent : Nat) {u : Nat} (a : Nat) (v : Word) (hu : u < 768) :
    ∃ t, exec (.monitorConfigWrite agent false u a v) s = .next t ∧ t.mem = s.mem ∧ (∀ w d, t.ctx w d = s.ctx w d)
      ∧ (t.tile u).mon.look {} (a % 2) = Monitor.configure v ∧ ∀ k, k ≠ a % 2 → (t.tile u).mon.look {} k = (s.tile u).mon.look {} k := by
  have ha : a % 2 < 2 := Nat.mod_lt a (by decide)
  obtain ⟨q, h⟩ := s.agentWindow_record agent (u := u) v (off := 0x2E1000 + 0x200 * (a % 2) + 0x118) (by omega) (by omega)
    (windowListed_record (by omega) (by omega))
  rw [State.windowPut_monitor _ q v hu ha] at h
  obtain ⟨hmem, hctx, j, htile⟩ := s.mod_wordStored_frame u (0x2E1000 + 0x200 * (a % 2) + 0x118)
    (f := fun t => { t with mon := t.mon.put (a % 2) (Monitor.configure v) }) fun t d => by cases d <;> rfl
  refine ⟨_, congrArg Host.Outcome.next h, hmem, hctx, ?_, fun k hk => ?_⟩
  · rw [htile, Tab.look_put, if_pos rfl]
  · rw [htile, Tab.look_put, if_neg hk]

end Sys2Proof.Machine
end


section
/-!
SUPPORT. Any window write by an agent, and the host's apertures (07 R218; 08 R230, R234; 15 R421).
-/
open Sys2Proof Sys2Proof.Machine Sys2Proof.Claims
namespace Sys2Proof.Machine

/-! ### Writes of windows by their physical address -/

/-- A physical address of a window decodes to its unit and offset. -/
theorem State.agentWrite_window (s : State) (agent : Nat) {u off : Nat} {a : ByteAccess} (hu : u < 784) (ho : off < 2 ^ 22)
    (ha : a.addr = windowPA u off) : s.agentWrite agent a = s.agentWindow agent u off (min a.size 64) a.data.toNat := by
  have hE : a.addr / 2 ^ 52 = 0xE := by rw [ha]; exact (windowPA_window hu ho).1
  have hunit : bits a.addr 22 10 = u := by rw [ha, bits]; exact (windowPA_window hu ho).2.1
  have hoff : bits a.addr 0 22 = off := by rw [ha, bits, windowPA]; omega
  have hhigh : bits a.addr 32 20 = 0 := by rw [ha, bits, windowPA]; omega
  have hbad : s.badPA (stewardAgent agent) a.addr = none := by
    unfold State.badPA
    simp only [hE, hhigh, hunit]
    exact if_neg (by simp; omega)
  unfold State.agentWrite
  simp only [hbad, hE, hunit, hoff, if_true]

theorem State.agentWindow_pad_accepted {s : State} {agent u off n : Nat} (v : Nat) (hu : u < 784) (hpad : plainPad s u off n)
    (ha : allAccepted s u off n (stewardAgent agent)) : ∃ t, s.agentWindow agent u off n v = t
      ∧ t.mem = writeBytes s.mem (windowPA u off) n v ∧ injectionsOnly s t := by
  obtain ⟨t, ht, h⟩ := State.storeWindow_pad_accepted v hu hpad ha
  exact ⟨t, by simp only [State.agentWindow, ht], h⟩

theorem State.agentWindow_pad_refused {s : State} {agent u off n : Nat} (v : Nat) (hpad : plainPad s u off n)
    (hr : someRefused s u off n (stewardAgent agent)) :
    s.agentWindow agent u off n v = s.writeRefused agent (windowPA u off) 0 := by
  simp only [State.agentWindow, State.storeWindow_pad_refused v hpad hr]

theorem plainPad_lt {s : State} {u off n : Nat} (h : plainPad s u off n) : off < 2 ^ 22 := by
  obtain ⟨hn, hsize, -⟩ := h
  have := scratchSize_le u
  omega

/-! ### What the host writes -/

/-- The stamp of a line that the host writes: the host's if an open job tracks the line, else that of no write. -/
def State.hostStamp (s : State) (l : Nat) : BitVec 32 :=
  if (List.range 8).any fun j => (s.job j).opened && (s.job j).tracks l then mkStamp 0 0xFFF else 0xFFD

theorem State.hostStamp_tracked {s : State} {l : Nat} (h : ∃ j, j < 8 ∧ (s.job j).opened = true ∧ (s.job j).tracks l = true) :
    s.hostStamp l = 0xFFF := by
  obtain ⟨j, hj, hopen, htrack⟩ := h
  refine (if_pos ?_).trans (by decide)
  rw [List.any_eq_true]
  exact ⟨j, List.mem_range.mpr hj, by rw [hopen, htrack]; rfl⟩

theorem State.hostStamp_untracked {s : State} {l : Nat} (h : ∀ j, j < 8 → (s.job j).opened = true → (s.job j).tracks l = false) :
    s.hostStamp l = 0xFFD := by
  refine if_neg ?_
  rw [Bool.not_eq_true, List.any_eq_false]
  intro j hj hboth
  obtain ⟨hopen, htrack⟩ := Bool.and_eq_true_iff.mp hboth
  rw [h j (List.mem_range.mp hj) hopen] at htrack
  cases htrack

theorem State.stamp_setStamp (s : State) (l k : Nat) (v : BitVec 32) : (s.setStamp l v).stamp k = if k = l then v else s.stamp k := by
  unfold State.stamp State.setStamp
  dsimp only
  split
  · next h => rw [Tab.look_del, h]
  · rw [Tab.look_put]

/-- The lines of a list take their stamps. -/
theorem State.stamp_foldl_hostStamp (ls : List Nat) : ∀ (s : State) (k : Nat),
    (ls.foldl (fun s l => s.setStamp l (s.hostStamp l)) s).stamp k = if k ∈ ls then s.hostStamp k else s.stamp k := by
  induction ls with
  | nil => intro s k; simp
  | cons l ls ih =>
    intro s k
    rw [List.foldl_cons, ih, State.stamp_setStamp]
    have hsame : (s.setStamp l (s.hostStamp l)).hostStamp k = s.hostStamp k := rfl
    by_cases hk : k = l
    · subst hk
      simp [hsame]
    · simp [hsame, hk]

theorem State.scrub_of_clean {s : State} (h : s.flips = []) (agent pa n : Nat) : s.scrub agent pa n = s := by
  unfold State.scrub
  rw [h]
  rfl

/-- The tiles, and the stamps of lines. -/
def State.unitsAndStamps (s : State) : Tab Tile × Tab (BitVec 32) := (s.units, s.stamps)

/-- A store outside windows fires no injection and sets no stamp. -/
theorem State.storePA_plain (s : State) {pa : Nat} (n v : Nat) (b : Option Nat) (h : pa / 2 ^ 52 ≠ 0xE) :
    (s.storePA pa n v b).unitsAndStamps = s.unitsAndStamps := by
  have hfire (t : State) : t.fireInjection pa n = t := if_neg h
  have hwake (t : State) : (t.wakeMonitors b pa n).unitsAndStamps = t.unitsAndStamps := by
    unfold State.wakeMonitors
    split
    · refine foldl_keeps State.unitsAndStamps (fun s e => ?_) _ _
      rfl
    · rfl
  have hlines (t : State) : (t.clearLines pa n).unitsAndStamps = t.unitsAndStamps := by
    refine foldl_keeps State.unitsAndStamps (fun s l => ?_) _ _
    rfl
  unfold State.storePA
  dsimp only
  rw [hwake, hfire, foldl_keeps State.unitsAndStamps (f := State.clearPoison) fun _ _ => rfl, hlines]
  rfl

theorem State.hostStamp_of_jobs {s t : State} (h : t.jobs = s.jobs) (l : Nat) : t.hostStamp l = s.hostStamp l := by
  unfold State.hostStamp State.job
  rw [h]

/-- What the host writes to device memory. -/
theorem State.hostWrite_memory {s : State} {pa : Nat} (n v : Nat) (hclean : s.flips = []) (hpa : pa ≤ 2 ^ 40) :
    (s.hostWrite pa n v).mem = writeBytes s.mem pa n v ∧ (s.hostWrite pa n v).units = s.units ∧ (s.hostWrite pa n v).out = s.out
    ∧ ∀ l, (s.hostWrite pa n v).stamp l = if l ∈ linesOf pa n then s.hostStamp l else s.stamp l := by
  have hE : pa / 2 ^ 52 ≠ 0xE := by omega
  have heq : s.hostWrite pa n v = (linesOf pa n).foldl (fun s l => s.setStamp l (s.hostStamp l)) (s.storePA pa n v) := by
    rw [State.hostWrite, State.scrub_of_clean hclean]
    rfl
  obtain ⟨hunits, hstamps⟩ := Prod.mk.inj (s.storePA_plain n v none hE)
  obtain ⟨hjobs, hout, -⟩ := injectionsOnly_storePA s pa n v none
  rw [heq]
  refine ⟨?_, ?_, ?_, fun l => ?_⟩
  · rw [foldl_keeps State.mem (f := fun (s : State) l => s.setStamp l (s.hostStamp l)) (fun _ _ => rfl), State.mem_storePA,
      storeBytes_plain _ _ _ _ hE]
  · rw [foldl_keeps State.units (f := fun (s : State) l => s.setStamp l (s.hostStamp l)) (fun _ _ => rfl), hunits]
  · rw [foldl_keeps State.out (f := fun (s : State) l => s.setStamp l (s.hostStamp l)) (fun _ _ => rfl), hout]
  · rw [State.stamp_foldl_hostStamp, State.hostStamp_of_jobs hjobs, State.stamp, State.stamp, hstamps]

/-! ### The regions of the host's aperture -/

/-- Device memory. -/
theorem exec_hostApertureAccess_memory {s : State} {a : ByteAccess} {n : Nat} (hn : n = min a.size 64) (hp : s.power = true)
    (h : a.addr + n ≤ 2 ^ 40) : exec (.hostApertureAccess a) s = .next (if a.write then s.hostWrite a.addr n a.data.toNat
      else (s.scrub 0xFFF a.addr n).emit (.host (bytesOf ((s.scrub 0xFFF a.addr n).loadPA a.addr n) n))) := by
  subst hn
  refine congrArg Host.Outcome.next (if_pos ?_)
  rw [hp, decide_eq_true h]
  rfl

/-- Windows. -/
theorem exec_hostApertureAccess_window {s : State} {a : ByteAccess} {n u off : Nat} (hn : n = min a.size 64) (h0 : 0 < n)
    (hp : s.power = true) (hu : u < 784) (ho : off + n ≤ 2 ^ 22) (h : a.addr = 2 ^ 40 + u * 2 ^ 22 + off) :
    exec (.hostApertureAccess a) s = .next (if a.write then s.agentWindow 0xFFF u off n a.data.toNat
      else (s.scrub 0xFFF (windowPA u off) n).emit
        (.host (bytesOf (s.windowRead u off n) n))) := by
  have hu' : (a.addr - 2 ^ 40) / 2 ^ 22 = u := by omega
  have ho' : (a.addr - 2 ^ 40) % 2 ^ 22 = off := by omega
  change Host.Outcome.next _ = _
  rw [← hn, if_neg ?memory, if_pos ?window, hu', ho']
  all_goals simp only [Bool.and_eq_true, decide_eq_true_eq, hp, true_and]; omega

/-- Control space. -/
theorem exec_hostApertureAccess_control {s : State} {a : ByteAccess} {n off : Nat} (hn : n = min a.size 64) (hp : s.power = true)
    (ho : off + n ≤ 2 ^ 32) (h : a.addr = 0x11000000000 + off) : exec (.hostApertureAccess a) s = .next (if a.write then s
      else s.emit (.host (bytesOf (s.controlRead off n) n))) := by
  have ho' : a.addr - 0x11000000000 = off := by omega
  change Host.Outcome.next _ = _
  rw [← hn, if_neg ?memory, if_neg ?window, if_pos ?control, ho']
  all_goals simp only [Bool.and_eq_true, decide_eq_true_eq, hp, true_and]; omega

/-- Where nothing answers, or without power. -/
theorem exec_hostApertureAccess_unsupported {s : State} {a : ByteAccess} {n : Nat} (hn : n = min a.size 64)
    (h : s.power = false ∨ 0x11100000000 < a.addr) : exec (.hostApertureAccess a) s = .next (if a.write then s.emit (.hostUnsupported a.addr)
      else (s.emit (.hostUnsupported a.addr)).emit (.host (bytesOf (2 ^ 512 - 1) n))) := by
  change Host.Outcome.next _ = _
  obtain hp | hp := h
  · simp only [hp, Bool.false_and, Bool.false_eq_true, if_false, hn]
  · rw [← hn, if_neg ?memory, if_neg ?window, if_neg ?control]
    all_goals simp only [Bool.and_eq_true, decide_eq_true_eq]; omega

theorem bits_ones {w k : Nat} (h : k + 8 ≤ w) : bits (2 ^ w - 1) k 8 = 255 := by
  apply Nat.eq_of_testBit_eq
  intro j
  rw [bits, Nat.testBit_mod_two_pow, Nat.testBit_div_two_pow, Nat.testBit_two_pow_sub_one, show 255 = 2 ^ 8 - 1 by rfl,
    Nat.testBit_two_pow_sub_one, ← Bool.decide_and]
  exact decide_eq_decide.mpr (by omega)

/-- A line of ones. -/
theorem bytesOf_ones {n : Nat} (h : n ≤ 64) : bytesOf (2 ^ 512 - 1) n = List.replicate n 0xFF := by
  rw [List.eq_replicate_iff]
  refine ⟨(List.length_map _).trans List.length_range, fun b hb => ?_⟩
  obtain ⟨i, hi, rfl⟩ := List.mem_map.mp hb
  have hi : i < n := List.mem_range.mp hi
  rw [bits_ones (w := 512) (by omega)]
  rfl

end Sys2Proof.Machine
end


section
/-!
PROOF. Writes of windows and control space by agents, and the host's apertures: clause by clause.
-/
open Sys2Proof Sys2Proof.Machine Sys2Proof.Claims
namespace Sys2Proof.Machine

/-- A steward's write of a barrier plane (14 R409). -/
theorem barrierPlaneWrite_results (s : State) (agent : Nat) (v : Word) (ha : stewardAgent agent = true) :
    (∀ j, 8 ≤ j → exec (.barrierPlaneWrite agent j v) s = .next s)
    ∧ (∀ j b, j < 8 → b = s.job j → ∃ t, exec (.barrierPlaneWrite agent j v) s = .next t ∧ t.mem = s.mem ∧ t.units = s.units
      ∧ t.job j = (if b.opened = true ∧ b.valid = true ∧ b.runState = 1 ∧ v.toNat ≤ 71 then
          { b with bplane := v.toNat, moved := b.moved || v.toNat != b.bplane } else b)
      ∧ ∀ k, k ≠ j → t.job k = s.job k) := by
  refine ⟨fun j hj => congrArg Host.Outcome.next (if_neg (by omega)), fun j b hj hb => ?_⟩
  subst hb
  rw [← Job.planePut_eq]
  exact exec_barrierPlaneWrite_steward s v ha hj

/-- A strip's status word, by its context's state (09 R265). -/
theorem stripStatusWrite_results (s : State) (agent u e : Nat) (c : Bool) (v : Word) (x : Strip) (hu : u < 768)
    (hx : x = (s.ctx u c).strip e) :
    (e = 0 ∨ 4 < e → exec (.stripStatusWrite agent u c e v) s = .next s)
    ∧ (1 ≤ e → e ≤ 4 → s.quiet u c = false → ∃ t, exec (.stripStatusWrite agent u c e v) s = .next t
      ∧ refusedWrite s t agent (windowPA u ((if c then 0x2C7000 else 0x2B7000) + 8 * e)) 0)
    ∧ (1 ≤ e → e ≤ 4 → s.quiet u c = true → ∃ t y, exec (.stripStatusWrite agent u c e v) s = .next t ∧ y = (t.ctx u c).strip e
      ∧ onlyContext s t u c ∧ y.state = x.state ∧ y.pos = v.extractLsb' 0 23 ∧ y.el = v.getLsbD 23
      ∧ y.guards = x.guards
      ∧ (v.extractLsb' 0 23 ≠ x.pos ∨ v.extractLsb' 40 16 = 0 → y.ust = 0 ∧ y.held = [] ∧ y.done = [] ∧ y.op = none ∧ y.spent = 0)
      ∧ (v.extractLsb' 0 23 = x.pos → v.extractLsb' 40 16 ≠ 0 →
        y.ust = (v.extractLsb' 40 16).toNat ∧ y.loose = (x.loose || (v.extractLsb' 40 16).toNat != x.ust) ∧ y.held = x.held
          ∧ y.done = x.done ∧ y.op = x.op)
      ∧ ∀ k, 1 ≤ k → k ≤ 4 → k ≠ e → (t.ctx u c).strip k = (s.ctx u c).strip k) := by
  have hword : (if c then 0x2C7000 else 0x2B7000) + 8 * e = blockBase c + (0x7000 + 8 * e) := by
    cases c <;> simp only [blockBase, Bool.false_eq_true, if_false, if_true] <;> omega
  refine ⟨fun he => congrArg Host.Outcome.next (if_neg (by omega)), fun h1 h4 hq => ?_, fun h1 h4 hq => ?_⟩
  · rw [hword]
    exact ⟨_, (exec_stripStatusWrite s agent c v hu h1 h4).trans (congrArg _ (if_neg (by simp [hq]))), s.refusedWrite_writeRefused ..⟩
  · obtain ⟨t, ht, honly, hstrip, hothers⟩ := exec_stripStatusWrite_quiet s agent v hu h1 h4 hq
    rw [← hx] at hstrip
    obtain ⟨hstate, hpos, hel, hguards⟩ := x.statusPut_frame v
    refine ⟨t, x.statusPut v, ht, hstrip.symm, honly, hstate, hpos, hel, hguards, fun h => ?_, fun hp h0 => ?_, hothers⟩
    · rw [x.statusPut_restart h]
      exact ⟨rfl, rfl, rfl, rfl, rfl⟩
    · rw [x.statusPut_resume hp h0]
      exact ⟨rfl, rfl, rfl, rfl, rfl⟩

/-- A timeline counter, by its context's state (13 R373). -/
theorem timelineWindowWrite_results (s : State) (agent u k : Nat) (c : Bool) (v : Word) (hu : u < 768 ∨ (u < 784 ∧ c = false)) :
    (u < 768 → 4 ≤ k % 16 → exec (.timelineWindowWrite agent u c k v) s = .next s)
    ∧ (768 ≤ u ∨ k % 16 < 4 → s.quiet u c = false → ∃ t, exec (.timelineWindowWrite agent u c k v) s = .next t
      ∧ refusedWrite s t agent (windowPA u ((if c then 0x2C6400 else 0x2B6400) + 8 * (k % 16))) 0)
    ∧ (s.quiet u c = true → ∃ t, exec (.timelineWindowWrite agent u c k v) s = .next t ∧ onlyContext s t u c
      ∧ ∀ n, (t.ctx u c).tl.look 0 n = if n = k % 16 ∧ (768 ≤ u ∨ k % 16 < 4) then max ((s.ctx u c).tl.look 0 n) v.toNat
          else (s.ctx u c).tl.look 0 n) := by
  have huc : c = true → u < 768 := fun hc => hu.elim id fun ⟨_, hf⟩ => by rw [hf] at hc; cases hc
  have hword : (if c then 0x2C6400 else 0x2B6400) + 8 * (k % 16) = blockBase c + (0x6400 + 8 * (k % 16)) := by
    cases c <;> simp only [blockBase, Bool.false_eq_true, if_false, if_true] <;> omega
  have h := exec_timelineWindowWrite s agent k v huc
  refine ⟨fun h768 hk => h.trans (congrArg _ (if_neg (by omega))), fun hlist hq => ?_, exec_timelineWindowWrite_quiet s agent k v huc⟩
  rw [hword]
  rw [if_pos hlist, if_neg (by simp [hq])] at h
  exact ⟨_, h, s.refusedWrite_writeRefused ..⟩

/-- Any window write (08 R230; 07 R218). -/
theorem windowWrite_results (s : State) (agent : Nat) (a : ByteAccess) :
    (∀ i, s.badPA (stewardAgent agent) a.addr = some i → ∃ t, exec (.windowWrite agent a) s = .next t ∧ refusedWrite s t agent a.addr i)
    ∧ (s.badPA (stewardAgent agent) a.addr = none → a.addr / 2 ^ 52 ≠ 0xE → a.addr / 2 ^ 52 ≠ 0xF →
      ∃ t, exec (.windowWrite agent a) s = .next t ∧ refusedWrite s t agent a.addr 1)
    ∧ ∀ u off n, u < 784 → a.addr = windowPA u off → n = min a.size 64 → plainPad s u off n →
      (someRefused s u off n (stewardAgent agent) → ∃ t, exec (.windowWrite agent a) s = .next t ∧ refusedWrite s t agent a.addr 0)
      ∧ (allAccepted s u off n (stewardAgent agent) → ∃ t, exec (.windowWrite agent a) s = .next t
        ∧ onlyBytes s t a.addr n a.data.toNat ∧ (∀ w d, t.ctx w d = s.ctx w d)) := by
  refine ⟨fun i hbad => ?_, fun hbad hE hF => ?_, fun u off n hu haddr hn hpad => ?_⟩
  · have h : s.agentWrite agent a = s.writeRefused agent a.addr i := by simp only [State.agentWrite, hbad]
    exact ⟨_, congrArg Host.Outcome.next h, s.refusedWrite_writeRefused ..⟩
  · have h : s.agentWrite agent a = s.writeRefused agent a.addr 1 := by simp only [State.agentWrite, hbad, if_neg hE, if_neg hF]
    exact ⟨_, congrArg Host.Outcome.next h, s.refusedWrite_writeRefused ..⟩
  · have hwin := s.agentWrite_window agent hu (plainPad_lt hpad) haddr
    rw [← hn] at hwin
    refine ⟨fun hr => ?_, fun ha => ?_⟩
    · rw [State.agentWindow_pad_refused _ hpad hr, ← haddr] at hwin
      exact ⟨_, congrArg Host.Outcome.next hwin, s.refusedWrite_writeRefused ..⟩
    · obtain ⟨t, ht, hmem, hinj⟩ := State.agentWindow_pad_accepted a.data.toNat hu hpad ha
      rw [← haddr] at hmem
      exact ⟨t, congrArg Host.Outcome.next (hwin.trans ht), onlyBytes_of_mem hmem, injectionsOnly_ctx hinj⟩

/-- The host reads and writes device memory (08 R234). -/
theorem hostAperture_memory (s : State) (a : ByteAccess) (n : Nat) (hn : n = min a.size 64) (hp : s.power = true) (hclean : s.flips = [])
    (hrange : a.addr + n ≤ 2 ^ 40) :
    (a.write = true → ∃ t, exec (.hostApertureAccess a) s = .next t ∧ t.mem = writeBytes s.mem a.addr n a.data.toNat ∧ t.units = s.units
      ∧ t.out = s.out
      ∧ (∀ l ∈ linesOf a.addr n, ((∃ j, j < 8 ∧ (s.job j).opened = true ∧ (s.job j).tracks l = true) → t.stamp l = 0xFFF)
        ∧ ((∀ j, j < 8 → (s.job j).opened = true → (s.job j).tracks l = false) → t.stamp l = 0xFFD))
      ∧ ∀ l, l ∉ linesOf a.addr n → t.stamp l = s.stamp l)
    ∧ (a.write = false → ∃ t, exec (.hostApertureAccess a) s = .next t ∧ t.mem = s.mem
      ∧ t.out = s.out ++ [.host (bytesOf (readBytes s.mem a.addr n) n)]) := by
  have h := exec_hostApertureAccess_memory hn hp hrange
  refine ⟨fun hw => ?_, fun hw => ?_⟩
  · rw [if_pos hw] at h
    obtain ⟨hmem, hunits, hout, hstamp⟩ := State.hostWrite_memory (s := s) n a.data.toNat hclean (pa := a.addr) (by omega)
    refine ⟨_, h, hmem, hunits, hout, fun l hl => ?_, fun l hl => (hstamp l).trans (if_neg hl)⟩
    have hl := (hstamp l).trans (if_pos hl)
    exact ⟨fun ht => hl.trans (State.hostStamp_tracked ht), fun hu => hl.trans (State.hostStamp_untracked hu)⟩
  · rw [if_neg (by simp [hw]), State.scrub_of_clean hclean] at h
    exact ⟨_, h, rfl, rfl⟩

/-- The host reads windows, and writes those of quiet units (07 R218; 15 R421). -/
theorem hostAperture_window (s : State) (a : ByteAccess) (n u off : Nat) (hn : n = min a.size 64) (h0 : 0 < n) (hp : s.power = true)
    (hclean : s.flips = []) (hu : u < 784) (ho : off + n ≤ 2 ^ 22) (haddr : a.addr = 2 ^ 40 + u * 2 ^ 22 + off) :
    (a.write = false → exec (.hostApertureAccess a) s = .next { s with out := s.out ++ [.host (bytesOf (s.windowRead u off n) n)] })
    ∧ (a.write = true → plainPad s u off n →
      (allAccepted s u off n false → ∃ t, exec (.hostApertureAccess a) s = .next t
        ∧ onlyBytes s t (windowPA u off) n a.data.toNat ∧ t.out = s.out)
      ∧ (someRefused s u off n false → exec (.hostApertureAccess a) s
          = .next { s with out := s.out ++ [.hostUnsupported (windowPA u off)] })) := by
  have h := exec_hostApertureAccess_window hn h0 hp hu ho haddr
  refine ⟨fun hw => ?_, fun hw hpad => ⟨fun ha => ?_, fun hr => ?_⟩⟩
  · rw [if_neg (by simp [hw]), State.scrub_of_clean hclean] at h
    exact h
  · rw [if_pos hw] at h
    obtain ⟨t, ht, hmem, -, hout, -⟩ := State.agentWindow_pad_accepted (agent := 0xFFF) a.data.toNat hu hpad ha
    exact ⟨t, h.trans (congrArg _ ht), onlyBytes_of_mem hmem, hout⟩
  · rw [if_pos hw, State.agentWindow_pad_refused (agent := 0xFFF) _ hpad hr] at h
    exact h

/-- Control space is read-only to the host. -/
theorem hostAperture_control (s : State) (a : ByteAccess) (n off : Nat) (hn : n = min a.size 64) (hp : s.power = true)
    (ho : off + n ≤ 2 ^ 32) (haddr : a.addr = 0x11000000000 + off) :
    (a.write = true → exec (.hostApertureAccess a) s = .next s)
    ∧ (a.write = false → exec (.hostApertureAccess a) s = .next { s with out := s.out ++ [.host (bytesOf (s.controlRead off n) n)] }) := by
  have h := exec_hostApertureAccess_control hn hp ho haddr
  exact ⟨fun hw => h.trans (congrArg _ (if_pos hw)), fun hw => h.trans (congrArg _ (if_neg (by simp [hw])))⟩

/-- The host gets ones where nothing answers. -/
theorem hostAperture_unsupported (s : State) (a : ByteAccess) (n : Nat) (hn : n = min a.size 64)
    (hnone : s.power = false ∨ 0x11100000000 < a.addr) :
    exec (.hostApertureAccess a) s = .next { s with out := s.out ++ .hostUnsupported a.addr
      :: (if a.write then [] else [.host (List.replicate n 0xFF)]) } := by
  rw [exec_hostApertureAccess_unsupported hn hnone, bytesOf_ones (by omega)]
  cases a.write
  · simp [State.emit]
  · rfl

end Sys2Proof.Machine

namespace Sys2Proof

/-- Settles O51, clause by clause: control space, what stewards write at any time, words of quiet contexts, records, any window write;
then the four regions of the host's aperture. -/
theorem agentAndHostResults : Obligations.AgentAndHostResults := by
  unfold Obligations.AgentAndHostResults
  refine ⟨⟨fun s i agent off => controlEvent_closed s, fun s agent d v ha => ?control, fun s agent u k c ha hu => ?steward,
    stripStatusWrite_results, timelineWindowWrite_results, fun s agent u a v => ?records, windowWrite_results⟩,
    hostAperture_memory, hostAperture_window, hostAperture_control, hostAperture_unsupported⟩
  case control =>
    obtain ⟨hnone, hplane⟩ := barrierPlaneWrite_results s agent v ha
    exact ⟨hnone, hplane, exec_noticeLineSet_steward s d v ha, fun k => exec_monitorConfigWrite_die s d k v ha,
      exec_routeUnitJobWrite_steward s d v ha⟩
  case steward =>
    obtain ⟨honlyS, hserved⟩ := s.markFault_frame u c (k % 64) true false
    obtain ⟨honlyD, hdead⟩ := s.markFault_frame u c (k % 64) false true
    obtain ⟨honlyR, hretry⟩ := s.retryStream_frame u c (k % 16)
    simp only [Bool.or_true, Bool.or_false] at hserved hdead
    exact ⟨⟨_, exec_rfqServed_steward s c k ha hu, honlyS, hserved⟩, ⟨_, exec_rfqDead_steward s c k ha hu, honlyD, hdead⟩,
      _, exec_streamRetry_steward s c k ha hu, honlyR, hretry⟩
  case records =>
    exact ⟨exec_errorLogClear s agent u a, fun hu => ⟨exec_traceControlWrite s agent v hu, exec_monitorConfigWrite_tile s agent a v hu⟩⟩

end Sys2Proof
end


section
/-!
PROOF. Every well-formed instruction decodes from its own encoding (02 R47, R48, R50, R53, R57 to R61): per form of slot, what an engine
reads from a slot of that form; per engine, that the form and opcode of `encode` are those its opcode table reads.
-/
open Sys2Proof
namespace Sys2Proof

/-- Engine `e` reads the instruction `i` from the slot `w` with extension slot `x`, none in a one-slot form: past the fates of 02 R63
that do not lie in the instruction's own fields, privilege apart. -/
structure Reads (e : Nat) (w : Slot) (x : Option Slot) (i : Instr) : Prop where
  op : w.op ≠ 0xFF#8
  instr : ∀ nxt, (x.isSome = true → nxt = x) → instrOf e w ((nxt.getD 0#60).extractLsb' 0 40) = some i
  twoSlot : isTwoSlot e w = true → ∃ ext, x = some ext ∧ ext.op = 0xFF#8 ∧ extensionOk e ext = true

/-- What `decodeSlot` answers for a slot that reads as an instruction without a fate of its own. -/
theorem decodeSlot_of_reads {st : Bool} {e : Nat} {w : Slot} {x nxt : Option Slot} {i : Instr} (hr : Reads e w x i)
    (hfate : fate i = none) (hpriv : privilegedOp e w.op = true → st = true) (hx : x.isSome = true → nxt = x) :
    decodeSlot st e w nxt = .instr i := by
  have hinstr := hr.instr nxt hx
  have hprivilege : (privilegedOp e w.op && !st) = false := by
    cases hp : privilegedOp e w.op
    · rfl
    · simp [hpriv hp]
  cases htwo : isTwoSlot e w with
  | false => simp [decodeSlot, hr.op, hinstr, htwo, hprivilege, hfate]
  | true =>
    obtain ⟨ext, rfl, hop, hok⟩ := hr.twoSlot htwo
    obtain rfl := hx rfl
    simp only [Option.getD_some] at hinstr
    simp [decodeSlot, hr.op, hinstr, htwo, hprivilege, hfate, hop, hok]

/-- The low 40 bits of an extension slot are the value it holds (02 R48). -/
theorem packExtension_value {n : Nat} (v : BitVec n) :
    (packExtension (v.setWidth 52)).extractLsb' 0 40 = v.setWidth 40 := by
  rw [packExtension_low _ _ _ (by omega), ← BitVec.setWidth_eq_extractLsb' (by omega), BitVec.setWidth_setWidth_of_le _ (by omega)]

/-- Above its value an extension slot holds zeros (02 R48). -/
theorem packExtension_reserved {n : Nat} (v : BitVec n) (hn : n ≤ 52) :
    (packExtension (v.setWidth 52)).extractLsb' n (52 - n) = 0 := by
  rw [packExtension_low _ _ _ (by omega)]
  apply BitVec.eq_of_getLsbD_eq
  simp

/-! ### What each form of slot reads as -/

section Forms
variable {op : BitVec 8}

/-- A slot of a one-slot form. -/
theorem Reads.oneSlot {e : Nat} {w : Slot} {i : Instr} (hi : ∀ ext, instrOf e w ext = some i) (hext : w.op ≠ 0xFF#8)
    (htwo : isTwoSlot e w = false) : Reads e w none i where
  op := hext
  instr _ _ := hi _
  twoSlot h := by simp [htwo] at h

/-- A control-core slot other than that of LI (02 R50). -/
theorem Reads.core {o : CoreForm} {i : Instr} (hi : ∀ ext, coreOf op o ext = some i) (hext : op ≠ 0xFF#8 := by decide)
    (hli : op ≠ 0x28#8 := by decide) : Reads 0 (packCore op o) none i :=
  .oneSlot (fun _ => by simpa [instrOf] using hi _) (by simpa using hext) (by simp [isTwoSlot, hli])

/-- An access-strip slot (02 R59). -/
theorem Reads.access {h : StripHead} {o : AXForm} {i : Instr} (hi : accessOf op h o = some i) (hext : op ≠ 0xFF#8 := by decide)
    (hlow : ¬ 0xF0 ≤ op.toNat := by decide) : Reads 1 (packAX op h o) none i :=
  .oneSlot (fun _ => by simpa [instrOf, hlow] using hi) (by simpa using hext) (by simp [isTwoSlot])

/-- A matrix-strip slot (02 R58). -/
theorem Reads.matrix {h : StripHead} {o : MXForm} {i : Instr} (hi : matrixOf op h o = some i) (hext : op ≠ 0xFF#8 := by decide)
    (hlow : ¬ 0xF0 ≤ op.toNat := by decide) : Reads 2 (packMX op h o) none i :=
  .oneSlot (fun _ => by simpa [instrOf, hlow] using hi) (by simpa using hext) (by simp [isTwoSlot])

/-- A writeback-strip slot (02 R59). -/
theorem Reads.writeback {h : StripHead} {o : AXForm} {i : Instr} (hi : writebackOf op h o = some i)
    (hext : op ≠ 0xFF#8 := by decide) (hlow : ¬ 0xF0 ≤ op.toNat := by decide) : Reads 4 (packAX op h o) none i :=
  .oneSlot (fun _ => by simpa [instrOf, hlow] using hi) (by simpa using hext) (by simp [isTwoSlot])

/-- A vector-strip slot of the VR form (02 R57), `mk` being the instruction of its opcode. -/
theorem Reads.vr {h : StripHead} {o : VRForm} {mk : VRForm → Instr} (hi : ∀ w ext, vectorOf op h w ext = some (mk (unpackVR w)))
    (hext : op ≠ 0xFF#8 := by decide) (hlow : ¬ 0xF0 ≤ op.toNat := by decide) (hvli : op ≠ 0x61#8 := by decide) :
    Reads 3 (packVR op h o) none (mk o) :=
  .oneSlot (fun _ => by simp [instrOf, hlow, hi]) (by simpa using hext) (by simp [isTwoSlot, hvli])

/-- A vector-strip slot of the VI form other than that of VLI (02 R57), `mk` being the instruction of its opcode. -/
theorem Reads.vi {h : StripHead} {o : VIForm} {mk : VIForm → Instr} (hi : ∀ w ext, vectorOf op h w ext = some (mk (unpackVI w)))
    (hext : op ≠ 0xFF#8 := by decide) (hlow : ¬ 0xF0 ≤ op.toNat := by decide) (hvli : op ≠ 0x61#8 := by decide) :
    Reads 3 (packVI op h o) none (mk o) :=
  .oneSlot (fun _ => by simp [instrOf, hlow, hi]) (by simpa using hext) (by simp [isTwoSlot, hvli])

/-- A common slot, in any strip (02 R60). -/
theorem Reads.common {e : Nat} {h : StripHead} {o : CMForm} {i : Instr} (he : 1 ≤ e ∧ e ≤ 4) (hi : commonOf op h o = some i)
    (hext : op ≠ 0xFF#8 := by decide) (hhigh : 0xF0 ≤ op.toNat := by decide) (hvli : op ≠ 0x61#8 := by decide) :
    Reads e (packCM op h o) none i := by
  refine .oneSlot (fun _ => ?_) (by simpa using hext) (by simp [isTwoSlot, hvli, show e ≠ 0 by omega])
  obtain rfl | rfl | rfl | rfl : e = 1 ∨ e = 2 ∨ e = 3 ∨ e = 4 := by omega
  all_goals simpa [instrOf, hhigh] using hi

end Forms

/-- LI, whose extension slot holds the high 40 bits of its value (02 R47, R48; 04 R119). -/
theorem reads_li (o : CoreForm) (v : BitVec 40) :
    Reads 0 (packCore 0x28 o) (some (packExtension (v.setWidth 52))) (.li o v) where
  op := by simp
  instr nxt hx := by
    obtain rfl := hx rfl
    simp [instrOf, coreOf, packExtension_value]
  twoSlot _ := ⟨_, rfl, packExtension_op _, by simp [extensionOk, packExtension_reserved v (by omega)]⟩

/-- VLI, with an extension slot just when bit 17 of its immediate is set (02 R47, R48, R57). -/
theorem reads_vli {h : StripHead} {o : VIForm} {v : Option (BitVec 32)} (hv : o.imm.getLsbD 17 = v.isSome) :
    Reads 3 (packVI 0x61 h o) (v.map fun v => packExtension (v.setWidth 52)) (.vli h o v) where
  op := by simp
  instr nxt hx := by
    have hread : ∀ ext, instrOf 3 (packVI 0x61 h o) ext = some (.vli h o (if v.isSome then some (ext.setWidth 32) else none)) := by
      intro ext
      rw [← hv]
      simp [instrOf, vectorOf]
    cases v with
    | none => exact hread _
    | some v =>
      obtain rfl := hx rfl
      exact (hread _).trans (by simp [packExtension_value])
  twoSlot htwo := by
    have hsome : v.isSome = true := by
      rw [← hv, ← packVI_bit 0x61 h o]
      simpa [isTwoSlot] using htwo
    obtain ⟨v, rfl⟩ := Option.isSome_iff_exists.1 hsome
    exact ⟨_, rfl, packExtension_op _, by simp [extensionOk, packExtension_reserved v (by omega)]⟩

/-! ### Encodings, engine by engine -/

/-- The engines are 0 to 4. -/
theorem engineOf_le {i : Instr} {e : Nat} (h : engineOf i = some e) : e ≤ 4 := by
  cases i <;> cases h <;> decide

section Encodings
variable {i : Instr} {w : Slot} {x : Option Slot} (hm : minorOk i = true) (henc : encode i = some (w, x))
include henc

include hm in
/-- A control-core instruction (02 R50, R61). -/
theorem reads_core (he : engineOf i = some 0) : Reads 0 w x i := by
  cases i <;> cases he
  all_goals cases henc
  case li o v => exact reads_li o v
  case fenceLocal | fenceStrips | traceCfg | traceMark | traceTrig | launchOpen | launchGo | launchReplay | launchSel | stepJob
      | stepTile | stepInsn =>
    simp only [minorOk, beq_iff_eq] at hm
    exact .core fun _ => by simp [coreOf, hm]
  all_goals exact .core fun _ => rfl

/-- An access-strip instruction (02 R59, R61). -/
theorem reads_access (he : engineOf i = some 1) : Reads 1 w x i := by
  cases i <;> cases he
  all_goals cases henc; exact .access rfl

include hm in
/-- A matrix-strip instruction (02 R58, R61). -/
theorem reads_matrix (he : engineOf i = some 2) : Reads 2 w x i := by
  cases i <;> cases he
  all_goals cases henc
  case mcfgWrite | mcfgRead =>
    simp only [minorOk, beq_iff_eq] at hm
    exact .matrix (by simp only [matrixOf, hm]; rfl)
  all_goals exact .matrix rfl

include hm in
/-- A vector-strip instruction (02 R57, R61). -/
theorem reads_vector (he : engineOf i = some 3) : Reads 3 w x i := by
  cases i <;> cases he
  all_goals cases henc
  case vli => exact reads_vli (eq_of_beq hm)
  case vrot | viota | vget | vput | vbind => exact .vi fun _ _ => rfl
  all_goals exact .vr fun _ _ => rfl

/-- A writeback-strip instruction (02 R59, R61). -/
theorem reads_writeback (he : engineOf i = some 4) : Reads 4 w x i := by
  cases i <;> cases he
  all_goals cases henc; exact .writeback rfl

include hm in
/-- A common strip instruction, in any strip (02 R60, R61). -/
theorem reads_common {e : Nat} (he : engineOf i = none) (hstrip : 1 ≤ e ∧ e ≤ 4) : Reads e w x i := by
  cases i <;> cases he
  all_goals cases henc
  case sflgOr | sflgGet | sflgClr =>
    simp only [minorOk, beq_iff_eq] at hm
    exact .common hstrip (by simp [commonOf, hm])
  all_goals exact .common hstrip rfl

include hm in
/-- What is encoded is read back, by the engine that the instruction belongs to. -/
theorem reads_of_encode {e : Nat} (he : engineOf i = some e ∨ (engineOf i = none ∧ 1 ≤ e ∧ e ≤ 4)) : Reads e w x i := by
  rcases he with he | ⟨he, hstrip⟩
  · match e, engineOf_le he with
    | 0, _ => exact reads_core hm henc he
    | 1, _ => exact reads_access henc he
    | 2, _ => exact reads_matrix hm henc he
    | 3, _ => exact reads_vector hm henc he
    | 4, _ => exact reads_writeback henc he
  · exact reads_common hm henc he hstrip

end Encodings

/-- Settles O57: what an engine reads from an instruction's encoding is the instruction, and its fields being well formed no fate of
02 R63 is left. -/
theorem encodingsDecodeBack : Obligations.EncodingsDecodeBack := by
  unfold Obligations.EncodingsDecodeBack
  intro i w x nxt st e hwf henc he hpriv hx
  obtain ⟨hfate, hminor⟩ : fate i = none ∧ minorOk i = true := by simpa [WellFormed, wellFormed] using hwf
  exact decodeSlot_of_reads (reads_of_encode hminor henc he) hfate hpriv hx

/-- An instruction that is written out with its encoding decodes from it. -/
theorem decodeSlot_of_encode {i : Instr} {w : Slot} {x : Option Slot} {st : Bool} {e : Nat} (hwf : WellFormed i)
    (henc : encode i = some (w, x)) (he : engineOf i = some e) (hpriv : privilegedOp e w.op = true → st = true) :
    decodeSlot st e w x = .instr i :=
  encodingsDecodeBack i w x x st e hwf henc (.inl he) hpriv fun _ => rfl

/-- Settles O56: each word is the encoding of its instruction, which is well formed. -/
theorem specWordsDecode : Obligations.SpecWordsDecode := by
  unfold Obligations.SpecWordsDecode
  refine ⟨?_, ?_, ?_, ?_, ?_, ?_, ?_⟩
  all_goals exact decodeSlot_of_encode (by decide) rfl rfl (by decide)

end Sys2Proof
end


section
/-!
PROOF. Privilege and the guard of the control core: a privileged instruction in a tile traps before its guard is looked at, and under a
false guard an instruction only lets the fetch queue move on (02 R52, R61, R63, R64; 04 R107, R124).
-/
open Sys2Proof Sys2Proof.Machine Sys2Proof.Claims
namespace Sys2Proof.Machine

/-! ### How an instruction of the control core begins -/

/-- Privilege is looked at first: outside a steward a privileged instruction does nothing else. -/
theorem coreInstr_unprivileged {p : CoreSpec} {s : State} (o : CoreForm) (body : State → State → List Word → CoreRes)
    (skip : State → CoreRes) (hp : p.privileged = true) (hu : isSteward s.cur.unit = false) :
    coreInstr o p body s skip
      = .next (s.takePrecise s.cur.unit s.bank { cause := 0x03, i1 := s.me.slotWord, pos := s.me.pc }) := by
  simp [coreInstr, hp, hu, State.raise]

/-- Privilege and phase met, a false guard whose predicate is ready leaves `skip` alone to be done. -/
theorem coreInstr_falseGuard {o : CoreForm} {p : CoreSpec} {s : State} (body : State → State → List Word → CoreRes)
    (skip : State → CoreRes) (hpriv : p.privileged = false ∨ isSteward s.cur.unit = true)
    (hphase : p.compute = false ∨ s.inExchange = false) (hpend : s.me.pendingWrite (.preg o.p.toNat) = false)
    (hpreds : s.predicatesReady = true) (hguard : s.me.guardTrue o = false) :
    coreInstr o p body s skip = .next ((skip s).finish s) := by
  have hprivileged : (p.privileged && !isSteward s.cur.unit) = false := by rcases hpriv with h | h <;> simp [h]
  have hcompute : (p.compute && s.inExchange) = false := by rcases hphase with h | h <;> simp [h]
  simp [coreInstr, hprivileged, hcompute, hpend, hguard, s.scrubSources_ready [] o.g (by simp) fun _ => hpreds,
    s.badSource_ready [] o.g (by simp) fun _ => hpreds]

/-- Every instruction of the control core but BNA and BCMPNA runs as `coreInstr` does, with nothing to do under a false guard; its
declaration is privileged for just the instructions of 02 R61. -/
theorem exec_guarded {i : Instr} {o : CoreForm} (h : guarded i = some o) (s : State) :
    ∃ p body, exec i s = coreInstr o p body s ∧ p.privileged = (privileged i).isSome := by
  unfold guarded at h
  split at h <;> cases h
  all_goals exact ⟨_, _, rfl, rfl⟩

/-- The privileged instructions are among those of `exec_guarded`. -/
theorem guarded_of_privileged {i : Instr} {o : CoreForm} (h : privileged i = some o) : guarded i = some o := by
  unfold privileged at h
  split at h <;> cases h
  all_goals rfl

/-! ### The end of a branch that is not taken -/

/-- The entry at F0 has issued and nothing else was done: the queue is as 04 R107 has it. -/
theorem State.queue_retire (s : State) (target : Option Pos) (annul : Bool) :
    (s.retire target annul).me.queue = queueAfter s target annul := by
  simp only [State.retire, State.me_modMe]
  cases target <;> rfl

/-- A state in which no result is awaited, with nothing done but the queue moved on. -/
theorem retires_only (s : State) (annul : Bool) (hlate : s.me.late = none) :
    (s.retire none annul).offerTrap.me.queue = queueAfter s none annul
      ∧ (s.retire none annul).offerTrap.sansIssue = s.sansIssue := by
  rw [State.me_offerTrap, State.sansIssue_offerTrap, State.sansIssue_retire s none annul hlate]
  exact ⟨s.queue_retire none annul, rfl⟩

/-- BNA and BCMPNA run as `coreInstr` does, without privilege or phase, and annul their slots under a false guard (04 R124). -/
theorem exec_annulling {i : Instr} {o : CoreForm} (h : i = .bna o ∨ i = .bcmpna o) (s : State) :
    ∃ p body, exec i s = coreInstr o p body s (fun s => .branch s none true) ∧ p.privileged = false ∧ p.compute = false := by
  rcases h with rfl | rfl
  all_goals exact ⟨_, _, rfl, rfl, rfl⟩

end Sys2Proof.Machine

namespace Sys2Proof

/-- Settles O8: privilege is the first thing that `coreInstr` looks at. -/
theorem privilegedTraps : Obligations.PrivilegedTraps := by
  unfold Obligations.PrivilegedTraps
  intro i o hi s hu
  obtain ⟨p, body, hexec, hp⟩ := exec_guarded (guarded_of_privileged hi) s
  rw [Traps, hexec, coreInstr_unprivileged o body _ (by rw [hp, hi]; rfl) hu]

/-- Settles O7: past privilege and phase, what `coreInstr` does under a false guard is its `skip`, which is to complete, or for BNA
and BCMPNA to annul. -/
theorem falseGuardResults : Obligations.FalseGuardResults := by
  unfold Obligations.FalseGuardResults
  refine ⟨fun i o hi s hphase hpriv _ hpend hpreds hlate hguard => ?completes,
    fun i o hi s _ hpend hpreds hlate hguard => ?annuls⟩
  case completes =>
    obtain ⟨p, body, hexec, hp⟩ := exec_guarded hi s
    have hpriv : p.privileged = false ∨ isSteward s.cur.unit = true := hpriv.imp_left fun h => by rw [hp, h]; rfl
    exact ⟨_, hexec.trans (coreInstr_falseGuard body _ hpriv (.inr hphase) hpend hpreds hguard), retires_only s false hlate⟩
  case annuls =>
    obtain ⟨p, body, hexec, hp, hc⟩ := exec_annulling hi s
    exact ⟨_, hexec.trans (coreInstr_falseGuard body _ (.inl hp) (.inl hc) hpend hpreds hguard), retires_only s true hlate⟩

end Sys2Proof
end
